-- ==== Sys2Proof/Word.lean ====
section
/-!
DEFINITION. The words of the KW-320: the widths that the manual gives to bytes, scalar registers, rows, slot words and
flits (R4, R191, R217, R287, R46).
-/
namespace Sys2Proof

/-- One byte. -/
abbrev Byte := BitVec 8
/-- A 64-bit word: a scalar register, a management register (R191, R118). -/
abbrev Word := BitVec 64
/-- A 256-byte row: a vector register, a local row, a load-queue entry (R191, R217). -/
abbrev Row := BitVec 2048
/-- A slot word of a bundle (R287). -/
abbrev SlotWord := BitVec 32
/-- A bundle of eight slot words (R287). -/
abbrev Bundle := BitVec 256
/-- A 64-byte Forip flit, or one block of device memory (R40, R98). -/
abbrev Flit := BitVec 512

/-- A count that stops at its maximum. -/
def satInc (max n : Nat) : Nat := if n < max then n + 1 else max

end Sys2Proof
end

