-- ==== Sys2Proof/Machine/Bits.lean ====
section
/-!
DEFINITION. Bit fields, sign extension and byte order, as R4 and R10 give them.
-/
namespace Sys2Proof.Machine
open Sys2Proof

/-- The bits hi:lo of a number, as an unsigned integer (R10). -/
def field (x hi lo : Nat) : Nat := (x >>> lo) % 2 ^ (hi + 1 - lo)

/-- A number with bits hi:lo replaced. -/
def setField (x hi lo v : Nat) : Nat :=
  (x >>> (hi + 1)) <<< (hi + 1) ||| (v % 2 ^ (hi + 1 - lo)) <<< lo ||| x % 2 ^ lo

/-- The signed value of the low `w` bits of a number. -/
def signed (w x : Nat) : Int :=
  let y := x % 2 ^ w
  if y < 2 ^ (w - 1) then (y : Int) else (y : Int) - (2 ^ w : Nat)

/-- An integer wrapped to `w` bits, two's complement. -/
def wrap (w : Nat) (x : Int) : Nat := (x % ((2 ^ w : Nat) : Int)).toNat

/-- The smallest integer at or above x / y. -/
def ceilDiv (x y : Nat) : Nat := (x + y - 1) / y

/-- 1 for true, 0 for false. -/
def b2n (b : Bool) : Nat := if b then 1 else 0

/-- The little-endian bytes of a number: the byte at the lowest address holds bits 7:0 (R4). -/
def bytesOf : Nat → Nat → List Byte
  | 0, _ => []
  | n + 1, x => BitVec.ofNat 8 x :: bytesOf n (x / 256)

/-- The number that little-endian bytes hold (R4). -/
def ofBytes : List Byte → Nat
  | [] => 0
  | b :: bs => b.toNat + 256 * ofBytes bs

/-- The reversal of the low `n` bits of a number, bit 0 becoming bit n - 1. -/
def reverseBits : Nat → Nat → Nat
  | 0, _ => 0
  | n + 1, x => (x % 2) * 2 ^ n + reverseBits n (x / 2)

/-- The number of set bits among the low `n`. -/
def popCount : Nat → Nat → Nat
  | 0, _ => 0
  | n + 1, x => x % 2 + popCount n (x / 2)

/-- The number of zero bits below the lowest set bit, among the low `n` bits; `n` when they are all zero. -/
def trailingZeros : Nat → Nat → Nat
  | 0, _ => 0
  | n + 1, x => if x % 2 = 1 then 0 else 1 + trailingZeros n (x / 2)

/-- The indices below `n` whose bit is set, ascending. -/
def setBits (n x : Nat) : List Nat := (List.range n).filter (fun i => x.testBit i)

/-- The list with its element `i` replaced. -/
def listSet {α : Type} (l : List α) (i : Nat) (x : α) : List α := l.set i x

/-- The list without its element `i`. -/
def listDrop {α : Type} (l : List α) (i : Nat) : List α := l.eraseIdx i

end Sys2Proof.Machine
end

