-- ==== Sys2Proof/Machine/Aes.lean ====
section
/-!
DEFINITION. AES-256 in XTS mode (R100): the cipher of FIPS 197 and the mode of IEEE 1619 over a 64-byte data unit.
-/
namespace Sys2Proof.Machine
open Sys2Proof

namespace Aes

/-- The substitution box. -/
def sbox : List Nat :=
  [0x63, 0x7C, 0x77, 0x7B, 0xF2, 0x6B, 0x6F, 0xC5, 0x30, 0x01, 0x67, 0x2B, 0xFE, 0xD7, 0xAB, 0x76] ++
  [0xCA, 0x82, 0xC9, 0x7D, 0xFA, 0x59, 0x47, 0xF0, 0xAD, 0xD4, 0xA2, 0xAF, 0x9C, 0xA4, 0x72, 0xC0] ++
  [0xB7, 0xFD, 0x93, 0x26, 0x36, 0x3F, 0xF7, 0xCC, 0x34, 0xA5, 0xE5, 0xF1, 0x71, 0xD8, 0x31, 0x15] ++
  [0x04, 0xC7, 0x23, 0xC3, 0x18, 0x96, 0x05, 0x9A, 0x07, 0x12, 0x80, 0xE2, 0xEB, 0x27, 0xB2, 0x75] ++
  [0x09, 0x83, 0x2C, 0x1A, 0x1B, 0x6E, 0x5A, 0xA0, 0x52, 0x3B, 0xD6, 0xB3, 0x29, 0xE3, 0x2F, 0x84] ++
  [0x53, 0xD1, 0x00, 0xED, 0x20, 0xFC, 0xB1, 0x5B, 0x6A, 0xCB, 0xBE, 0x39, 0x4A, 0x4C, 0x58, 0xCF] ++
  [0xD0, 0xEF, 0xAA, 0xFB, 0x43, 0x4D, 0x33, 0x85, 0x45, 0xF9, 0x02, 0x7F, 0x50, 0x3C, 0x9F, 0xA8] ++
  [0x51, 0xA3, 0x40, 0x8F, 0x92, 0x9D, 0x38, 0xF5, 0xBC, 0xB6, 0xDA, 0x21, 0x10, 0xFF, 0xF3, 0xD2] ++
  [0xCD, 0x0C, 0x13, 0xEC, 0x5F, 0x97, 0x44, 0x17, 0xC4, 0xA7, 0x7E, 0x3D, 0x64, 0x5D, 0x19, 0x73] ++
  [0x60, 0x81, 0x4F, 0xDC, 0x22, 0x2A, 0x90, 0x88, 0x46, 0xEE, 0xB8, 0x14, 0xDE, 0x5E, 0x0B, 0xDB] ++
  [0xE0, 0x32, 0x3A, 0x0A, 0x49, 0x06, 0x24, 0x5C, 0xC2, 0xD3, 0xAC, 0x62, 0x91, 0x95, 0xE4, 0x79] ++
  [0xE7, 0xC8, 0x37, 0x6D, 0x8D, 0xD5, 0x4E, 0xA9, 0x6C, 0x56, 0xF4, 0xEA, 0x65, 0x7A, 0xAE, 0x08] ++
  [0xBA, 0x78, 0x25, 0x2E, 0x1C, 0xA6, 0xB4, 0xC6, 0xE8, 0xDD, 0x74, 0x1F, 0x4B, 0xBD, 0x8B, 0x8A] ++
  [0x70, 0x3E, 0xB5, 0x66, 0x48, 0x03, 0xF6, 0x0E, 0x61, 0x35, 0x57, 0xB9, 0x86, 0xC1, 0x1D, 0x9E] ++
  [0xE1, 0xF8, 0x98, 0x11, 0x69, 0xD9, 0x8E, 0x94, 0x9B, 0x1E, 0x87, 0xE9, 0xCE, 0x55, 0x28, 0xDF] ++
  [0x8C, 0xA1, 0x89, 0x0D, 0xBF, 0xE6, 0x42, 0x68, 0x41, 0x99, 0x2D, 0x0F, 0xB0, 0x54, 0xBB, 0x16]

/-- The substitution of a byte. -/
def sub (x : Nat) : Nat := sbox.getD x 0
/-- The inverse substitution. -/
def unsub (x : Nat) : Nat := sbox.idxOf x

/-- Doubling in the field of AES. -/
def xtime (x : Nat) : Nat := if x < 128 then 2 * x else (2 * x) ^^^ 0x11B

/-- The product in the field of AES, the second factor below 16. -/
def gmul (x y : Nat) : Nat :=
  (if y.testBit 0 then x else 0) ^^^ (if y.testBit 1 then xtime x else 0)
    ^^^ (if y.testBit 2 then xtime (xtime x) else 0) ^^^ (if y.testBit 3 then xtime (xtime (xtime x)) else 0)

/-- The bytewise exclusive or. -/
def xor (a b : List Nat) : List Nat := List.zipWith (· ^^^ ·) a b

/-- The next four words of the key schedule from the last eight. -/
def nextWords (rcon : Nat) (odd : Bool) (w : List (List Nat)) : List (List Nat) :=
  let last := w.getD 7 []
  let t := if odd then last.map sub
    else xor ((last.drop 1 ++ last.take 1).map sub) [rcon, 0, 0, 0]
  let w0 := xor (w.getD 0 []) t
  let w1 := xor (w.getD 1 []) w0
  let w2 := xor (w.getD 2 []) w1
  [w0, w1, w2, xor (w.getD 3 []) w2]

/-- The round keys from round 2 onward; the list holds the last eight words. -/
def schedule : Nat → Nat → Bool → List (List Nat) → List (List Nat)
  | 0, _, _, _ => []
  | n + 1, rcon, odd, w =>
    let x := nextWords rcon odd w
    x.flatten :: schedule n (if odd then xtime rcon else rcon) (!odd) (w.drop 4 ++ x)

/-- Lists of four bytes. -/
def words : List Nat → List (List Nat)
  | a :: b :: c :: d :: t => [a, b, c, d] :: words t
  | _ => []

/-- The fifteen round keys of a 32-byte key. -/
def roundKeys (key : List Nat) : List (List Nat) :=
  [key.take 16, key.drop 16] ++ schedule 13 1 false (words key)

/-- The byte order after ShiftRows, and before it. -/
def shiftRows (s : List Nat) : List Nat := [0, 5, 10, 15, 4, 9, 14, 3, 8, 13, 2, 7, 12, 1, 6, 11].map (fun i => s.getD i 0)
/-- The inverse of ShiftRows. -/
def unshiftRows (s : List Nat) : List Nat :=
  [0, 13, 10, 7, 4, 1, 14, 11, 8, 5, 2, 15, 12, 9, 6, 3].map (fun i => s.getD i 0)

/-- One column times a circulant matrix whose first row is given. -/
def mixColumn (m : List Nat) (c : List Nat) : List Nat :=
  (List.range 4).map (fun r => (List.range 4).foldl (fun acc j => acc ^^^ gmul (c.getD j 0) (m.getD ((j + 4 - r) % 4) 0)) 0)

/-- MixColumns with a given matrix. -/
def mix (m : List Nat) (s : List Nat) : List Nat := ((words s).map (mixColumn m)).flatten

/-- The cipher on one block of 16 bytes. -/
def encrypt (keys : List (List Nat)) (x : List Nat) : List Nat :=
  let s := (List.range 13).foldl
    (fun s i => xor (mix [2, 3, 1, 1] (shiftRows (s.map sub))) (keys.getD (i + 1) [])) (xor x (keys.getD 0 []))
  xor (shiftRows (s.map sub)) (keys.getD 14 [])

/-- The inverse cipher on one block. -/
def decrypt (keys : List (List Nat)) (x : List Nat) : List Nat :=
  let s := (List.range 13).foldl
    (fun s i => mix [14, 11, 13, 9] (xor ((unshiftRows s).map unsub) (keys.getD (13 - i) []))) (xor x (keys.getD 14 []))
  xor ((unshiftRows s).map unsub) (keys.getD 0 [])

/-- A number as 16 little-endian bytes. -/
def block (x : Nat) : List Nat := (bytesOf 16 x).map (·.toNat)
/-- The number of little-endian bytes. -/
def number (l : List Nat) : Nat := l.foldr (fun b acc => b + 256 * acc) 0

/-- The tweak of the next AES block: multiplication by the primitive element. -/
def nextTweak (t : Nat) : Nat := if t < 2 ^ 127 then 2 * t else (2 * t) % 2 ^ 128 ^^^ 0x87

/-- XTS over the blocks of a data unit, starting from a tweak. -/
def xts (f : List Nat → List Nat) : Nat → Nat → List Byte → List Byte
  | 0, _, _ => []
  | n + 1, t, d =>
    let x := xor ((d.take 16).map (·.toNat)) (block t)
    (xor (f x) (block t)).map (BitVec.ofNat 8) ++ xts f n (nextTweak t) (d.drop 16)

/-- The tweak of a data unit: physical address bits 51:6 under the tweak key (R100). -/
def tweak (tk : BitVec 256) (pa : Nat) : Nat :=
  number (encrypt (roundKeys ((bytesOf 32 tk.toNat).map (·.toNat))) (block (pa / 64 % 2 ^ 46)))

/-- Encryption of a 64-byte block. -/
def encryptBlock (dk tk : BitVec 256) (pa : Nat) (d : List Byte) : List Byte :=
  xts (encrypt (roundKeys ((bytesOf 32 dk.toNat).map (·.toNat)))) 4 (tweak tk pa) d
/-- Decryption of a 64-byte block. -/
def decryptBlock (dk tk : BitVec 256) (pa : Nat) (d : List Byte) : List Byte :=
  xts (decrypt (roundKeys ((bytesOf 32 dk.toNat).map (·.toNat)))) 4 (tweak tk pa) d

end Aes
end Sys2Proof.Machine
end

