-- ==== Sys2Proof/Config.lean ====
section
/-!
DEFINITION. The values that the manual leaves to the part, and its free values: constants without a body, so that no
proof can rest on what they are. Each is named in the assumption log.
-/
namespace Sys2Proof.Config

/-- Which of the 16 entries of a CONTIG group that are not identical a translation uses (R105). Free. -/
opaque contigChoice : Nat → Nat

/-- Whether a faithful special function takes the upper of the two neighbours of an inexact value (R359): the function's
number and the input bits. Free. -/
opaque upperNeighbour : Nat → Nat → Bool

/-- The f32 code that xgelu returns for an input, where it lies within the bound of R359. Free. -/
opaque geluChoice : Nat → Nat

/-- The hash that maps a stream to a module of its path (R19). Free. -/
opaque streamHash : Nat → Nat

/-- A byte of the opaque areas of a save record (R215), by what the record holds and its offset. Free. -/
opaque recordByte : List Nat → Nat → Byte

/-- A byte of a copy entry's table or descriptor that lies behind a window on another package or outside the package
(R283), by its place among the free values. Free. -/
opaque probeByte : Nat → Byte

/-- A byte of the boot flash as it was shipped, by flash offset (R141). Fixed per part. -/
opaque flashByte : Nat → Byte

/-- The public key on P-384 whose SHA-384 digest is fused (R143): a point of the curve. Fixed per part. -/
opaque publicKey : Nat × Nat

/-- The fused minimum of the security version (R143). Fixed per part. -/
opaque minSecurity : Nat

/-- The cores that pass their self-test at a package reset (R38), by its place among the free values. Free. -/
opaque selfTest : Nat → BitVec 320

/-- Which dies of a wake step have not reported when the step passes its limit (R32), by its place among the free values. Free. -/
opaque lateDies : Nat → Nat

/-- The bytes behind a far port of a die that reported in a wake step that passed its limit (R86), by its place among the free values
and the port. Free. -/
opaque farCapacity : Nat → Nat → Nat

/-- A byte of the screening record (R37). Fixed per part. -/
opaque screeningByte : Nat → Byte

end Sys2Proof.Config
end

