-- ==== Sys2Proof/Machine/Assoc.lean ====
section
/-!
DEFINITION. Sparse tables: lists of key and value pairs with keys strictly rising. A key that is not listed has the
table's default.
-/
namespace Sys2Proof.Machine

/-- A sparse table. -/
abbrev Assoc (α : Type) := List (Nat × α)

namespace Assoc
variable {α : Type}

/-- The entry of a key, if listed. -/
def find : Assoc α → Nat → Option α
  | [], _ => none
  | (j, x) :: t, k => if j = k then some x else if k < j then none else find t k

/-- The entry of a key, or the default. -/
def get (t : Assoc α) (k : Nat) (d : α) : α := (find t k).getD d

/-- The table with the entry of a key replaced or added in order. -/
def put : Assoc α → Nat → α → Assoc α
  | [], k, x => [(k, x)]
  | (j, y) :: t, k, x => if j = k then (k, x) :: t else if k < j then (k, x) :: (j, y) :: t else (j, y) :: put t k x

/-- The table without a key. -/
def del (t : Assoc α) (k : Nat) : Assoc α := t.filter (fun p => p.1 != k)

/-- The table with the entry of a key changed. -/
def modify (t : Assoc α) (k : Nat) (d : α) (f : α → α) : Assoc α := put t k (f (get t k d))

/-- The keys rise strictly. -/
def wf : Assoc α → Bool
  | [] => true
  | [_] => true
  | (j, _) :: (k, y) :: t => j < k && wf ((k, y) :: t)

end Assoc
end Sys2Proof.Machine
end

