-- ==== Sys2Proof/Machine/Memory.lean ====
section
/-!
DEFINITION. Byte memories in one canonical form: addresses strictly rising and no zero byte listed. A byte that is not
listed reads as zero (R217 for the local buffers; log 2 for device memory).
-/
namespace Sys2Proof.Machine
open Sys2Proof

/-- A byte memory. -/
abbrev Memory := List Host.Cell

namespace Memory

/-- The byte at an address. -/
def readByte : Memory → Nat → Byte
  | [], _ => 0
  | (b, x) :: t, a => if b = a then x else readByte t a

/-- The `n` bytes from an address upward. -/
def read (m : Memory) (a n : Nat) : List Byte :=
  let cells := m.filter (fun c => a ≤ c.1 && c.1 < a + n)
  (List.range n).map (fun i => readByte cells (a + i))

/-- The listed cells of a run of bytes from an address upward. -/
def cellsOf : Nat → List Byte → Memory
  | _, [] => []
  | a, b :: bs => if b = 0 then cellsOf (a + 1) bs else (a, b) :: cellsOf (a + 1) bs

/-- The memory with a run of bytes stored from an address upward. -/
def write (m : Memory) (a : Nat) (bs : List Byte) : Memory :=
  m.filter (fun c => c.1 < a) ++ cellsOf a bs ++ m.filter (fun c => a + bs.length ≤ c.1)

/-- The bytes whose positions a mask selects, the others keeping what memory holds. -/
def merge : List Byte → List (Option Byte) → List Byte
  | b :: bs, o :: os => o.getD b :: merge bs os
  | bs, _ => bs

/-- The addresses rise strictly and no listed byte is zero. -/
def wf : Memory → Bool
  | [] => true
  | [(_, x)] => x != 0
  | (a, x) :: (b, y) :: t => x != 0 && a < b && wf ((b, y) :: t)

end Memory
end Sys2Proof.Machine
end

