-- ==== Sys2Proof/Syntax.lean ====
section
/-!
DEFINITION. The instructions of the KW-320: one constructor of `Instr` for each row of the opcode table.
A slot operation carries its slot and the operands its format encodes (R290 to R305). A step of another agent carries
what the outside world or the schedule chooses: which flit, packet, request, register value or measurement.
-/
namespace Sys2Proof

/-! ### Operands of the slot operations -/

/-- The slots of a bundle (R288). -/
inductive Slot where
  | s0 | s1 | v0 | v1 | v2 | x | m0 | m1
  deriving DecidableEq, Repr

/-- A source selector (R290); the reserved values 74 to 127 name no operand. -/
inductive Sel where
  | reg (n : BitVec 6)
  | latch (k : BitVec 3)
  | pop
  | zero
  deriving DecidableEq, Repr

/-- The element formats of the FMT field (R300). -/
inductive Fmt where
  | f32 | bf16 | f16 | e4m3 | e5m2 | i32 | i16 | i8
  deriving DecidableEq, Repr

/-- The buffers of a core (R217). -/
inductive Buf where
  | a | w | c
  deriving DecidableEq, Repr

/-- The conditions of cmp (R315). -/
inductive Cmp where
  | eq | ne | lt | ge | ltn | gen
  deriving DecidableEq, Repr

/-- The conditions of br (R321). -/
inductive BrCond where
  | always | z | nz | lt | ge
  deriving DecidableEq, Repr

/-- The rounding modes (R246). -/
inductive Rm where
  | rne | rtz | up | down | sr
  deriving DecidableEq, Repr

/-- The atomic operations (R305, R367). -/
inductive AmoOp where
  | add | and | or | xor | min | max | swap | cas | fadd | cadd
  deriving DecidableEq, Repr

/-- Format SR with two sources (R298). -/
structure SR where
  slot : Slot
  h : Bool
  dst : BitVec 6
  a : Sel
  b : Sel
  deriving DecidableEq, Repr

/-- Format SR with one source. -/
structure SU where
  slot : Slot
  h : Bool
  dst : BitVec 6
  a : Sel
  deriving DecidableEq, Repr

/-- Format SI (R298). -/
structure SI where
  slot : Slot
  h : Bool
  dst : BitVec 6
  a : Sel
  imm : BitVec 12
  deriving DecidableEq, Repr

/-- Format SI with a shift count of 0 to 63 (R314). -/
structure SH where
  slot : Slot
  h : Bool
  dst : BitVec 6
  a : Sel
  imm : BitVec 6
  deriving DecidableEq, Repr

/-- Format SL (R298). -/
structure SL where
  slot : Slot
  h : Bool
  dst : BitVec 6
  imm : BitVec 19
  deriving DecidableEq, Repr

/-- Format V with two sources (R300). -/
structure VF where
  slot : Slot
  h : Bool
  fmt : Fmt
  p : Bool
  w : Bool
  dst : BitVec 6
  a : Sel
  b : Sel
  deriving DecidableEq, Repr

/-- Format V with one source. -/
structure VU where
  slot : Slot
  h : Bool
  fmt : Fmt
  p : Bool
  w : Bool
  dst : BitVec 6
  a : Sel
  deriving DecidableEq, Repr

/-- Format V with an immediate b. -/
structure VI where
  slot : Slot
  h : Bool
  fmt : Fmt
  p : Bool
  w : Bool
  dst : BitVec 6
  a : Sel
  k : BitVec 7
  deriving DecidableEq, Repr

/-- Format V with a predicate destination: the compares (R349). -/
structure VC where
  slot : Slot
  h : Bool
  fmt : Fmt
  p : Bool
  w : Bool
  dst : BitVec 3
  a : Sel
  b : Sel
  deriving DecidableEq, Repr

/-- Format V as predicate logic (R351). -/
structure QL where
  slot : Slot
  h : Bool
  w : Bool
  dst : BitVec 3
  a : BitVec 3
  b : BitVec 3
  deriving DecidableEq, Repr

/-- Format V as a conversion (R352): the target code and the rounding mode. -/
structure VV where
  slot : Slot
  h : Bool
  fmt : Fmt
  p : Bool
  w : Bool
  dst : BitVec 6
  a : Sel
  target : BitVec 4
  rm : Rm
  deriving DecidableEq, Repr

/-- The due offset of an engine command: DE and DM (R302). -/
structure Due where
  de : BitVec 2
  dm : BitVec 8
  deriving DecidableEq, Repr

/-- Format MR (R304). -/
structure MR where
  slot : Slot
  buf : Buf
  v : BitVec 6
  a : Sel
  imm : BitVec 9
  deriving DecidableEq, Repr

/-- Format MR with a source in V. -/
structure MRS where
  slot : Slot
  buf : Buf
  v : Sel
  a : Sel
  imm : BitVec 9
  deriving DecidableEq, Repr

/-! ### Packets and requests -/

/-- A Forip packet: the header fields of R46 and the payload flits. `route` is the route stack, entry 0 first, as 32-bit
entries of R49; `rsvd` gathers the reserved header bits 47:8, 67, 79:75 and 143:142 in that order from bit 0. -/
structure Packet where
  depth : Nat
  hops : Nat
  ecrc : Nat
  cls : Nat
  len : Nat
  opc : Nat
  oparg : Nat
  dest : Nat
  src : Nat
  status : Nat
  seq : Nat
  group : Nat
  gver : Nat
  tag : Nat
  route : List (BitVec 32)
  rsvd : Nat
  payload : List Flit
  deriving DecidableEq, Repr

/-- An inbound PCI Express memory request to a device-memory aperture (R121). -/
structure HostReq where
  func : Nat
  offset : Nat
  size : Nat
  write : Option (List Byte)
  deriving DecidableEq, Repr

/-- What the end-to-end check of a block finds (R98). -/
inductive Finding where
  | clean | oneSymbol | uncorrectable
  deriving DecidableEq, Repr

/-- How an outbound read completes at the PCI Express port (R124). -/
inductive Completion where
  | data (bytes : List Byte)
  | unsupportedRequest | completerAbort | poisoned
  deriving DecidableEq, Repr

/-! ### Instructions -/

/-- One constructor for each row of spec/opcode_table.json. -/
inductive Instr where
  -- The no-operation class (R293)
  | idle (slot : Slot)
  | rep (slot : Slot) (cnt : BitVec 4) (dd da db : BitVec 2)
  | kmark (slot : Slot)
  | hint (slot : Slot) (h : Bool) (bits : BitVec 25)
  -- Scalar (R299)
  | add (f : SR)
  | sub (f : SR)
  | and (f : SR)
  | or (f : SR)
  | xor (f : SR)
  | andn (f : SR)
  | sll (f : SR)
  | srl (f : SR)
  | sra (f : SR)
  | rol (f : SR)
  | min (f : SR)
  | max (f : SR)
  | minn (f : SR)
  | maxn (f : SR)
  | cmpCc (f : SR) (cc : Cmp)
  | cmov (f : SR)
  | mul (f : SR)
  | mulh (f : SR)
  | mulhn (f : SR)
  | div (f : SR)
  | divn (f : SR)
  | rem (f : SR)
  | remn (f : SR)
  | clz (f : SU)
  | ctz (f : SU)
  | popc (f : SU)
  | bfx (f : SR) (fn : BitVec 5)
  | bins (f : SR) (fn : BitVec 5)
  | brev (f : SU)
  | addi (f : SI)
  | andi (f : SI)
  | ori (f : SI)
  | xori (f : SI)
  | slli (f : SH)
  | srli (f : SH)
  | srai (f : SH)
  | slti (f : SI)
  | sltni (f : SI)
  | seqi (f : SI)
  | movl (f : SL)
  | movh (f : SL)
  | ldl (slot : Slot) (h : Bool) (dst : BitVec 6) (idx : BitVec 14)
  | brCc (c : BrCond) (a : Sel) (off : BitVec 15)
  | loop (a : BitVec 6) (off : BitVec 15)
  | call (dst : BitVec 6) (target : BitVec 14)
  | jr (a : Sel)
  | exit
  | yield
  | trap (num : BitVec 12)
  | uret
  | srd (slot : Slot) (dst : BitVec 6) (num : BitVec 12)
  | swr (a : Sel) (num : BitVec 12)
  | scopew (e : BitVec 5) (a : Sel)
  | winw (w : BitVec 4) (a b : Sel)
  | winr (slot : Slot) (dst : BitVec 6) (w : BitVec 4) (hi : Bool)
  | inval (a b : Sel)
  -- Vector (R301)
  | vadd (f : VF)
  | vsub (f : VF)
  | vmul (f : VF)
  | vfma (f : VF)
  | vfms (f : VF)
  | vmin (f : VF)
  | vmax (f : VF)
  | vabs (f : VU)
  | vneg (f : VU)
  | vadds (f : VF)
  | vsubs (f : VF)
  | vaddsn (f : VF)
  | vand (f : VF)
  | vor (f : VF)
  | vxor (f : VF)
  | vshl (f : VF)
  | vshr (f : VF)
  | vsra (f : VF)
  | vshli (f : VI)
  | vcmpEq (f : VC)
  | vcmpLt (f : VC)
  | vcmpLe (f : VC)
  | vcmpNe (f : VC)
  | vcmpLtn (f : VC)
  | vcvt (f : VV)
  | vcvts (f : VV)
  | vsel (f : VF)
  | vmov (f : VU)
  | vbcast (f : VI)
  | vperm (f : VF)
  | vtrans (f : VU)
  | vrsum (f : VU)
  | vcsum (f : VU)
  | vrmax (f : VU)
  | vcmax (f : VU)
  | vrmin (f : VU)
  | vcmin (f : VU)
  | vshp (slot : Slot) (h : Bool) (code : BitVec 3)
  | vmovz (f : VU)
  | vpfx (slot : Slot) (h p w : Bool) (dst : BitVec 3) (a : Sel)
  | qand (f : QL)
  | qor (f : QL)
  | qxor (f : QL)
  | qnot (slot : Slot) (h w : Bool) (dst a : BitVec 3)
  | vdq (f : VI)
  | vmac (f : VF)
  | vrot (f : VI)
  | vsplat (f : VU)
  -- X slot (R303)
  | xexp2 (f : VU)
  | xlog2 (f : VU)
  | xrcp (f : VU)
  | xrsqrt (f : VU)
  | xsqrt (f : VU)
  | xsin (f : VU)
  | xcos (f : VU)
  | xtanh (f : VU)
  | xsigm (f : VU)
  | xgelu (f : VU)
  | xdiv (f : VF)
  | mm (due : Due) (a b : Sel)
  | mmacro (due : Due) (a : BitVec 6) (b : Sel)
  | accz (t : BitVec 5)
  | rqr (due : Due) (deferred : Bool) (a b : Sel)
  | rap (due : Due) (deferred : Bool) (a : BitVec 6) (b : Sel)
  | rrd (h p w : Bool) (dst : BitVec 6) (a : Sel)
  | rcl (due : Due)
  | rang (h p w : Bool) (dst : BitVec 6) (a : Sel) (half : Bool)
  | cp (due : Due) (a : Sel)
  | cpadv (due : Due)
  | wmwait (a b : Sel)
  | cpreset (a : Sel)
  -- M slots (R305)
  | ld (f : MR)
  | st (f : MRS)
  | ldt (f : MR)
  | stt (f : MRS)
  | ldsc (buf : Buf) (v : BitVec 4) (a : Sel) (imm : BitVec 9)
  | ldbf (buf : Buf) (v : BitVec 6) (a : Sel) (xp : BitVec 3) (imm : BitVec 6)
  | amoOp (slot : Slot) (op : AmoOp) (v : BitVec 6) (a b : Sel)
  | ldgRow (slot : Slot) (a b : Sel)
  | ldgWord (slot : Slot) (a b : Sel)
  | stgRow (slot : Slot) (v a b : Sel)
  | stgWord (slot : Slot) (v a b : Sel)
  | ldff (slot : Slot) (a b : Sel) (q : BitVec 3)
  | amogOp (slot : Slot) (op : AmoOp) (v a b : Sel)
  | rst (slot : Slot) (v a : Sel)
  | rld (slot : Slot) (a : Sel)
  | rred (slot : Slot) (v : BitVec 6) (a : Sel) (ifmt : BitVec 4) (arrival : Bool) (nr : BitVec 2)
  | rfaaI64 (slot : Slot) (a b : Sel)
  | rfaaI32 (slot : Slot) (a b : Sel)
  | rmc (slot : Slot) (v a b : Sel)
  | clap (slot : Slot)
  | fence (slot : Slot) (e : BitVec 5)
  | barInit (slot : Slot) (b : BitVec 6) (a : Sel)
  | barArr (slot : Slot) (b : BitVec 6)
  | barWait (slot : Slot) (b : BitVec 6)
  | barSync (slot : Slot) (b : BitVec 6)
  | barDep (slot : Slot) (b : BitVec 6)
  | barEnd (slot : Slot) (b : BitVec 6)
  | fbar (slot : Slot) (e : BitVec 5) (a : Sel)
  | guardSet (slot : Slot) (a b : Sel)
  | guardClr (slot : Slot) (a b : Sel)
  | rmg (slot : Slot) (dst a b : BitVec 6) (c : Sel)
  | tagwFull (slot : Slot) (a : Sel)
  | tagwEmpty (slot : Slot) (a : Sel)
  -- Contexts (R167, R204, R205, R210, R296)
  | contextWake (core ctx : Nat)
  | regionRestart (core ctx : Nat)
  | engineHung (core ctx : Nat)
  | uintDelivery (core ctx : Nat)
  | repInstance (core ctx slot : Nat)
  | globalLoadReturn (core i : Nat)
  | storeQueueSend (core ctx : Nat)
  | remoteTimeout (core i : Nat)
  | seqEntryExpire (core i : Nat)
  -- Engines (R228, R270, R272, R276, R284, R285, R404)
  | matrixCommandStart (core : Nat)
  | matrixCommandComplete (core : Nat)
  | macroStep (core : Nat)
  | rotatorCommandStart (core : Nat)
  | rotatorCommandComplete (core : Nat)
  | copyEntryStart (core ch : Nat)
  | copyRowLand (core ch row : Nat)
  | followOnEnqueue (core ch : Nat)
  | copyEntryComplete (core ch : Nat)
  | copyChannelError (core ch : Nat)
  -- Packets delivered to a core (R376, R379) and to the Z die
  | store (core i : Nat)
  | loadReq (core i : Nat)
  | loadRsp (core i : Nat)
  | amo (core i : Nat)
  | amoRsp (core i : Nat)
  | ack (core i : Nat)
  | error (core i : Nat)
  | bulkWrite (core i : Nat)
  | bulkReadReq (core i : Nat)
  | bulkReadRsp (core i : Nat)
  | mgmt (i : Nat)
  | ringWrite (i : Nat)
  | ringRead (i : Nat)
  -- Routing (R49 to R56)
  | packetRouteFill (i : Nat)
  | routeFwd (i : Nat)
  | routeDeliver (i : Nat)
  | routeCombine (i : Nat)
  | routeFanout (i : Nat)
  | fanoutAck (i : Nat)
  | fanoutAckTimeout (fan : Nat)
  | routeTableStageWrite (offset : Nat) (v : Word)
  | routeTablePublish (offset : Nat) (v : Word)
  -- Translation (R105 to R112)
  | pageWalkComplete (i : Nat)
  | invalidationPost (v : Word)
  | invalidationStart
  | tlbInvalidationAck (holder : Nat)
  | pinTimeout (core ch : Nat)
  -- Scheduler and walker (R147 to R170)
  | launchDispatch (launch : Nat)
  | loadingComplete (launch : Nat)
  | priorityAgeing (launch : Nat)
  | contextPreempt (launch : Nat)
  | contextSaveComplete (core ctx : Nat)
  | contextResume (launch core home : Nat)
  | iterationHandout (launch : Nat)
  | stepBoundary (launch : Nat)
  | launchRetire (launch : Nat)
  | paddockEvaluate
  | schedcfgWrite (v : Word)
  -- Coverage (R180 to R184)
  | reconstructPoint (launch n : Nat)
  | auditCompare (launch n : Nat)
  | dailiesUpdate (launch : Nat)
  -- Region table, migration, memory controllers (R88 to R101)
  | drainMarker (die i : Nat)
  | drainComplete
  | migrationBlockCopy
  | memoryRead (i : Nat) (finding : Finding)
  | memoryWrite (i : Nat)
  | memoryAtomic (i : Nat) (finding : Finding)
  | regionAdvance
  | migrationStart (v : Word)
  | migrationResume
  | migstatRead
  | scrubRead (unit block : Nat) (finding : Finding)
  | ecccntRead (u : Nat)
  | cxlPortDown (port : Nat)
  | cxlPortRetrain (port : Nat)
  | keyLoad (v : Word)
  | keyEnable (v : Word)
  | keyDisable (v : Word)
  -- Reductions, barriers, agreement (R63 to R85)
  | reduce (i : Nat)
  | barrierArrive (i : Nat)
  | slotTimeout (group k : Nat)
  | reduceResultData (i : Nat)
  | statusPhaseSend (group k : Nat)
  | reduceResultStatus (i : Nat)
  | resultWaitTimeout (group k : Nat)
  | barrierRelease (i : Nat)
  | groupValidWrite (group : Nat) (staged : Bool) (v : Word)
  | groupDelete (group : Nat)
  | groupPropose (group : Nat)
  | agreePrepare (i : Nat)
  | agreeReady (i : Nat)
  | agreeCommit (i : Nat)
  | agreeAbort (i : Nat)
  | agreeInvalidStep (i : Nat)
  | agreeDeadline (group : Nat)
  | agreeCommitDone (group : Nat)
  | leaveComplete (group : Nat)
  | ringcfgWrite (ring : Nat) (v : Word)
  -- Queues and the command processor (R127 to R140)
  | queueEnable (q : Nat) (v : Word)
  | queueDisable (q : Nat) (v : Word)
  | queueResume (q : Nat) (v : Word)
  | queueSkip (q : Nat) (v : Word)
  | queueDoorbell (func q : Nat) (x : BitVec 32)
  | queueStatusRead (func q : Nat)
  | packetFetch (q : Nat)
  | nop (q : Nat)
  | wait (q : Nat)
  | waitPoll (q : Nat)
  | waitTimeout (q : Nat)
  | signal (q : Nat)
  | launch (q : Nat)
  | admitSlot (q : Nat)
  | evict (q : Nat)
  | cancel (q : Nat)
  | fetchFence (q : Nat)
  | cpThreadRestart (q : Nat)
  | functionLevelReset (func : Nat)
  | hotReset
  | flrComplete (func : Nat)
  -- PCI Express (R116 to R126)
  | apertureRequest (r : HostReq)
  | pcieAtomicop (func : Nat)
  | aperctlWrite (func : Nat) (high : Bool) (v : Word)
  | outboundRequestSend (i : Nat)
  | outboundCompletion (i : Nat) (c : Completion)
  | outboundReadTimeout (i : Nat)
  | msixUnmask (func vector : Nat)
  | mgmtRegisterWrite (offset : Nat) (v : Word)
  -- Die-to-die modules (R17 to R25)
  | ucieFlitReceive (m dir : Nat) (crcOk : Bool)
  | ucieNak (m dir : Nat)
  | ucieAcknowledgement (m dir : Nat)
  | moduleRetrainEnd (m : Nat) (failed0 failed1 : BitVec 64)
  | crcRateRetrain (m dir : Nat)
  | internalMessageReceive (die i : Nat)
  | d2dstatRetrain (m : Nat)
  | d2dstatRead (m : Nat)
  | streamMappingEpoch
  | flitTransmit (link dir : Nat)
  | permitcfgWrite (link : Nat) (v : Word)
  -- Power and telemetry (R27 to R31)
  | pwrlimitWrite (v : Word)
  | pwrstretchWrite (v : Word)
  | powerControllerTick (watts : Nat)
  | thermalThreshold (temps : List Nat)
  | droopDetect (die : Nat)
  | droopHoldEnd
  | thermalTrip (die : Nat)
  | telemetrySample (energy temps : List Nat)
  -- Wake, rehearsal, mailbox (R32 to R38)
  | powerOnReset
  | wakeStepReady (capacities : List Nat)
  | wakeStepTimeout
  | rehearsalWave (launch : Nat)
  | actionCycle (launch : Nat)
  | mboxReadTelemetry
  | mboxReadStatus
  | mboxSetPowerLimit
  | mboxReadEventLog
  | mboxReadFwVersions
  | mboxReadScreening
  | mboxUnknownCommand
  | coreRemoved (core : Nat)
  -- Forip ports (R41 to R45)
  | foripFlitReceive (port : Nat) (flit : Flit) (trailer : BitVec 32)
  | linkControlReceive (port : Nat) (flit : Flit)
  | linkControlSend (port : Nat)
  | foripRateRetrain (port : Nat)
  | foripRetrainEnd (port : Nat) (lane0 lane1 : Bool)
  | fpstatRetrain (port : Nat)
  | fpstatRead (port : Nat)
  | portTrainComplete (port : Nat)
  | portIdent (port peerPkg peerPort : Nat)
  | fabcfgWrite (v : Word)
  -- Firmware (R145)
  | fwWriteSlot (v : Word) (readback : Bool)
  | fwVerifySlot (v : Word)
  | fwActivateSlot (v : Word)
  deriving DecidableEq, Repr

end Sys2Proof
end

