-- ==== Sys2Proof/Machine/CoreTypes.lean ====
section
/-!
DEFINITION. The state of a core: contexts, queues, results in flight, local memory and the three engines (R189 to R286).
-/
namespace Sys2Proof.Machine
open Sys2Proof

/-! ### Results in flight (R193, R200) -/

/-- Where a result lands; `none` for a result that reaches its latch only (R194). -/
inductive Dest where
  | s (n : BitVec 6)
  | h (n : BitVec 3)
  | v (n : BitVec 6)
  | q (n : BitVec 3)
  | sc (first : BitVec 4)
  | shp
  | none
  deriving DecidableEq, Repr

/-- A result in flight: it lands when the context cycle count reaches `lands`; `issued` is the context cycle of its issue. -/
structure Result where
  slot : Slot
  dest : Dest
  issued : Nat
  lands : Nat
  value : Row
  deriving DecidableEq, Repr

/-- What a local write does at its write point (R221); an atomic's trap enables are those of its issue (R330). -/
inductive LocalEffect where
  | store (row : Row) (fill : Bool)
  | atomic (op : AmoOp) (word : Nat) (v c : Word) (dest : Dest) (traps : Nat)
  deriving DecidableEq, Repr

/-- A local write in flight, with its write point in context cycles, the index of its bundle and the issue number that the next
queue entry had then. -/
structure LocalWrite where
  slot : Slot
  buf : Buf
  row : Nat
  issued : Nat
  point : Nat
  pc : Nat
  seq : Nat
  eff : LocalEffect
  deriving DecidableEq, Repr

/-- A hold record (R295): the held word with its current register fields, and the visibility cycle of its last instance;
where that result is parked (R210), its offset from the handler's entry. -/
structure Hold where
  word : SlotWord
  visible : Nat
  parked : Bool
  deriving DecidableEq, Repr

/-- A rep instance that has not yet read its sources (R296). -/
structure Pending where
  slot : Slot
  instr : SlotWord
  issued : Nat
  readAt : Nat
  pc : Nat
  deriving DecidableEq, Repr

/-- A fault to be raised at the context's next bundle: a rep instance's (R296), an atomic's (R367) or a U event's
(R207). `addr` is none when FADDR is that bundle. -/
structure PendingFault where
  code : Nat
  addr : Option Nat
  slot : Nat
  deriving DecidableEq, Repr

/-- A due entry (R392): the command, its due cycle in context cycles, whether it was issued in the current region, and
the core cycle at which it first failed (R205). -/
structure DueEntry where
  cmd : Nat
  due : Nat
  region : Bool
  failed : Bool
  coreDue : Option Nat
  deriving DecidableEq, Repr

/-- The restart-point copies (R204, R248, R267, R295, R324). -/
structure Restart where
  pc : Nat
  redirect : Option (Nat × Nat)
  g : BitVec 32
  lpc : BitVec 14
  holds : List (Option Hold)
  deriving DecidableEq, Repr

/-! ### Queues (R196, R198, R376) -/

/-- What fills a load-queue entry. -/
inductive LoadKind where
  | global | outbound | remote
  | status (group rseq : Nat)
  | inval
  deriving DecidableEq, Repr

/-- A request of a load-queue entry that has not left the core: a block or word of memory, an outbound read, or a remote
row with its window binding (R115). -/
inductive LoadReq where
  | memory (pa key unit uaddr n part : Nat)
  | outbound (addr n part : Nat)
  | remote (fabric : Nat) (window : Option (Nat × Nat))
  deriving DecidableEq, Repr

/-- A load-queue entry: its number, its issue number, the requests that have not left, and its data. `missing` has bit p
set while the request that brings the data from block p on is awaited; `word` keeps one word of a row. -/
structure LoadEntry where
  id : Nat
  seq : Nat
  kind : LoadKind
  reqs : List LoadReq
  popped : Bool
  held : Bool
  missing : Nat
  word : Option Nat
  data : Row
  fault : Option Nat
  deriving DecidableEq, Repr

/-- What a store-queue entry sends. -/
inductive StoreOp where
  | global (n : Nat)
  | globalAtomic (op : AmoOp) (c : Word)
  | remoteStore
  | remoteWord
  | remoteAtomic (op : AmoOp) (half : Bool) (c : Word)
  | multicast (set : BitVec 12)
  | reduce (desc : Word) (ifmt : BitVec 4) (order : Bool) (rows : List Row)
  | barrier (desc : Word) (scope : BitVec 512)
  | inval (page desc : Word)
  deriving DecidableEq, Repr

/-- The progress of a store-queue entry: held, committed, or sent and unanswered. -/
inductive StoreStatus where
  | held | committed | sent
  deriving DecidableEq, Repr

/-- A resolved physical target (R89). -/
inductive Target where
  | memory (unit uaddr : Nat)
  | outbound (addr : Nat)
  deriving DecidableEq, Repr

/-- A store-queue entry. `window` is the window index and the WVER recorded at issue (R115); `fabric` the fabric address
of a remote operation; `pa` the translation made at commit (R111). -/
structure StoreEntry where
  id : Nat
  seq : Nat
  op : StoreOp
  status : StoreStatus
  addr : Nat
  data : Row
  lq : Option Nat
  window : Option (Nat × Nat)
  fabric : Nat
  pa : Option (Nat × Nat × Target)
  deriving DecidableEq, Repr

/-- A global write that has been sent and not yet performed: its issue number, its block address and the parts still
outstanding. -/
structure OpenWrite where
  seq : Nat
  id : Nat
  block : Nat
  missing : Nat
  outbound : Bool
  deriving DecidableEq, Repr

/-- A remote operation that has been sent and awaits its response (R376); `copy` is its channel, command and row. -/
structure RemoteOp where
  tag : Nat
  seq : Nat
  cls : Nat
  sentAt : Nat
  lq : Option Nat
  sq : Option Nat
  pkg : Nat
  core : Nat
  write : Bool
  copy : Option (Nat × Nat × Nat)
  deriving DecidableEq, Repr

/-- A clap or a fence that later queue accesses must respect (R236, R237). -/
structure Fence where
  seq : Nat
  clap : Bool
  scope : BitVec 512
  deriving DecidableEq, Repr

/-! ### Contexts (R191, R214) -/

/-- What ends a block (R199, R167): a load-queue entry's data, a store-queue place, rows that no channel's watermark
holds back, a count of landed rows, a tag, a barrier, a place in an engine's queue, or commands that complete. -/
inductive Wake where
  | entry (seq : Nat)
  | place
  | rows (l : List (Buf × Nat))
  | count (ch n : Nat)
  | tag (row : Nat) (full : Bool)
  | barrier (b : Nat)
  | array
  | sequencer
  | rotator
  | channel (ch n : Nat)
  | commands (l : List Nat)
  deriving DecidableEq, Repr

/-- CTXSTATE.MODE (R214). -/
inductive Mode where
  | free | ready | issuing | blocked | saved | restarting | killed
  deriving DecidableEq, Repr

/-- A tile iteration handed out (R159): its ordinal, its request slot and REQ, and its indices. -/
structure Iteration where
  n : Nat
  slot : Nat
  req : Word
  idx : List Word
  deriving DecidableEq, Repr

/-- The w1c bits that hardware has set in the present core cycle (R330): flags, fpfirst.VALID and uip. -/
structure Fresh where
  flags : Word
  first : Bool
  uip : BitVec 17
  deriving DecidableEq, Repr

/-- A hardware context. `fresh` holds what this core cycle has set, `tagHeld` says that ucause holds the TAG of a remote
operation (R212), `syncOn` the barriers of bar.sync that hold back the next bundle. `iteration` is the ordinal and slot of its
iteration, `nextIteration` its pending one (R160), and `seqBase` the issue number of its first access for its current launch.
`freeAt` is the cycle in which its last iteration ended (R159). -/
structure Context where
  mode : Mode
  launch : Option Nat
  home : Nat
  s : Vector Word 64
  v : Vector Row 64
  q : Vector Word 8
  sc : Vector Byte 16
  xp : Vector Word 8
  kb : Vector (BitVec 256) 8
  w : Vector (BitVec 128) 16
  scopes : Vector (BitVec 512) 32
  h : Vector Word 8
  shp : BitVec 3
  pc : Nat
  lpc : BitVec 14
  ttcount : Nat
  priv : Bool
  inh : Bool
  patient : Bool
  guardChk : Bool
  pendChk : Bool
  block : Nat
  fpflags : Word
  fpfirst : Word
  uctl : Word
  uip : BitVec 17
  ucause : Word
  tagHeld : Bool
  fresh : Fresh
  g : BitVec 32
  cc : Nat
  ccBase : Nat
  inflight : List Result
  reel : List Result
  localWrites : List LocalWrite
  holds : Vector (Option Hold) 8
  chain : List Pending
  redirect : Option (Nat × Nat)
  restart : Restart
  atRestart : Bool
  latched : List Nat
  restartKind : Nat
  parked : List Result
  parkedChain : List Pending
  parkedRedirect : Option (Nat × Nat)
  due : List DueEntry
  regionCmds : List Nat
  lq : List LoadEntry
  sq : List StoreEntry
  writes : List OpenWrite
  remote : List RemoteOp
  fences : List Fence
  seq : Nat
  gfrec : Word
  part : BitVec 64
  ar : BitVec 64
  syncOn : List Nat
  pendingFault : Option PendingFault
  rotFlags : List (Nat × Nat)
  wakeOn : Option Wake
  iteration : Option (Nat × Nat)
  nextIteration : Option Iteration
  seqBase : Nat
  freeAt : Nat
  deriving DecidableEq, Repr

/-- A saved context of a core (R163, R215): the context and the address of its record. -/
structure Saved where
  ctx : Context
  addr : Nat
  deriving DecidableEq, Repr

/-! ### Engines -/

/-- What an array-queue command does (R265, R398). -/
inductive ArrayOp where
  | mm (md0 md1 : Word) (sw : BitVec 32) (kba kbb : BitVec 256) (zero : Bool)
  | accz (tile : Nat)
  deriving DecidableEq, Repr

/-- The rows that one step streams: data and scales of A, data, sparsity metadata and scales of W. -/
structure Streamed where
  a : List Row
  asc : List Row
  w : List Row
  masks : List Row
  wsc : List Row
  deriving DecidableEq, Repr

/-- A command of the matrix array, with its start, stream end, and the cycles of the row reads and writes still to come
(R270). `more` continues in the cells: the steps of a macro with DC = 0 (R271). `rows` is what its steps stream, once it has
started, and `acc` the accumulator rows read so far. `follow` is the channel of a follow-on (R284). -/
structure ArrayCmd where
  cmd : Nat
  ctx : Nat
  launch : Nat
  op : ArrayOp
  more : List ArrayOp
  entered : Nat
  start : Nat
  streamEnd : Nat
  reads : List Nat
  writes : List Nat
  complete : Nat
  started : Bool
  rows : List Streamed
  acc : List Row
  follow : Option Nat
  deriving DecidableEq, Repr

/-- A macro-operation in the sequencer (R271, R272); `left` is the cycle in which its last step entered the array queue. -/
structure MacroRun where
  cmd : Nat
  ctx : Nat
  home : Nat
  launch : Nat
  md0 : Word
  md1 : Word
  da : Nat
  dw : Nat
  dc : Nat
  nstep : Nat
  step : Nat
  words : List (BitVec 32)
  kba : BitVec 256
  kbb : BitVec 256
  stopped : Bool
  left : Option Nat
  deriving DecidableEq, Repr

/-- A triangular register (R259). -/
structure Tri where
  m : Int
  e : Int
  invalid : Bool
  cnt : Nat
  deriving DecidableEq, Repr

/-- What a rotator-queue command does (R399 to R401): a row, a set of angles, or a clear. -/
inductive RotOp where
  | rqr (w : Nat) (row : Row)
  | rap (t0 : Nat) (inPlace deferred : Bool) (pairs angles : Row)
  | rcl
  deriving DecidableEq, Repr

/-- A command of the rotator queue, of the context with a home number of a launch. -/
structure RotCmd where
  cmd : Nat
  home : Nat
  launch : Nat
  pc : Nat
  op : RotOp
  start : Nat
  complete : Nat
  started : Bool
  flags : Nat
  deriving DecidableEq, Repr

/-- A page that a copy entry probed: its virtual page address, size, and what it resolves to (R283). -/
structure Pin where
  va : Nat
  size : Nat
  pa : Nat
  key : Nat
  deriving DecidableEq, Repr

/-- An issued copy entry (R279 to R284): its own number, the number of its command, and the context and home number that
issued it, with its write point in context cycles (R238). `table`, `conv` and `wins` hold what the probe read and the windows
as they stood; rows below `issuedTo` have sent their source requests and rows below `pushedTo` their destination writes;
`arrived` holds blocks read and `written` blocks performed, by row and place; `done` holds performed rows at or beyond LANDED,
`bad` the first error. -/
structure CopyEntry where
  uid : Nat
  cmd : Nat
  seq : Nat
  point : Nat
  ctx : Nat
  home : Nat
  launch : Nat
  shot : Nat
  entry : BitVec 512
  table : List Nat
  conv : BitVec 512
  wins : List Nat
  pins : List Pin
  follow : Option (Word × Word × BitVec 32 × BitVec 256 × BitVec 256)
  issuedTo : Nat
  pushedTo : Nat
  done : List Nat
  arrived : List (Nat × Nat × Flit)
  written : List (Nat × Nat)
  bad : Option Nat
  followCmd : Option Nat
  deriving DecidableEq, Repr

/-- A copy channel (R228, R279, R285). `errAt` is the core cycle in which it entered error (R409); `ended` is the entry that
completed last, whose last rows count until ACTIVE reads 0. -/
structure Channel where
  queue : List CopyEntry
  active : Bool
  idleUntil : Nat
  err : Bool
  errAt : Nat
  shot : Nat
  landed : Nat
  pendingLanded : Option (Nat × Nat)
  code : Nat
  overrun : Nat
  abandoned : List CopyEntry
  ended : Option CopyEntry
  deriving DecidableEq, Repr

/-- A named barrier (R225, R387). `deferred` counts departures that apply when the generation completes (R389). -/
structure Barrier where
  count : Nat
  arrived : Nat
  gen : Nat
  departed : Bool
  live : Bool
  owner : Nat
  deferred : Nat
  deriving DecidableEq, Repr

/-- A bypass latch (R194). -/
structure Latch where
  value : Row
  valid : Bool
  deriving DecidableEq, Repr

/-- A TLB entry (R107): a valid leaf. -/
structure TlbEntry where
  asid : Nat
  va : Nat
  size : Nat
  pa : Nat
  rd : Bool
  wr : Bool
  ex : Bool
  key : Nat
  deriving DecidableEq, Repr

/-- An entry of a sequence table (R378). -/
structure SeqEntry where
  src : Nat
  cls : Nat
  high : BitVec 32
  map : BitVec 64
  res : List (Nat × BitVec 32 × Word)
  lastSeen : Nat
  deriving DecidableEq, Repr

/-- Rows that the Z die writes into a core for a reduction's result or status (R75, R76): those still to be written, the group,
sequence and first bytes of a status for the entries that wait for it (R382), and the delivery that they belong to, if it is
acknowledged. -/
structure ResultRows where
  batch : Option Nat
  buf : Buf
  rows : List (Nat × List Byte)
  status : Option (Nat × Nat × List Byte)
  deriving DecidableEq, Repr

/-- What has arrived at a core: a packet, with the Forip port by which it entered the package, if any (R50), or rows of a
result. -/
inductive RxItem where
  | packet (port : Option Nat) (pkt : Packet)
  | rows (r : ResultRows)
  deriving DecidableEq, Repr

/-- Data, or a fault, that returns to a load-queue entry or a copy row. -/
structure Return where
  ctx : Nat
  id : Nat
  seq : Nat
  part : Nat
  data : List Byte
  fault : Option Nat
  deriving DecidableEq, Repr

/-- A core (R189). `rxWork` holds the rows done, and the flits read, of the accepted packet being performed. `portUsed` and
`landCount` are the bank groups whose engine ports are taken, and the copy rows landed, in cycle `portCycle` (R218); `kept`
holds hardware contexts with the launch that pre-emption frees each for (R163); `copyTurn` and `readTurn` are the channels
that come first for a landing and for a source read (R279). `tagUsed` holds the rows on which a tag operation has taken effect in
this core cycle (R223). `badImem`, `badLmem` and `badRows` are the bundles, literals and
rows whose read is uncorrectable (R209). -/
structure Core where
  imem : Assoc Bundle
  lmem : Assoc (BitVec 32)
  badImem : List Nat
  badLmem : List Nat
  badRows : List Nat
  a : Memory
  w : Memory
  c : Memory
  tags : List Nat
  tagUsed : List Nat
  guard : List Nat
  latches : Vector Latch 8
  barriers : Assoc Barrier
  slates : Assoc (BitVec 16)
  ctxs : Vector Context 4
  saved : List Saved
  kept : List (Nat × Nat)
  cur : Option Nat
  last : Nat
  resumeAt : Nat
  stalled : Bool
  tlb : List TlbEntry
  nextCmd : Nat
  array : List ArrayCmd
  streamEnd : Nat
  macros : List MacroRun
  seqst : Word
  rot : List RotCmd
  rotRqr : Bool
  rotStart : Nat
  rotDone : Nat
  tri : Assoc Tri
  triPending : List (Nat × Nat × Tri)
  portCycle : Nat
  portUsed : List Nat
  landCount : Nat
  copyTurn : Nat
  readTurn : Nat
  rotOwner : Option Nat
  chans : Vector Channel 16
  shots : Assoc (BitVec 512)
  seqTable : List SeqEntry
  txSeq : Vector (BitVec 32 × BitVec 32) 4
  rx : List RxItem
  rxWork : Option (Nat × List Flit)
  returns : List Return
  deriving DecidableEq, Repr

end Sys2Proof.Machine
end

