-- ==== Sys2Proof/Machine/SysTypes.lean ====
section
/-!
DEFINITION. The state outside the cores that cores use directly: memory requests, internal messages, translation and
launches (R19, R61, R86 to R112, R147 to R188).
-/
namespace Sys2Proof.Machine
open Sys2Proof

/-! ### Memory requests (R89, R233) -/

/-- Who waits for a memory request. A part is the 64-byte block of a row, 0 to 3. -/
inductive Requester where
  | load (core ctx id seq part : Nat)
  | store (core ctx seq part : Nat)
  | atomic (core ctx id seq write : Nat)
  | copySrc (core ch uid row part : Nat)
  | copyDst (core ch uid row part : Nat)
  | host (k : Nat)
  | none
  deriving DecidableEq, Repr

/-- What a memory request does within one 64-byte block: read, write, or an atomic on a 64-bit word. -/
inductive MemOp where
  | read (n : Nat)
  | write (data : List Byte)
  | atomic (op : AmoOp) (v c : Word)
  deriving DecidableEq, Repr

/-- A memory request: its unit and unit address under the stamp `ver`, its physical address and key, and whether it has
been forwarded (R94). Units 0 to 11 are near, 12 to 19 far, as ECCCNT numbers them (R99). -/
structure MemReq where
  who : Requester
  op : MemOp
  unit : Nat
  uaddr : Nat
  pa : Nat
  key : Nat
  ver : Nat
  forwarded : Bool
  deriving DecidableEq, Repr

/-- An outbound PCI Express request (R122). -/
structure OutReq where
  who : Requester
  addr : Nat
  size : Nat
  data : Option (List Byte)
  sent : Bool
  sentAt : Nat
  deriving DecidableEq, Repr

/-! ### Translations that miss (R105, R107) -/

/-- The kinds of access of R105. -/
inductive AccessKind where
  | load | store | atomic | image
  deriving DecidableEq, Repr

/-- A translation that no TLB entry serves: the address space, the 4 KiB page and the kind of access (R107). -/
structure Miss where
  asid : Nat
  page : Nat
  kind : AccessKind
  deriving DecidableEq, Repr

/-! ### Internal messages (R19, R61) -/

/-- The answer to a request: the bytes read, or a fault. -/
inductive Answer where
  | ok (bytes : List Byte)
  | err (code : Nat)
  deriving DecidableEq, Repr

/-- What an internal message carries. -/
inductive Payload where
  | packet (p : Packet)
  | deliver (core : Nat) (p : Packet) (port : Option Nat)
  | request (r : MemReq)
  | reply (who : Requester) (res : Answer)
  | outbound (r : OutReq)
  | inval (core ctx lq seq : Nat) (page desc : Word)
  | walk (core : Nat) (miss : Miss)
  | marker (ver : Nat)
  deriving DecidableEq, Repr

/-- An internal message: the stream it belongs to (class, source unit, destination die), its 16-bit number, and the dies
of its path. -/
structure IMsg where
  src : Nat
  dst : Nat
  cls : Nat
  unit : Nat
  num : Nat
  payload : Payload
  deriving DecidableEq, Repr

/-! ### Die-to-die modules (R15 to R25) -/

/-- A flit of a module: its sequence number, the message it carries a part of, and which of the message's flits it is. -/
structure LinkFlit where
  seq : Nat
  msg : IMsg
  part : Nat
  deriving DecidableEq, Repr

/-- One direction of a module: its transmitter with the replay buffer, what is on the wire, and its receiver. `queue` holds
the waiting messages, each with the first of its flits still to be sent, `current` the message whose flits are being sent;
`sent` counts the flits of the replay buffer that are on their way; `held` and `shared` are the permits at the transmitter,
and `rxBad` the receive counts of the newest CRC failures. -/
structure LinkDir where
  queue : List (IMsg × Nat)
  current : Option (IMsg × Nat)
  replay : List LinkFlit
  sent : Nat
  nextSeq : Nat
  wire : List LinkFlit
  expect : Nat
  ack : Option Nat
  nak : Option Nat
  failSeq : Nat
  failCount : Nat
  held : List Nat
  shared : Nat
  badClass : Nat
  served : List Nat
  rxFlits : Nat
  rxBad : List Nat
  deriving DecidableEq, Repr

/-- A module: direction 0 leads toward the Z die, or from a C die to its N die. `spread` says that streams are spread
over it. -/
structure Module where
  d0 : LinkDir
  d1 : LinkDir
  crcErr : Nat
  repaired : Nat
  retrains : Nat
  request : Bool
  half : Bool
  width : Bool
  down : Bool
  retraining : Option Nat
  permits : List Nat
  spread : Bool
  deriving DecidableEq, Repr

/-! ### Translation (R102 to R112) -/

/-- Who holds a TLB (R107): a core, the front end, the command processor or the migration engine. -/
inductive Holder where
  | core (c : Nat) | frontEnd | command | migration
  deriving DecidableEq, Repr

/-- A walk in flight (R107): the address space, the 4 KiB page, its waiters with their kinds of access, and whether an
invalidation overlapped it (R110). -/
structure WalkReq where
  asid : Nat
  page : Nat
  waiters : List (Holder × AccessKind)
  stale : Bool
  deriving DecidableEq, Repr

/-- A cached non-leaf entry of the walker complex (R107). -/
structure WalkCacheEntry where
  asid : Nat
  level : Nat
  va : Nat
  table : Nat
  deriving DecidableEq, Repr

/-- An invalidation (R109): its origin is INVCTL, or a load-queue entry of a context. -/
structure Invalidation where
  asid : Nat
  all : Bool
  page : Nat
  pages : Nat
  origin : Option (Nat × Nat × Nat × Nat)
  deriving DecidableEq, Repr

/-- The invalidation being performed (R110): the reference tick at which the holders received it, the holders that have not
acknowledged, the accesses that were open then (four times the core plus the context, and the issue number) and the copy entries
that pinned a matching page then (core, channel and number). -/
structure InvRun where
  inv : Invalidation
  since : Nat
  holders : List Holder
  accesses : List (Nat × Nat)
  copies : List (Nat × Nat × Nat)
  deriving DecidableEq, Repr

/-! ### Launches (R147 to R188) -/

/-- The states of a launch (R147). -/
inductive LaunchState where
  | waiting | loading | rehearsal | running | draining | retired
  deriving DecidableEq, Repr

/-- How far a point of a coverage launch has come (R180): handed out or skipped; exited, with its core, hardware context,
home number and the issue number below which its stores count; done. -/
inductive PointStage where
  | handed
  | exited (core ctx home seq : Nat)
  | done
  deriving DecidableEq, Repr

/-- A point of a coverage launch: the ordinal of its grid's first point, its role (R176, R177), its stage, whether it was
killed or dropped, its audit error as an f32 code, and whether an update has counted it. -/
structure Point where
  base : Nat
  skipped : Bool
  audit : Bool
  stage : PointStage
  dropped : Bool
  error : Option Nat
  counted : Bool
  deriving DecidableEq, Repr

/-- The coverage state of a launch (R180 to R187). `instant` is the ordinal at which the walker waits for an update, and
`settled` says that the update of the current step's or the launch's end has been made. -/
structure Coverage where
  f : Nat
  accum : Nat
  lasterr : Nat
  ncmp : Nat
  since : Nat
  nupd : Nat
  naudit : Nat
  nskip : Nat
  points : Assoc Point
  desc : List Word
  instant : Option Nat
  settled : Bool
  deriving DecidableEq, Repr

/-- A live launch (R147). `recd` is its record of 64 words. `deps` are the launches that were live dependences at its
acceptance; `urgentAt` the cycle at which it reached effective priority 7. `slots` holds the current and the next state of
each slot; `stepSlots` the slots of the step still to be enumerated, `stepPos` the next point of the first of them, `nextN`
its ordinal, `stepBase` the ordinal of that slot's first point. `padSince` is the cycle since which only the paddock has
kept it waiting (R169). `enumerated` says that the walker has no further point, and
`heldPoints` are enumerated points that wait for their core, by ordinal of the core. -/
structure Launch where
  queue : Nat
  lid : BitVec 32
  asid : Nat
  priv : Bool
  recd : List Word
  doneAddr : Nat
  doneVal : Word
  statAddr : Nat
  state : LaunchState
  accepted : Nat
  urgentAt : Option Nat
  place : List Nat
  order : Nat
  t0 : Nat
  wave : Nat
  action : Nat
  cancelled : Bool
  status : Nat
  fcode : Nat
  fcore : Nat
  fctx : Nat
  faddr : Nat
  detail : Nat
  issued : Nat
  done : Nat
  tdisp : Nat
  tact : Nat
  steps : Nat
  killed : Nat
  admitDup : Nat
  evictEmpty : Nat
  badSlot : Nat
  preempts : Nat
  slots : Assoc (Option Word × Option Word)
  inStep : Bool
  stepSlots : List (Nat × Word)
  stepPos : Nat
  nextN : Nat
  stepBase : Nat
  enumerated : Bool
  heldPoints : List (Nat × Iteration)
  shotCounts : Assoc Nat
  deps : List Nat
  padSince : Option Nat
  cov : Option Coverage
  deriving DecidableEq, Repr

end Sys2Proof.Machine
end

