-- ==== Sys2Proof/Machine/FabricTypes.lean ====
section
/-!
DEFINITION. The state of the scale-out fabric: Forip ports, routing, fan-out, groups and staging rings (R39 to R85).
-/
namespace Sys2Proof.Machine
open Sys2Proof

/-! ### Packets on the Z die (R49 to R55) -/

/-- A packet on the Z die: the Forip port by which it arrived, if any; the fan-out point that made this copy and its place
there, if any; whether it ended with a poison last flit (R50); and whether it still occupies the buffer of its port (R42). -/
structure ZPacket where
  port : Option Nat
  fan : Option (Nat × Nat)
  poison : Bool
  space : Bool
  pkt : Packet
  deriving DecidableEq, Repr

/-- What a fan-out point reports to, beside a sender: the data phase, the status phase or the release of a group's slot
for a sequence, or an agreement fan-out (R76, R79). -/
inductive FanOwner where
  | sender
  | data (group slot x : Nat)
  | status (group slot x : Nat)
  | commit (group : Nat)
  | agree (group : Nat)
  deriving DecidableEq, Repr

/-- A fan-out point with copies that await acknowledgement (R55): its set, the packet as it arrived, where its acknowledgement goes,
and the copies by place (a port, 128 + a core, or 639 for the Z die) with the cycle at which each was sent. -/
structure Fan where
  id : Nat
  set : Nat
  pkt : Packet
  port : Option Nat
  owner : FanOwner
  copies : List (Nat × Nat)
  lost : Bool
  status : Nat
  deriving DecidableEq, Repr

/-! ### Forip ports (R39 to R45) -/

/-- The states of a port (R44). -/
inductive PortState where
  | down | train | ident | up
  deriving DecidableEq, Repr

/-- A packet at a port's transmitter, with its number at the port. A copy is not kept (R52). -/
structure OutPacket where
  serial : Nat
  z : ZPacket
  copy : Bool
  deriving DecidableEq, Repr

/-- A data flit in a replay buffer: its sequence number, KIND, the packet it belongs to, and its 64 bytes (R41). -/
structure TxFlit where
  seq : Nat
  kind : Nat
  serial : Nat
  data : Flit
  deriving DecidableEq, Repr

/-- A Forip port: FPSTAT, the transmitter and the receiver. `out` holds waiting packets, of which `cur` flits of the first
have been sent; `kept` the packets with unacknowledged flits; `unit` the wire unit that left last. `ret` is the RET of the
last link-control flit taken, `identSent` what the port sent in IDENT, `freed` the counts of permits freed here, `served` the
stream served last in each class. `bad` holds the receive counts of the newest CRC failures. -/
structure Port where
  st : PortState
  peerPkg : Nat
  peerPort : Nat
  identSent : Option (Nat × Nat)
  oneLane : Bool
  lane : Nat
  request : Bool
  retraining : Option Nat
  crcErr : Nat
  retrains : Nat
  badClass : Nat
  permits : List Nat
  out : List OutPacket
  cur : Nat
  kept : List OutPacket
  serial : Nat
  replay : List TxFlit
  sent : Nat
  nextSeq : Nat
  held : List Nat
  shared : Nat
  escape : List (List Nat)
  served : List Nat
  ret : List Nat
  unit : Option (Flit × BitVec 32)
  expect : Nat
  nak : Bool
  failSeq : Nat
  failCount : Nat
  received : Nat
  bad : List Nat
  partPkt : Option (Packet × List Flit)
  freed : List Nat
  sinceControl : Nat
  controlAt : Nat
  deriving DecidableEq, Repr

/-! ### Groups (R63 to R83) -/

/-- A half of a group-table entry: its control block and its input map (R65, R66). -/
structure GroupHalf where
  ctl : BitVec 512
  map : Assoc (BitVec 16)
  deriving DecidableEq, Repr

/-- The stages of a slot (R70). -/
inductive SlotStage where
  | free | opened | wait
  deriving DecidableEq, Repr

/-- A slot of a node (R70): its stage, the cycle at which it was opened or closed, what its first input recorded, the
inputs whose bit is set, the inputs' elements (a value and an error word each), the accumulator of arrival order, the ranks
present, the inputs whose partial awaits its presence packet, and the local cores that contributed. -/
structure RSlot where
  stage : SlotStage
  x : Nat
  last : Nat
  since : Nat
  barrier : Bool
  op : Nat
  ifmt : Nat
  rfmt : Nat
  order : Bool
  e : Nat
  gver : Nat
  mism : Bool
  incomplete : Bool
  bits : List Nat
  data : Assoc (List (Nat × Nat))
  acc : Option (List (Nat × Nat))
  ranks : List Nat
  awaiting : List Nat
  cores : List Nat
  deriving DecidableEq, Repr

/-- A root's delivery of a closed slot (R75, R76, R82): its summary, and whether the data phase has been acknowledged or
the status phase sent. -/
structure Delivery where
  slot : Nat
  x : Nat
  gver : Nat
  ranks : List Nat
  nrank : Nat
  mism : Bool
  unreach : Bool
  acked : Bool
  sent : Bool
  deriving DecidableEq, Repr

/-- An agreement round at a node (R79): the proposed version, when it began, the children whose READY is in, the newest
sequence reported, whether READY or COMMIT has been sent, whether this node is the root that proposed it, and the fan-out sets
through which the root sent PREPARE. -/
structure Round where
  ver : Nat
  since : Nat
  ready : List Nat
  newest : Option Nat
  answered : Bool
  committed : Bool
  proposer : Bool
  sets : List Nat
  deriving DecidableEq, Repr

/-- A node's working state: its slots, the newest sequence opened, the root's deliveries, the agreement round, whether it has
stopped opening sequences, the halves under which older slots finish, each with the boundary that ended it, oldest first, whether
it is leaving, and the version and boundary of a COMMIT that it could not act on (R79). -/
structure Node where
  slots : Assoc RSlot
  newest : Option Nat
  deliveries : List Delivery
  round : Option Round
  stopped : Bool
  old : List (Nat × GroupHalf)
  leaving : Bool
  refused : Option (Nat × Nat)
  deriving DecidableEq, Repr

/-- A result or status handed to the members of a set (R75, R76): its packet, the status of its acknowledgement, and the cores
whose rows are not all written. -/
structure ResultBatch where
  id : Nat
  z : ZPacket
  status : Nat
  cores : List Nat
  deriving DecidableEq, Repr

/-- The fabric state of the Z die. `routes` is keyed by 4 × package + alternative; `handed` holds packets handed to a
Z-die resource; `rings` and `ringSlots` are RINGCFG and the full slots, by 256 × ring + slot; `results` holds
the results whose rows are being written, and `nextResult` the number of the next one. -/
structure Fabric where
  ports : Assoc Port
  routes : Assoc (BitVec 256)
  staging : Assoc (BitVec 192)
  fanSets : Assoc (BitVec 512)
  enable : Bool
  fans : List Fan
  nextFan : Nat
  handed : List ZPacket
  active : Assoc GroupHalf
  staged : Assoc GroupHalf
  nodes : Assoc Node
  rings : Assoc Word
  ringSlots : Assoc (Nat × List Flit)
  seqTable : List SeqEntry
  results : List ResultBatch
  nextResult : Nat
  deriving DecidableEq, Repr

end Sys2Proof.Machine
end

