-- ==== Sys2Proof/Machine/HostTypes.lean ====
section
/-!
DEFINITION. The state of the H die: power and telemetry, wake, the mailbox, the management block, the PCI Express port, the
queues, the firmware and the scheduler (R27 to R38, R116 to R146, R169, R170).
-/
namespace Sys2Proof.Machine
open Sys2Proof

/-! ### Power, telemetry, wake (R27 to R32) -/

/-- The power controllers and the telemetry counters (R29 to R31). `below` counts power-controller ticks below 95% of the
limit; `droopEnd` is the reference tick at which the droop hold expires; `ticksAt` counts reference ticks at each K. The
counters of `seen` are as sampled last: energies, temperatures, ticks at each K, cycles and droop events. `cycleBase` counts the
cycles elapsed before the last thermal trip, which has removed power while `off` (R29). -/
structure Power where
  limit : Nat
  kmin : Nat
  kPower : Nat
  kThermal : Nat
  kDroop : Nat
  below : Nat
  tickAt : Nat
  droopEnd : Nat
  droops : Nat
  ticksAt : List Nat
  sampleAt : Nat
  energy : List Nat
  temps : List Nat
  peaks : List Nat
  seenTicks : List Nat
  seenCycles : Nat
  seenDroops : Nat
  cycleBase : Nat
  off : Bool
  deriving DecidableEq, Repr

/-- The wake sequence (R32): the step, from 1 to 6, or 7 when it has ended; the C die of step 5; the reference tick at
which the step began; and the dies that are ready. -/
structure Wakeup where
  step : Nat
  die : Nat
  since : Nat
  ready : List Nat
  deriving DecidableEq, Repr

/-- The mailbox (R35): its buffers, MBOXCTL, and whether the request being served came over SMBus. BUSY reads as GO.
DESIGN CHOICE (log 62): both requesters share this one copy. -/
structure Mailbox where
  req : BitVec 2048
  rsp : BitVec 2048
  len : Nat
  status : Nat
  go : Bool
  smbus : Bool
  deriving DecidableEq, Repr

/-! ### Management and PCI Express (R116 to R126) -/

/-- An MSI-X vector: the two words of its table entry, whose bit 32 of the second is the mask, and its pending bit. -/
structure Msix where
  addr : Word
  data : Word
  pending : Bool
  deriving DecidableEq, Repr

/-- The management block and the PCI Express functions: MGMTERR, MGMTCFG, MSI-X with the functions enabled and the messages
sent per vector, APERCTL, the size of BAR4 in GiB, the functions in reset, and the value and completion status that the
last read returned. -/
structure Mgmt where
  cfgErr : Bool
  clamp : Bool
  smbWrite : Bool
  msix : Assoc Msix
  msixOn : List Nat
  msgs : Assoc Nat
  aper : Assoc (BitVec 128)
  bar4 : Nat
  inReset : List Nat
  readData : Word
  hostData : List Byte
  unsupported : Bool
  poisonedRead : Bool
  deriving DecidableEq, Repr

/-! ### Queues (R127 to R139) -/

/-- STATE of a queue page (R128). -/
inductive QState where
  | disabled | running | waiting | error
  deriving DecidableEq, Repr

/-- A queue: QCTL and QBASE, its page, and its thread. `units` holds fetched units by index; `started` is the reference tick
at which the packet at CPTR began to execute and `polled` that of the WAIT's last read; `word0` is word 0 of a failing packet
as read; `stop` and `fail` are an ENABLE := 0 or a doorbell error that waits for the executing packet. -/
structure Queue where
  enable : Bool
  qsize : Nat
  func : Nat
  asid : Nat
  vec : Nat
  base : Nat
  wptr : Nat
  rptr : Nat
  cptr : Nat
  nolid : Nat
  code : Nat
  st : QState
  units : List (Nat × Flit)
  started : Option Nat
  polled : Nat
  word0 : Option Nat
  stop : Bool
  fail : Bool
  deriving DecidableEq, Repr

/-! ### Firmware (R141 to R146) -/

/-- The firmware registers and what has been written to the flash, newest first: the offset and size of each erased run, and
the bytes programmed at its start. `work` is the operation being performed, while FWCTL.GO = 1, and how far it has come. -/
structure Firmware where
  op : Nat
  src : Nat
  err : Bool
  fallback : Bool
  active : Nat
  run : Nat
  flash : List (Nat × Nat × List Byte)
  work : Option (Nat × Nat)
  deriving DecidableEq, Repr

/-! ### Scheduler (R154, R169, R170) -/

/-- SCHEDCFG, the paddock's size, the cycle of its last evaluation and the number of dispatches so far. -/
structure Sched where
  padLo : Nat
  padHi : Nat
  padMax : Nat
  padMin : Nat
  padN : Nat
  evalAt : Nat
  dispatches : Nat
  deriving DecidableEq, Repr

end Sys2Proof.Machine
end

