-- ==== Sys2Proof/Machine/State.lean ====
section
/-!
DEFINITION. The state of a KW-320 package as plain data, and the state right after reset.
-/
namespace Sys2Proof.Machine
open Sys2Proof

/-- Why the machine stops: it never does. No step raises a fault, so there is none, which is safe. -/
inductive Fault where
  deriving DecidableEq, Repr

/-- Why a step has no meaning. -/
inductive Refusal where
  /-- The instruction is not modelled yet. Raised by `exec` alone. Safe. -/
  | notModelled (mnemonic : String)
  deriving DecidableEq, Repr

/-! ### The bundle being issued -/

/-- The bar forms that act when their bundle commits (R388). -/
inductive BarForm where
  | init (count : Nat)
  | arr | sync | dep | fin
  deriving DecidableEq, Repr

/-- A write that takes effect when its bundle commits (R330, R335, R336, R388, R390). -/
inductive SysWrite where
  | status (num : Nat) (x : Word)
  | scope (e : BitVec 5) (image : BitVec 512)
  | window (w : BitVec 4) (x : BitVec 128)
  | guard (set : Bool) (buf : Buf) (row rows : Nat)
  | bar (form : BarForm) (b : Nat)
  deriving DecidableEq, Repr

/-- What the slots of the bundle being issued have met so far (R197, R392): the context, the bundle's index, the context cycle
in which sources are read, kind-K faults by slot, the first slot that read an invalid latch, an R211 restart, the first
blocking condition, missed translations, raised flags, deferred writes, how the bundle ends, the blocks of device memory that
a probe has read, gfrec as it stood before the bundle (R232), the channels as they stood before its slot 5 changed them, which
it does at commit (R405, R406, R408), and the operand rows of the macro that it issues (R397). -/
structure IssueRec where
  core : Nat
  ctx : Nat
  pc : Nat
  cc : Nat
  issued : Nat
  faults : List (Nat × Nat)
  latch : Option Nat
  handler : Bool
  block : Option Nat
  blockOn : Option Wake
  misses : List Miss
  flags : List (Nat × Nat)
  mark : Bool
  after : Bool
  writes : List SysWrite
  transfer : Option Nat
  exits : Bool
  yields : Bool
  urets : Bool
  events : List (Nat × Nat)
  reads : List Nat
  gfrec : Word
  chans : Option (Vector Channel 16)
  macroRows : List (Buf × Nat)
  deriving DecidableEq, Repr

/-! ### Memory, translation, management -/

/-- A key slot (R101). -/
structure KeySlot where
  dataKey : BitVec 256
  tweakKey : BitVec 256
  loaded : Bool
  enabled : Bool
  deriving DecidableEq, Repr

/-- Near and far memory, the region table, migration, keys and translation (R86 to R112). `markers` holds drain markers and
version announcements that have reached a die; `farUp` the far ports that are up, `farCap` the capacities behind them. `upsets` are
the errors that blocks hold until a read finds them (R98), which no step causes; `migRegion` is the entry being migrated and
`migSel` MIGCTL.REGION. -/
structure MemSys where
  mem : Memory
  poison : List Nat
  upsets : Assoc Finding
  reqs : List MemReq
  regions : Assoc (BitVec 256)
  errEnt : Nat
  err : Bool
  draining : Bool
  old : Nat
  cur : Nat
  markers : List (Nat × Nat)
  dieVer : Assoc Nat
  migErr : Bool
  migActive : Bool
  migStopped : Bool
  migRegion : Nat
  migSel : Nat
  migResume : Bool
  cursor : Nat
  late : Nat
  early : Nat
  ecc : Assoc (Nat × Nat)
  scrub : Nat
  keySrc : Nat
  keySlotSel : Nat
  keyErr : Bool
  keyOp : Nat
  keys : Assoc KeySlot
  asidBase : Nat
  farUp : List Nat
  farCap : Assoc Nat
  walks : List WalkReq
  walkCache : List WalkCacheEntry
  walkFaults : List (Nat × Nat × Nat)
  tlbs : List (Holder × List TlbEntry)
  invAddr : Nat
  invCtl : Word
  invDone : Bool
  invQueue : List Invalidation
  invWaiting : List Invalidation
  invNow : Option InvRun
  deriving DecidableEq, Repr

/-- The package. -/
structure State where
  /-- Core-domain cycles (R31). -/
  cycle : Nat
  /-- Reference ticks of 10 ns, and the part of the next tick that has passed (R5, R28). -/
  ticks : Nat
  tickAcc : Nat
  /-- The core that issues next in this cycle; the model's own field. -/
  turn : Nat
  /-- The steps that the environment or the schedule brings next; the model's own field. -/
  agenda : List Instr
  /-- The bundle being issued; the model's own field. -/
  issue : IssueRec
  /-- The next free value; the model's own field. -/
  free : Nat
  cores : Assoc Core
  coresAvail : BitVec 320
  launches : Assoc Launch
  /-- The number of the next launch accepted; the model's own field. -/
  nextLaunch : Nat
  pkgId : Nat
  mcwait : Nat
  /-- Bus Master Enable, and the negotiated Max Payload Size and Max Read Request Size in bytes (R122). -/
  busMaster : Bool
  writeSize : Nat
  readSize : Nat
  mem : MemSys
  unreachable : List (Nat × Nat)
  /-- Die-to-die modules by their D2DSTAT index (R21), and the module of each stream (R19). -/
  mods : Assoc Module
  streamMap : Assoc Nat
  epochAt : Nat
  /-- Internal messages that have reached their destination die (R19). -/
  transit : List IMsg
  streamNum : Assoc Nat
  streamSeen : Assoc Nat
  outReqs : List OutReq
  /-- Packets on the Z die that have not been routed (R49). -/
  zin : List ZPacket
  drops : Assoc Nat
  eventLog : List (Nat × Nat × Nat × Nat)
  fab : Fabric
  power : Power
  wake : Wakeup
  mbox : Mailbox
  mgmt : Mgmt
  queues : Assoc Queue
  fw : Firmware
  sched : Sched
  deriving DecidableEq, Repr

/-- What a step comes to. -/
abbrev Res := Host.Outcome State Fault Refusal

/-! ### Reset -/

/-- The E2M1 table as a codebook register (R254). -/
def e2m1 : BitVec 256 :=
  0xC0C0C080C040C000BFC0BF80BF00800040C04080404040003FC03F803F000000#256

/-- No result is held at a restart point before the first iteration. -/
def Restart.reset : Restart := ⟨0, none, 0, 0, List.replicate 8 none⟩

/-- A context that belongs to no launch, its registers at the reset values of R191. -/
def Context.reset : Context where
  mode := .free
  launch := none
  home := 0
  s := Vector.replicate 64 0
  v := Vector.replicate 64 0
  q := Vector.replicate 8 (BitVec.allOnes 64)
  sc := Vector.replicate 16 127
  xp := Vector.replicate 8 0
  kb := Vector.replicate 8 e2m1
  w := Vector.replicate 16 (BitVec.ofNat 128 (12 * 2 ^ 4))
  scopes := Vector.replicate 32 0
  h := Vector.replicate 8 0
  shp := 6
  pc := 0
  lpc := 0
  ttcount := 0
  priv := false
  inh := false
  patient := false
  guardChk := false
  pendChk := false
  block := 0
  fpflags := 0
  fpfirst := 0
  uctl := 2
  uip := 0
  ucause := 0
  tagHeld := false
  fresh := ⟨0, false, 0⟩
  g := 0
  cc := 0
  ccBase := 0
  inflight := []
  reel := []
  localWrites := []
  holds := Vector.replicate 8 none
  chain := []
  redirect := none
  restart := Restart.reset
  atRestart := false
  latched := []
  restartKind := 0
  parked := []
  parkedChain := []
  parkedRedirect := none
  due := []
  regionCmds := []
  lq := []
  sq := []
  writes := []
  remote := []
  fences := []
  seq := 0
  gfrec := 0
  part := 0
  ar := 0
  syncOn := []
  pendingFault := none
  rotFlags := []
  wakeOn := none
  iteration := none
  nextIteration := none
  seqBase := 0
  freeAt := 0

/-- A copy channel with no entry (R228, R285). -/
def Channel.reset : Channel := ⟨[], false, 0, false, 0, 0, 0, none, 0, 0, [], none⟩

/-- One direction of a module at reset: 32 permits are reserved for each class and 832 are shared (R23). -/
def LinkDir.reset : LinkDir :=
  ⟨[], none, [], 0, 0, [], 0, none, none, 0, 0, [32, 32, 32, 32, 32, 32], 832, 0, [0, 0, 0, 0, 0, 0], 0, []⟩

/-- A module at reset (R21, R25). -/
def Module.reset : Module :=
  ⟨LinkDir.reset, LinkDir.reset, 0, 0, 0, false, false, false, false, none, [32, 32, 32, 32, 32, 32], true⟩

/-- An idle core: buffers zero, tags empty, guard bits clear, no barrier live (R217, R223, R225, R231). -/
def Core.reset : Core where
  imem := []
  lmem := []
  badImem := []
  badLmem := []
  badRows := []
  a := []
  w := []
  c := []
  tags := []
  tagUsed := []
  guard := []
  latches := Vector.replicate 8 ⟨0, false⟩
  barriers := []
  slates := []
  ctxs := Vector.replicate 4 Context.reset
  saved := []
  kept := []
  cur := none
  last := 0
  resumeAt := 0
  stalled := false
  tlb := []
  nextCmd := 0
  array := []
  streamEnd := 0
  macros := []
  seqst := 0
  rot := []
  rotRqr := false
  rotStart := 0
  rotDone := 0
  tri := []
  triPending := []
  portCycle := 0
  portUsed := []
  landCount := 0
  copyTurn := 0
  readTurn := 0
  rotOwner := none
  chans := Vector.replicate 16 Channel.reset
  shots := []
  seqTable := []
  txSeq := Vector.replicate 4 (0, 0)
  rx := []
  rxWork := none
  returns := []

/-- No bundle is being issued. -/
def IssueRec.reset : IssueRec :=
  ⟨0, 0, 0, 0, 0, [], none, false, none, none, [], [], false, false, [], none, false, false, false, [], [], 0, none, []⟩

/-- Memory, translation and management registers at their reset values (R88 to R109). -/
def MemSys.reset : MemSys where
  mem := []
  poison := []
  upsets := []
  reqs := []
  regions := []
  errEnt := 0
  err := false
  draining := false
  old := 0
  cur := 0
  markers := []
  dieVer := []
  migErr := false
  migActive := false
  migStopped := false
  migRegion := 0
  migSel := 0
  migResume := false
  cursor := 0
  late := 0
  early := 0
  ecc := []
  scrub := 24
  keySrc := 0
  keySlotSel := 0
  keyErr := false
  keyOp := 0
  keys := []
  asidBase := 0
  farUp := []
  farCap := []
  walks := []
  walkCache := []
  walkFaults := []
  tlbs := []
  invAddr := 0
  invCtl := 0
  invDone := false
  invQueue := []
  invWaiting := []
  invNow := none

/-- Forip and the fabric tables at reset (R45, R55 to R57, R65, R84). -/
def Fabric.reset : Fabric := ⟨[], [], [], [], false, [], 0, [], [], [], [], [], [], [], [], 0⟩

/-- The power controllers at reset (R27 to R31). -/
def Power.reset : Power where
  limit := 3200
  kmin := 0
  kPower := 0
  kThermal := 0
  kDroop := 0
  below := 0
  tickAt := 0
  droopEnd := 0
  droops := 0
  ticksAt := List.replicate 17 0
  sampleAt := 0
  energy := List.replicate 4 0
  temps := List.replicate 16 0
  peaks := List.replicate 16 0
  seenTicks := List.replicate 17 0
  seenCycles := 0
  seenDroops := 0
  cycleBase := 0
  off := false

/-- The management block at reset (R119 to R126): no function has MSI-X enabled. -/
def Mgmt.reset : Mgmt := ⟨false, false, true, [], [], [], [], 64, [], 0, [], false, false⟩

/-- A queue at reset (R127, R128). -/
def Queue.reset : Queue := ⟨false, 4, 0, 0, 4, 0, 0, 0, 0, 0, 0, .disabled, [], none, 0, none, false, false⟩

/-- The package right after power-on reset: the wake sequence has begun (R32). -/
def State.reset : State where
  cycle := 0
  ticks := 0
  tickAcc := 0
  turn := 0
  agenda := []
  issue := IssueRec.reset
  free := 0
  cores := []
  coresAvail := BitVec.allOnes 320
  launches := []
  nextLaunch := 0
  pkgId := 0
  mcwait := 20
  busMaster := false
  writeSize := 128
  readSize := 512
  mem := MemSys.reset
  unreachable := []
  mods := []
  streamMap := []
  epochAt := 0
  transit := []
  streamNum := []
  streamSeen := []
  outReqs := []
  zin := []
  drops := []
  eventLog := []
  fab := Fabric.reset
  power := Power.reset
  wake := ⟨1, 0, 0, []⟩
  mbox := ⟨0, 0, 0, 0, false, false⟩
  mgmt := Mgmt.reset
  queues := []
  fw := ⟨0, 0, false, false, 0, 0, [], none⟩
  sched := ⟨0, 4, 8, 0, 0, 0, 0⟩

end Sys2Proof.Machine
end

