-- ==== Sys2Proof/Machine/Access.lean ====
section
/-!
DEFINITION. Reading and replacing the parts of the state: cores, contexts, registers, local rows, launches.
-/
namespace Sys2Proof.Machine
open Sys2Proof

/-- The core-domain cycle counter (R31), which a thermal trip leaves as it is (R29). -/
def State.elapsed (s : State) : Nat := (s.power.cycleBase + s.cycle) % 2 ^ 64

/-! ### Cores and contexts -/

/-- Core c. -/
def State.core (s : State) (c : Nat) : Core := Assoc.get s.cores c Core.reset
/-- The state with core c replaced. -/
def State.setCore (s : State) (c : Nat) (k : Core) : State := { s with cores := Assoc.put s.cores c k }
/-- The state with core c changed. -/
def State.modCore (s : State) (c : Nat) (f : Core → Core) : State := s.setCore c (f (s.core c))

/-- Context x of a core. -/
def Core.ctx (k : Core) (x : Nat) : Context := k.ctxs[x % 4]'(Nat.mod_lt x (by decide))
/-- The core with context x replaced. -/
def Core.setCtx (k : Core) (x : Nat) (t : Context) : Core :=
  { k with ctxs := k.ctxs.set (x % 4) t (Nat.mod_lt x (by decide)) }
/-- Context x of core c. -/
def State.ctxOf (s : State) (c x : Nat) : Context := (s.core c).ctx x
/-- The state with context x of core c changed. -/
def State.modCtx (s : State) (c x : Nat) (f : Context → Context) : State :=
  s.modCore c (fun k => k.setCtx x (f (k.ctx x)))

/-- The core of the bundle being issued. -/
def State.ck (s : State) : Core := s.core s.issue.core
/-- The context of the bundle being issued. -/
def State.cx (s : State) : Context := s.ctxOf s.issue.core s.issue.ctx
/-- The state with the core of the bundle being issued changed. -/
def State.modCk (s : State) (f : Core → Core) : State := s.modCore s.issue.core f
/-- The state with the context of the bundle being issued changed. -/
def State.modCx (s : State) (f : Context → Context) : State := s.modCtx s.issue.core s.issue.ctx f

/-- The context of a launch with a home number, wherever it runs or is saved, changed (R163). -/
def Core.modHome (k : Core) (launch home : Nat) (f : Context → Context) : Core :=
  let g (t : Context) : Context := if t.launch = some launch ∧ t.home = home ∧ t.mode ≠ .killed then f t else t
  { k with ctxs := k.ctxs.map g, saved := k.saved.map (fun v => { v with ctx := g v.ctx }) }

/-- Channel c of a core. -/
def Core.chan (k : Core) (c : Nat) : Channel := k.chans[c % 16]'(Nat.mod_lt c (by decide))
/-- The core with channel c changed. -/
def Core.modChan (k : Core) (c : Nat) (f : Channel → Channel) : Core :=
  { k with chans := k.chans.set (c % 16) (f (k.chan c)) (Nat.mod_lt c (by decide)) }

/-- The latch of slot k. -/
def Core.latch (k : Core) (n : Nat) : Latch := k.latches[n % 8]'(Nat.mod_lt n (by decide))
/-- The core with a landed result in latch n. -/
def Core.setLatch (k : Core) (n : Nat) (x : Row) : Core :=
  { k with latches := k.latches.set (n % 8) ⟨x, true⟩ (Nat.mod_lt n (by decide)) }
/-- The core with every latch invalid (R194). -/
def Core.dropLatches (k : Core) : Core := { k with latches := k.latches.map (fun l => { l with valid := false }) }

/-! ### Registers -/

/-- Element n of a vector register file whose size is a power of two. -/
def vget {α : Type} {n : Nat} [NeZero n] (v : Vector α n) (i : Nat) : α := v[i % n]'(Nat.mod_lt i (Nat.pos_of_neZero n))
/-- The file with element i replaced. -/
def vset {α : Type} {n : Nat} [NeZero n] (v : Vector α n) (i : Nat) (x : α) : Vector α n :=
  v.set (i % n) x (Nat.mod_lt i (Nat.pos_of_neZero n))

/-- s_n as an operand names it: while INH = 1, s0 to s7 name h0 to h7 (R210). -/
def Context.readS (t : Context) (n : BitVec 6) : Word :=
  if t.inh && n.toNat < 8 then vget t.h n.toNat else vget t.s n.toNat

/-- Where a result for s_n lands, as its name stands at issue (R210, R328). -/
def Context.sDest (t : Context) (n : BitVec 6) : Dest :=
  if t.inh && n.toNat < 8 then .h (BitVec.ofNat 3 n.toNat) else .s n

/-- The bytes of a scale load's value, written to sc_first onward (R364). -/
def setScales (sc : Vector Byte 16) (first : Nat) (x : Nat) : Vector Byte 16 :=
  (List.range (16 - first)).foldl (fun v j => vset v (first + j) (BitVec.ofNat 8 (x / 2 ^ (8 * j)))) sc

/-- The context with a value written to a destination. -/
def Context.write (t : Context) (d : Dest) (x : Row) : Context :=
  match d with
  | .s n => { t with s := vset t.s n.toNat (x.setWidth 64) }
  | .h n => { t with h := vset t.h n.toNat (x.setWidth 64) }
  | .v n => { t with v := vset t.v n.toNat x }
  | .q n => { t with q := vset t.q n.toNat (x.setWidth 64) }
  | .sc first => { t with sc := setScales t.sc first.toNat x.toNat }
  | .shp => { t with shp := x.setWidth 3 }
  | .none => t

/-! ### Local memory -/

/-- A buffer of a core. -/
def Core.buf (k : Core) : Buf → Memory
  | .a => k.a | .w => k.w | .c => k.c

/-- The core with a buffer replaced. -/
def Core.setBuf (k : Core) : Buf → Memory → Core
  | .a, m => { k with a := m }
  | .w, m => { k with w := m }
  | .c, m => { k with c := m }

/-- The rows of a buffer (R217). -/
def bufRows : Buf → Nat
  | .a => 8192 | .w => 16384 | .c => 4096

/-- The rows of one bank group (R217). -/
def groupRows : Buf → Nat
  | .a | .w => 2048
  | .c => 1024

/-- The code of a buffer in addresses and records. -/
def bufCode : Buf → Nat
  | .a => 0 | .w => 1 | .c => 2

/-- The buffer of a code from 0 to 2. -/
def bufOfCode : Nat → Buf
  | 0 => .a | 1 => .w | _ => .c

/-- A row number unique over the three buffers. -/
def rowKey (b : Buf) (r : Nat) : Nat := bufCode b * 2 ^ 14 + r

/-- Row r of a buffer. -/
def Core.row (k : Core) (b : Buf) (r : Nat) : Row := BitVec.ofNat 2048 (ofBytes (Memory.read (k.buf b) (256 * r) 256))
/-- The core with row r of a buffer replaced. -/
def Core.setRow (k : Core) (b : Buf) (r : Nat) (x : Row) : Core :=
  k.setBuf b (Memory.write (k.buf b) (256 * r) (bytesOf 256 x.toNat))

/-- A sorted set of numbers with n added. -/
def setInsert : List Nat → Nat → List Nat
  | [], n => [n]
  | m :: t, n => if n < m then n :: m :: t else if n = m then m :: t else m :: setInsert t n
/-- A sorted set of numbers without n. -/
def setErase (l : List Nat) (n : Nat) : List Nat := l.filter (· != n)

/-! ### Launches -/

/-- The launch of a key, if live. -/
def State.launch? (s : State) (k : Option Nat) : Option Launch := k.bind (Assoc.find s.launches)
/-- The state with a launch changed. -/
def State.modLaunch (s : State) (k : Nat) (f : Launch → Launch) : State :=
  match Assoc.find s.launches k with
  | some l => { s with launches := Assoc.put s.launches k (f l) }
  | none => s

/-- Word k of a record of 64-bit words. -/
def word (l : List Word) (k : Nat) : Nat := (l.getD k 0).toNat
/-- The field hi:lo of word k of a launch record (R149). -/
def Launch.f (l : Launch) (k hi lo : Nat) : Nat := field (word l.recd k) hi lo

/-- IMGBASE. -/
def Launch.imgBase (l : Launch) : Nat := l.f 2 29 16
/-- IMGLEN. -/
def Launch.imgLen (l : Launch) : Nat := l.f 2 14 0
/-- LITBASE. -/
def Launch.litBase (l : Launch) : Nat := l.f 4 29 16
/-- LITLEN. -/
def Launch.litLen (l : Launch) : Nat := l.f 4 14 0
/-- SHOTBASE. -/
def Launch.shotBase (l : Launch) : Nat := l.f 4 41 32
/-- CHMASK. -/
def Launch.chmask (l : Launch) : Nat := l.f 7 31 16
/-- SAVE. -/
def Launch.save (l : Launch) : Nat := word l.recd 8
/-- REPRO. -/
def Launch.repro (l : Launch) : Bool := l.f 0 13 13 == 1
/-- STANDING. -/
def Launch.standing (l : Launch) : Bool := l.f 0 11 11 == 1
/-- FAULTPOL. -/
def Launch.faultPol (l : Launch) : Nat := l.f 0 15 15
/-- CTXPER. -/
def Launch.ctxPer (l : Launch) : Nat := l.f 0 22 20
/-- PRIO. -/
def Launch.prio (l : Launch) : Nat := l.f 0 10 8
/-- NDIM. -/
def Launch.ndim (l : Launch) : Nat := l.f 0 30 28
/-- The ordinal of a core in the placement (R156). -/
def Launch.ordinal (l : Launch) (c : Nat) : Nat := (l.place.takeWhile (· != c)).length
/-- The shot-list entries of a core (R156). -/
def Launch.shotCount (l : Launch) (c : Nat) : Nat := Assoc.get l.shotCounts c 0

/-- The launch of the context of the bundle being issued. -/
def State.cl (s : State) : Option Launch := s.launch? s.cx.launch

/-- A bundle index inside the launch's image range (R309). -/
def Launch.inImage (l : Launch) (pc : Nat) : Bool := l.imgBase ≤ pc && pc < l.imgBase + l.imgLen
/-- A literal index inside the launch's literal range. -/
def Launch.inLiterals (l : Launch) (i : Nat) : Bool := l.litBase ≤ i && i < l.litBase + l.litLen

/-! ### The event log -/

/-- One entry of the event log, which keeps the newest 1,024 (R36). -/
def State.logEvent (s : State) (die code arg : Nat) : State :=
  let l := s.eventLog ++ [(s.ticks, die, code, arg)]
  { s with eventLog := l.drop (l.length - 1024) }

/-- The C die of a core (R14). -/
def coreDie (c : Nat) : Nat := c / 40

end Sys2Proof.Machine
end

