-- ==== Sys2Proof/Machine/Translate.lean ====
section
/-!
DEFINITION. The region table, page tables, TLBs and windows (R86 to R114).
-/
namespace Sys2Proof.Machine
open Sys2Proof

/-! ### Reachability (R20, R96, R97) -/

/-- The path between two neighbouring dies is up. -/
def State.pathUp (s : State) (a b : Nat) : Bool := !s.unreachable.contains (min a b, max a b)

/-- Die b can be reached from die a: directly between a C die and its own N die, otherwise through the Z die (R15). -/
def State.reach (s : State) (a b : Nat) : Bool :=
  if a = b then true
  else if (a < 8 && b == 8 + a / 2) || (b < 8 && a == 8 + b / 2) then s.pathUp a b
  else (a == 14 || s.pathUp a 14) && (b == 14 || s.pathUp b 14)

/-- The die of a memory unit: stacks 0 to 11 on the N dies, far ports 12 to 19 on the F dies (R87). -/
def unitDie (u : Nat) : Nat := if u < 12 then 8 + u / 3 else 12 + (u - 12) / 4

/-- A far unit's port is up; every near unit counts as up (R97). -/
def State.unitUp (s : State) (u : Nat) : Bool := u < 12 || s.mem.farUp.contains (u - 12)

/-- The key of a byte of a unit in device memory. -/
def memKey (unit uaddr : Nat) : Nat := unit * 2 ^ 44 + uaddr

/-! ### The region table (R88, R89) -/

/-- Entry e of bank v. -/
def State.region (s : State) (v e : Nat) : Nat := (Assoc.get s.mem.regions (16 * (v % 4) + e) 0).toNat

/-- BASE of a region entry. -/
def regBase (r : Nat) : Nat := field r 115 64
/-- LIMIT of a region entry. -/
def regLimit (r : Nat) : Nat := field r 180 128
/-- The granule of a region entry. -/
def regGranule (r : Nat) : Nat :=
  if field r 5 4 = 0 then 2 ^ 12 else if field r 5 4 = 1 then 2 ^ 16 else 2 ^ 21

/-- The units of a region entry, in ascending order, numbered from 0 within its tier. -/
def regUnits (r : Nat) : List Nat := setBits 12 (field r 19 8)

/-- Where an offset of a region lies (R89). -/
def regPlace (r off : Nat) : Target :=
  if field r 3 1 = 3 then .outbound (field r 255 192 + off)
  else
    let gs := regGranule r
    let l := regUnits r
    let gi := off / gs
    .memory (l.getD (gi % l.length) 0 + if field r 3 1 = 2 then 12 else 0)
      (field r 255 192 + gi / l.length * gs + off % gs)

/-- The entry of bank v that holds a physical address. -/
def State.regionOf (s : State) (v pa : Nat) : Option (Nat × Nat) :=
  ((List.range 16).map (fun e => (e, s.region v e))).find?
    (fun p => p.2 % 2 == 1 && regBase p.2 ≤ pa && pa < regLimit p.2)

/-- R89: the target of a physical address under version v; `none` is fault 0x17. -/
def State.resolve (s : State) (v pa : Nat) : Option Target :=
  match s.regionOf v pa with
  | some (_, r) =>
    if field r 3 1 = 0 || 3 < field r 3 1 then none else some (regPlace r (pa - regBase r))
  | none => none

/-- Where a block is served while its region migrates (R94): the new place below CURSOR, the old place otherwise. -/
def State.servedAt (s : State) (v pa : Nat) : Option Target :=
  match s.mem.migActive, s.regionOf s.mem.old pa with
  | true, some (e, r) =>
    if e = s.mem.migRegion then
      if (pa - regBase r) / 4096 < s.mem.cursor then s.resolve s.mem.cur pa else s.resolve s.mem.old pa
    else s.resolve v pa
  | _, _ => s.resolve v pa

/-- The region version that a die stamps (R92). -/
def State.dieVersion (s : State) (die : Nat) : Nat := Assoc.get s.mem.dieVer die s.mem.cur

/-- The bytes of device memory as stored. -/
def State.rawRead (s : State) (unit uaddr n : Nat) : List Byte := Memory.read s.mem.mem (memKey unit uaddr) n
/-- Device memory with stored bytes replaced. -/
def State.rawWrite (s : State) (unit uaddr : Nat) (bs : List Byte) : State :=
  { s with mem := { s.mem with mem := Memory.write s.mem.mem (memKey unit uaddr) bs } }
/-- The block of a unit address is poisoned (R98). -/
def State.poisoned (s : State) (unit uaddr : Nat) : Bool := s.mem.poison.contains (memKey unit uaddr / 64)

/-! ### The check of a block (R98, R99) -/

/-- The error that the block of a unit address holds. -/
def State.upset (s : State) (unit uaddr : Nat) : Finding := Assoc.get s.mem.upsets (memKey unit uaddr / 64) .clean
/-- A read of the block cannot return its data: it is poisoned, or will be found uncorrectable. -/
def State.lost (s : State) (unit uaddr : Nat) : Bool := s.poisoned unit uaddr || s.upset unit uaddr == .uncorrectable

/-- The graver of two findings. -/
def worstFinding : Finding → Finding → Finding
  | .uncorrectable, _ | _, .uncorrectable => .uncorrectable
  | .oneSymbol, _ | _, .oneSymbol => .oneSymbol
  | .clean, .clean => .clean

/-- ECCCNT counts changed for a unit (R99). -/
def State.countEcc (s : State) (u corr uncorr : Nat) : State :=
  let (c, n) := Assoc.get s.mem.ecc u (0, 0)
  { s with mem := { s.mem with ecc := Assoc.put s.mem.ecc u (min (2 ^ 32 - 1) (c + corr), min 0xFFFF (n + uncorr)) } }

/-- The block of a unit address marked poisoned (R98). -/
def State.poisonBlock (s : State) (unit uaddr : Nat) : State :=
  let b := memKey unit uaddr / 64
  { s with mem := { s.mem with poison := setInsert s.mem.poison b, upsets := Assoc.del s.mem.upsets b } }
/-- The block of a unit address rewritten: it holds no error. -/
def State.cleanBlock (s : State) (unit uaddr : Nat) : State :=
  let b := memKey unit uaddr / 64
  { s with mem := { s.mem with poison := setErase s.mem.poison b, upsets := Assoc.del s.mem.upsets b } }

/-- A block is read and checked (R98): what is found there, or what it held, is counted and may poison it. -/
def State.checkBlock (s : State) (u a : Nat) (finding : Finding) : State :=
  if s.poisoned u a then s.countEcc u 0 1
  else match worstFinding finding (s.upset u a) with
    | .clean => s
    | .oneSymbol => s.countEcc u 1 0
    | .uncorrectable => (s.countEcc u 0 1).poisonBlock u a

/-! ### Migration (R93 to R95) -/

/-- The state with memory and translation changed. -/
def State.modMem (s : State) (f : MemSys → MemSys) : State := { s with mem := f s.mem }

/-- TARGET. -/
def regTarget (r : Nat) : Nat := field r 3 1
/-- The units of a near or far region, numbered over both tiers. -/
def regAllUnits (r : Nat) : List Nat := (regUnits r).map (fun u => if regTarget r = 2 then u + 12 else u)

/-- The fault of an access from a die to a memory unit, if it cannot be reached (R20, R97). -/
def State.unitFault (s : State) (die u : Nat) : Option Nat :=
  if !s.reach die (unitDie u) then some 0x8F else if !s.unitUp u then some 0x2D else none

/-- The messages between dies that have not been accepted. -/
def State.messages (s : State) : List IMsg :=
  (s.mods.map (fun p =>
    let of (l : LinkDir) : List IMsg := l.queue.map (·.1) ++ (l.current.map (·.1)).toList ++ l.replay.map (·.msg)
    of p.2.d0 ++ of p.2.d1)).flatten ++ s.transit

/-- The request that a message carries. -/
def IMsg.request? (m : IMsg) : Option MemReq :=
  match m.payload with
  | .request r => some r
  | _ => none

/-- The 4 KiB blocks of the migrating region. -/
def State.migBlocks (s : State) : Nat :=
  let r := s.region s.mem.cur s.mem.migRegion
  (regLimit r - regBase r) / 4096

/-- A migration whose blocks have all been copied ends once the old version has drained (R95): the requests that arrived before
have left their controllers. -/
def State.migrationOver (s : State) : Bool :=
  s.mem.migActive && !s.mem.draining && s.mem.cursor == s.migBlocks && s.mem.reqs.all (fun r => r.ver != s.mem.old)

/-- The end of a migration that is over. -/
def State.endMigration (s : State) : State :=
  if s.migrationOver then s.modMem (fun m => { m with migActive := false, migStopped := false }) else s

/-- The block of the migrating region that holds a physical address. -/
def State.migBlock (s : State) (pa : Nat) : Option Nat :=
  if !s.mem.migActive then none
  else match s.regionOf s.mem.cur pa with
    | some (e, r) => if e = s.mem.migRegion then some ((pa - regBase r) / 4096) else none
    | none => none

/-- The place of a physical address under a version, as a unit and unit address. -/
def State.unitPlace (s : State) (v pa : Nat) : Option (Nat × Nat) :=
  match s.resolve v pa with
  | some (.memory u a) => some (u, a)
  | _ => none

/-- A request forwarded toward the old place of a block has not been served (R94). -/
def State.forwardedToward (s : State) (b : Nat) : Bool :=
  let hit (r : MemReq) : Bool := r.forwarded && s.migBlock r.pa == some b && s.unitPlace s.mem.old r.pa == some (r.unit, r.uaddr)
  s.mem.reqs.any hit || s.messages.any (fun m => m.request?.any hit)

/-- A unit can be reached by the migration engine. -/
def State.unitLive (s : State) (u : Nat) : Bool := (s.unitFault 15 u).isNone

/-- The far ports of both placements are up (R95). -/
def State.migPortsUp (s : State) : Bool :=
  [s.mem.old, s.mem.cur].all (fun v => (regAllUnits (s.region v s.mem.migRegion)).all s.unitUp)

/-- The places of the block at CURSOR, old and new, when it may be copied now. -/
def State.copyReady (s : State) : Option ((Nat × Nat) × (Nat × Nat)) :=
  if s.mem.migActive && !s.mem.migStopped && s.migPortsUp && s.mem.cursor < s.migBlocks && !s.forwardedToward s.mem.cursor then
    let pa := regBase (s.region s.mem.cur s.mem.migRegion) + 4096 * s.mem.cursor
    match s.unitPlace s.mem.old pa, s.unitPlace s.mem.cur pa with
    | some o, some n => if s.unitLive o.1 && s.unitLive n.1 then some (o, n) else none
    | _, _ => none
  else none

/-- 4 KiB read and copied as stored, with its poison (R94, R98). -/
def State.copyStored (s : State) (o n : Nat × Nat) : State :=
  let s := (List.range 64).foldl (fun s i => s.checkBlock o.1 (o.2 + 64 * i) .clean) s
  (List.range 64).foldl (fun s i =>
    if s.poisoned o.1 (o.2 + 64 * i) then s.poisonBlock n.1 (n.2 + 64 * i) else s.cleanBlock n.1 (n.2 + 64 * i))
    (s.rawWrite n.1 n.2 (s.rawRead o.1 o.2 4096))

/-- The block at CURSOR copied, if it may be (R94, R95). -/
def State.copyBlock (s : State) : State :=
  match s.copyReady with
  | none => s
  | some (o, n) => ((s.copyStored o n).modMem (fun m => { m with cursor := m.cursor + 1 })).endMigration

/-- An access of a version that another controller serves than the one it names is counted in LATE or EARLY (R94). -/
def State.countForward (s : State) (ver : Nat) (late : Bool) : State :=
  s.modMem (fun m => { m with
    late := if late && ver == m.old then satInc 0xFFFF m.late else m.late
    early := if !late && ver == m.cur then satInc 0xFFFF m.early else m.early })

/-- What an access of a die, made in one step, does to a running migration before it is served (R94): the block at CURSOR is copied
first, and an access that is forwarded is counted. DESIGN CHOICE (log 71): where the copy must wait, the access is served at the
old place before it. -/
def State.meetMigration (s : State) (die pa : Nat) : State :=
  let s := if s.migBlock pa = some s.mem.cursor then s.copyBlock else s
  match s.migBlock pa with
  | none => s
  | some b => if b = s.mem.cursor then s else s.countForward (s.dieVersion die) (b < s.mem.cursor)

/-- A block that an access of a die reads: it meets the migration, and is checked where it can be reached (R94, R98). -/
def State.meetBlock (s : State) (die pa : Nat) : State :=
  let s := s.meetMigration die pa
  match s.servedAt (s.dieVersion die) pa with
  | some (.memory u a) => if (s.unitFault die u).isNone then s.checkBlock u a .clean else s
  | _ => s

/-! ### Page tables (R102 to R106) -/

/-- The place of a walk's read, if the walker can reach it. -/
def State.walkPlace (s : State) (pa : Nat) : Option (Nat × Nat) :=
  match s.servedAt s.mem.cur pa with
  | some (.memory u a) => if s.reach 15 (unitDie u) && s.unitUp u then some (u, a) else none
  | _ => none

/-- A 64-bit read of a walk; `none` is fault 0x1B. -/
def State.walkRead (s : State) (pa : Nat) : Option Nat :=
  match s.walkPlace pa with
  | some (u, a) => if s.lost u a then none else some (ofBytes (s.rawRead u a 8))
  | none => none

/-- The lowest virtual-address bit that level lvl indexes (R103). -/
def lvlShift (lvl : Nat) : Nat := 12 + 9 * lvl
/-- The index of a virtual address at a level. -/
def lvlIndex (lvl va : Nat) : Nat := if lvl = 3 then field va 56 39 else va / 2 ^ lvlShift lvl % 512

/-- The reserved bits of a page-table entry are zero (R104). -/
def pteClean (p : Nat) : Bool := field p 11 6 == 0 && field p 63 60 == 0

/-- The level-0 entry that a CONTIG group supplies: its own when those that can be read agree but for PA bits 15:12, otherwise
any of them. -/
def State.contigEntry (s : State) (t va own : Nat) : Nat :=
  let idx := lvlIndex 0 va / 16 * 16
  let all := (List.range 16).filterMap (fun i => s.walkRead (t + 8 * (idx + i)))
  if all.all (fun p => setField p 15 12 0 == setField own 15 12 0) then own
  else all.getD (Config.contigChoice (va / 2 ^ 16) % all.length) own

/-- A leaf entry as a TLB holds it, or its fault (R105). -/
def leafEntry (asid va lvl p : Nat) : Except Nat TlbEntry :=
  if field p 5 5 = 1 && lvl != 0 then .error 0x13
  else
    let sz := if lvl = 2 then 2 ^ 30 else if lvl = 1 then 2 ^ 21 else if field p 5 5 = 1 then 2 ^ 16 else 2 ^ 12
    let base := field p 51 12 * 4096
    if sz ≠ 2 ^ 16 && base % sz ≠ 0 then .error 0x13
    else .ok ⟨asid, va / sz * sz, sz, base / sz * sz, p.testBit 2, p.testBit 3, p.testBit 4, field p 59 52⟩

/-- A cached non-leaf entry of a level (R107). -/
def State.walkCached (s : State) (asid lvl va : Nat) : Option Nat :=
  (s.mem.walkCache.find? (fun e => e.asid == asid && e.level == lvl && e.va == va / 2 ^ lvlShift lvl)).map (·.table)

/-- The levels of a walk from table t downward (R105): the leaf, and the non-leaf entries read. -/
def State.walkFrom (s : State) (asid va : Nat) : Nat → Nat → List WalkCacheEntry → Except Nat (TlbEntry × List WalkCacheEntry)
  | 0, t, seen =>
    match s.walkRead (t + 8 * lvlIndex 0 va) with
    | none => .error 0x1B
    | some p =>
      if p % 2 = 0 then .error 0x11
      else if !pteClean p || field p 1 1 = 0 then .error 0x13
      else
        let q := if field p 5 5 = 1 then s.contigEntry t va p else p
        if q % 2 = 0 then .error 0x11
        else if !pteClean q || field q 1 1 = 0 then .error 0x13
        else (leafEntry asid va 0 q).map (fun e => (e, seen))
  | lvl + 1, t, seen =>
    match s.walkCached asid (lvl + 1) va with
    | some t' => s.walkFrom asid va lvl t' seen
    | none =>
      match s.walkRead (t + 8 * lvlIndex (lvl + 1) va) with
      | none => .error 0x1B
      | some p =>
        if p % 2 = 0 then .error 0x11
        else if !pteClean p then .error 0x13
        else if field p 1 1 = 1 then
          if lvl + 1 = 3 then .error 0x13 else (leafEntry asid va (lvl + 1) p).map (fun e => (e, seen))
        else if field p 5 2 ≠ 0 || field p 59 52 ≠ 0 then .error 0x13
        else
          let t' := field p 51 12 * 4096
          s.walkFrom asid va lvl t' (seen ++ [⟨asid, lvl + 1, va / 2 ^ lvlShift (lvl + 1), t'⟩])

/-- A whole walk (R105), before the checks that depend on the access kind. -/
def State.walk (s : State) (asid va : Nat) : Except Nat (TlbEntry × List WalkCacheEntry) :=
  if 2 ^ 57 ≤ va then .error 0x10
  else match s.walkCached asid 3 va with
    | some t => s.walkFrom asid va 2 t []
    | none =>
      match s.walkRead (s.mem.asidBase + 8 * asid) with
      | none => .error 0x1B
      | some ae =>
        if ae % 2 = 0 || field ae 20 1 ≠ 0 || field ae 63 52 ≠ 0 then .error 0x14
        else s.walkFrom asid va 3 (field ae 51 21 * 2 ^ 21) []

/-- The physical addresses that a walk from table t downward reads. -/
def State.walkReadsFrom (s : State) (asid va : Nat) : Nat → Nat → List Nat
  | 0, t => [t + 8 * lvlIndex 0 va]
  | lvl + 1, t =>
    match s.walkCached asid (lvl + 1) va with
    | some t' => s.walkReadsFrom asid va lvl t'
    | none =>
      let pa := t + 8 * lvlIndex (lvl + 1) va
      match s.walkRead pa with
      | none => [pa]
      | some p =>
        if p % 2 = 1 && pteClean p && field p 1 1 = 0 then pa :: s.walkReadsFrom asid va lvl (field p 51 12 * 4096)
        else [pa]

/-- The physical addresses that a whole walk reads. -/
def State.walkReads (s : State) (asid va : Nat) : List Nat :=
  match s.walkCached asid 3 va with
  | some t => s.walkReadsFrom asid va 2 t
  | none =>
    let pa := s.mem.asidBase + 8 * asid
    match s.walkRead pa with
    | none => [pa]
    | some ae =>
      if ae % 2 = 0 || field ae 20 1 ≠ 0 || field ae 63 52 ≠ 0 then [pa]
      else pa :: s.walkReadsFrom asid va 3 (field ae 51 21 * 2 ^ 21)

/-- The blocks that a walk reads meet a migration and are checked (R94, R98). -/
def State.checkWalk (s : State) (asid va : Nat) : State := (s.walkReads asid va).foldl (fun s pa => s.meetBlock 15 pa) s

/-- Key slot k is enabled; slot 0 always is (R100, R101). -/
def State.keyEnabled (s : State) (k : Nat) : Bool := k == 0 || ((Assoc.find s.mem.keys k).map (·.enabled)).getD false

/-- The checks of a leaf for an access kind (R105). -/
def State.leafFault (s : State) (e : TlbEntry) (k : AccessKind) : Option Nat :=
  let ok := match k with
    | .load => e.rd
    | .store => e.wr
    | .atomic => e.rd && e.wr
    | .image => e.ex
  if !ok then some 0x12 else if !s.keyEnabled e.key then some 0x19 else none

/-- The physical address of a virtual address under a leaf. -/
def TlbEntry.pa_of (e : TlbEntry) (va : Nat) : Nat := e.pa + va % e.size

/-! ### TLBs (R107) -/

/-- The entries of a holder. -/
def State.tlbOf (s : State) : Holder → List TlbEntry
  | .core c => (s.core c).tlb
  | h => ((s.mem.tlbs.find? (fun p => p.1 == h)).map (·.2)).getD []

/-- The state with a holder's entries replaced. -/
def State.setTlb (s : State) (h : Holder) (l : List TlbEntry) : State :=
  match h with
  | .core c => s.modCore c (fun k => { k with tlb := l })
  | _ => { s with mem := { s.mem with tlbs := (s.mem.tlbs.filter (fun p => p.1 != h)) ++ [(h, l)] } }

/-- The capacity of a holder's TLB. -/
def tlbSize : Holder → Nat
  | .core _ => 256
  | _ => 64

/-- A holder's TLB with an entry installed, the oldest leaving when it is full. -/
def State.installTlb (s : State) (h : Holder) (e : TlbEntry) : State :=
  let l := (s.tlbOf h).filter (fun x => !(x.asid == e.asid && x.va == e.va && x.size == e.size)) ++ [e]
  s.setTlb h (l.drop (l.length - tlbSize h))

/-- Non-leaf entries added to the walk caches, each level keeping its newest (R107). -/
def State.installWalk (s : State) (l : List WalkCacheEntry) : State :=
  let all := s.mem.walkCache ++ l
  let keep (lvl n : Nat) := let x := all.filter (fun e => e.level == lvl); x.drop (x.length - n)
  { s with mem := { s.mem with walkCache := keep 3 512 ++ keep 2 2048 ++ keep 1 8192 } }

/-- The TLB entry that holds a virtual address. -/
def State.tlbHit (s : State) (h : Holder) (asid va : Nat) : Option TlbEntry :=
  (s.tlbOf h).find? (fun e => e.asid == asid && e.va ≤ va && va < e.va + e.size)

/-- The outcome of a translation: a physical address, its key and its target; a fault; or a miss. -/
inductive Trans where
  | ok (pa key : Nat) (t : Target)
  | fault (code : Nat)
  | miss
  deriving DecidableEq, Repr

/-- The last step of a translation: permissions, key and region (R105, R89). -/
def State.finishTrans (s : State) (die va : Nat) (k : AccessKind) (e : TlbEntry) : Trans :=
  match s.leafFault e k with
  | some c => .fault c
  | none =>
    match s.resolve (s.dieVersion die) (e.pa_of va) with
    | none => .fault 0x17
    | some t => .ok (e.pa_of va) e.key t

/-- A core's translation (R105, R107): a TLB hit, the fault of a finished walk, or a miss, whose request the H die must be able to
receive (R20, R61). -/
def State.translate (s : State) (core asid va : Nat) (k : AccessKind) : Trans :=
  if 2 ^ 57 ≤ va then .fault 0x10
  else match s.tlbHit (.core core) asid va with
    | some e => s.finishTrans (coreDie core) va k e
    | none =>
      if s.mem.walkFaults.contains (core, asid, va / 4096) then
        match s.walk asid va with
        | .error c => .fault c
        | .ok (e, _) => s.finishTrans (coreDie core) va k e
      else if s.reach (coreDie core) 15 then .miss
      else .fault 0x8F

/-- A translation by a holder on the H die, which walks at once when its TLB misses. -/
def State.translateNow (s : State) (h : Holder) (asid va : Nat) (k : AccessKind) : Trans × State :=
  if 2 ^ 57 ≤ va then (.fault 0x10, s)
  else match s.tlbHit h asid va with
    | some e => (s.finishTrans 15 va k e, s)
    | none =>
      let s' := s.checkWalk asid va
      match s.walk asid va with
      | .error c => (.fault c, s')
      | .ok (e, seen) =>
        (s.finishTrans 15 va k e, if (s.leafFault e k).isSome then s' else (s'.installTlb h e).installWalk seen)

/-- A miss recorded for the walker complex: misses of one address space and page are merged (R107). -/
def State.requestWalk (s : State) (h : Holder) (m : Miss) : State :=
  let rec add : List WalkReq → List WalkReq
    | [] => [⟨m.asid, m.page, [(h, m.kind)], false⟩]
    | w :: t =>
      if w.asid = m.asid ∧ w.page = m.page ∧ w.stale = false then
        { w with waiters := if w.waiters.contains (h, m.kind) then w.waiters else w.waiters ++ [(h, m.kind)] } :: t
      else w :: add t
  { s with mem := { s.mem with walks := add s.mem.walks } }

/-! ### Windows (R113, R114) -/

/-- The window's size in bytes. -/
def winSize (w : Nat) : Nat := 2 ^ field w 8 4
/-- The window's first virtual address. -/
def winBase (w : Nat) : Nat := field w 56 12 * 4096
/-- WVER. -/
def winVer (w : Nat) : Nat := field w 119 112

/-- A window write that R113 accepts. -/
def winOk (w : Nat) : Bool :=
  field w 127 120 == 0 && field w 111 110 == 0 && field w 63 57 == 0 && field w 11 9 == 0 && field w 3 3 == 0
    && 12 ≤ field w 8 4 && field w 8 4 ≤ 22 && winBase w % winSize w == 0 && field w 109 64 % winSize w == 0

/-- The lowest-numbered valid window that holds an address. -/
def Context.windowOf (t : Context) (a : Nat) : Option (Nat × Nat) :=
  ((List.range 16).map (fun i => (i, (vget t.w i).toNat))).find?
    (fun p => p.2 % 2 == 1 && winBase p.2 ≤ a && a < winBase p.2 + winSize p.2)

/-- A window access: its binding (window, WVER) and fabric address, or its fault (R114). -/
def windowAccess (i w a len : Nat) (k : AccessKind) : Except Nat ((Nat × Nat) × Nat) :=
  if winBase w + winSize w < a + len then .error 0x1C
  else
    let rd := w.testBit 1
    let wr := w.testBit 2
    let ok := match k with
      | .load | .image => rd
      | .store => wr
      | .atomic => rd && wr
    if !ok then .error 0x16 else .ok ((i, winVer w), field w 109 64 + (a - winBase w))

end Sys2Proof.Machine
end

