-- ==== Sys2Proof/Machine/Block.lean ====
section
/-!
DEFINITION. Reading and writing blocks of device memory: encryption, the end-to-end check and poison (R98 to R101), and
the accesses that an agent makes through page tables in one step.
-/
namespace Sys2Proof.Machine
open Sys2Proof

/-- A key slot. -/
def State.key (s : State) (k : Nat) : KeySlot := Assoc.get s.mem.keys k ⟨0, 0, false, false⟩

/-- Stored bytes of a block from its plain bytes (R100). -/
def State.seal (s : State) (key pa : Nat) (d : List Byte) : List Byte :=
  if key = 0 then d else Aes.encryptBlock (s.key key).dataKey (s.key key).tweakKey pa d
/-- Plain bytes of a block from its stored bytes (R100). -/
def State.unseal (s : State) (key pa : Nat) (d : List Byte) : List Byte :=
  if key = 0 then d else Aes.decryptBlock (s.key key).dataKey (s.key key).tweakKey pa d

/-- The plain bytes of the 64-byte block that holds a unit address. -/
def State.blockRead (s : State) (unit uaddr pa key : Nat) : List Byte :=
  s.unseal key pa (s.rawRead unit (uaddr / 64 * 64) 64)

/-- A write of bytes within one block (R98): a whole block clears its errors; part of a block is merged with what a checked read
gives, and is discarded when the block is poisoned. -/
def State.blockWrite (s : State) (unit uaddr pa key : Nat) (d : List Byte) : State :=
  let s := if d.length < 64 then s.checkBlock unit uaddr .clean else s
  if s.poisoned unit uaddr && d.length < 64 then s
  else
    let base := uaddr / 64 * 64
    let old := s.blockRead unit uaddr pa key
    let new := old.take (uaddr % 64) ++ d ++ old.drop (uaddr % 64 + d.length)
    (s.rawWrite unit base (s.seal key pa new)).cleanBlock unit base

/-- The pieces of a run of bytes that lie in one block each: address and length. -/
def blockPieces : Nat → Nat → Nat → List (Nat × Nat)
  | 0, _, _ => []
  | fuel + 1, a, n =>
    if n = 0 then []
    else
      let k := min n (64 - a % 64)
      (a, k) :: blockPieces fuel (a + k) (n - k)

/-- An agent's read of one piece (R105, R89, R98): its bytes or a fault. -/
def State.agentReadPiece (s : State) (h : Holder) (die asid va n : Nat) (k : AccessKind) :
    Except Nat (List Byte) × State :=
  match s.translateNow h asid va k with
  | (.fault c, s) => (.error c, s)
  | (.miss, s) => (.error 0x11, s)
  | (.ok pa key _, s) =>
    let s := s.meetMigration die pa
    match s.servedAt (s.dieVersion die) pa with
    | some (.memory u a) =>
      match s.unitFault die u with
      | some c => (.error c, s)
      | none =>
        let s := s.checkBlock u a .clean
        if s.poisoned u a then (.error 0x2E, s)
        else (.ok (((s.blockRead u a pa key).drop (a % 64)).take n), s)
    | _ => (.error 0x17, s)

/-- An agent's read of n bytes at a virtual address, block by block. -/
def State.agentRead (s : State) (h : Holder) (die asid va n : Nat) (k : AccessKind) : Except Nat (List Byte) × State :=
  (blockPieces (n + 1) va n).foldl (fun acc p =>
    match acc with
    | (.error c, s) => (.error c, s)
    | (.ok bs, s) =>
      match s.agentReadPiece h die asid p.1 p.2 k with
      | (.error c, s) => (.error c, s)
      | (.ok b, s) => (.ok (bs ++ b), s)) (.ok [], s)

/-- An agent's write of bytes at a virtual address; the first piece that fails ends it. The fault, with the address at
which it arose, and the state. -/
def State.agentWrite (s : State) (h : Holder) (die asid va : Nat) (d : List Byte) : Option (Nat × Nat) × State :=
  (blockPieces (d.length + 1) va d.length).foldl (fun acc p =>
    match acc with
    | (some c, s) => (some c, s)
    | (none, s) =>
      match s.translateNow h asid p.1 .store with
      | (.fault c, s) => (some (c, p.1), s)
      | (.miss, s) => (some (0x11, p.1), s)
      | (.ok pa key _, s) =>
        let s := s.meetMigration die pa
        match s.servedAt (s.dieVersion die) pa with
        | some (.memory u a) =>
          match s.unitFault die u with
          | some c => (some (c, p.1), s)
          | none =>
            if s.lost u a && p.2 < 64 then (some (0x2E, p.1), s.checkBlock u a .clean)
            else (none, s.blockWrite u a pa key ((d.drop (p.1 - va)).take p.2))
        | _ => (some (0x17, p.1), s)) (none, s)

end Sys2Proof.Machine
end

