-- ==== Sys2Proof/Machine/Format.lean ====
section
/-!
DEFINITION. Number formats and arithmetic (R240 to R257): exact values, rounding, comparison, summation and the
compensated pair. A format is its code of R240; flags are the five bits NV 16, DZ 8, OF 4, UF 2, NX 1 (R213).
-/
namespace Sys2Proof.Machine
open Sys2Proof

/-- An exact value: NaN, a signed infinity, a signed zero, or ±m × 2^e with m > 0 (R250). -/
inductive Val where
  | nan
  | inf (neg : Bool)
  | zero (neg : Bool)
  | fin (neg : Bool) (m : Nat) (e : Int)
  deriving DecidableEq, Repr

/-- The width in bits of a format code (R240). -/
def fmtBits : Nat → Nat
  | 0 => 32 | 1 => 16 | 2 => 16 | 3 => 8 | 4 => 8 | 5 => 32 | 6 => 16 | 7 => 8 | 8 => 32 | 9 => 16 | 10 => 8 | _ => 4

/-- The floating format codes. -/
def isFloat (f : Nat) : Bool := f ≤ 4
/-- The natural format codes. -/
def isNatural (f : Nat) : Bool := 8 ≤ f

/-- Fraction bits of a floating format (R241). -/
def fracBits : Nat → Nat
  | 0 => 23 | 1 => 7 | 2 => 10 | 3 => 3 | _ => 2
/-- Exponent bits of a floating format. -/
def expBits : Nat → Nat
  | 0 => 8 | 1 => 8 | 2 => 5 | 3 => 4 | _ => 5
/-- Exponent bias of a floating format. -/
def fmtBias : Nat → Nat
  | 0 => 127 | 1 => 127 | 2 => 15 | 3 => 7 | _ => 15
/-- The exponent of the smallest subnormal. -/
def minExp (f : Nat) : Int := 1 - (fmtBias f : Int) - (fracBits f : Int)
/-- The code of the largest finite magnitude (R241). -/
def maxFin : Nat → Nat
  | 0 => 0x7F7FFFFF | 1 => 0x7F7F | 2 => 0x7BFF | 3 => 0x7E | _ => 0x7B
/-- The code of +infinity; e4m3 has none. -/
def infCode : Nat → Nat
  | 0 => 0x7F800000 | 1 => 0x7F80 | 2 => 0x7C00 | 3 => 0x7E | _ => 0x7C
/-- qnan(fmt) (R244). -/
def qnan : Nat → Nat
  | 0 => 0x7FC00000 | 1 => 0x7FC0 | 2 => 0x7E00 | 3 => 0x7F | _ => 0x7E

/-- A code with the sign bit of its format set or clear. -/
def withSign (f : Nat) (neg : Bool) (mag : Nat) : Nat := if neg then mag + 2 ^ (fmtBits f - 1) else mag

/-- The magnitude bits of a floating code. -/
def magBits (f x : Nat) : Nat := x % 2 ^ (fmtBits f - 1)
/-- The sign of a floating code. -/
def signBit (f x : Nat) : Bool := x / 2 ^ (fmtBits f - 1) % 2 == 1

/-- is_nan of a floating code (R252). -/
def isNan (f x : Nat) : Bool := if f = 3 then magBits f x == 0x7F else isFloat f && infCode f < magBits f x
/-- is_inf of a floating code (R252). -/
def isInf (f x : Nat) : Bool := isFloat f && f != 3 && magBits f x == infCode f
/-- A signalling NaN: the top fraction bit is 0 (R241). -/
def isSnan (f x : Nat) : Bool := f != 3 && isNan f x && x / 2 ^ (fracBits f - 1) % 2 == 0

/-- An integer as an exact value. -/
def Val.ofInt (n : Int) : Val := if n = 0 then .zero false else .fin (n < 0) n.natAbs 0

/-- widen(fmt, v) (R250). -/
def widen (f x : Nat) : Val :=
  if isFloat f then
    let mag := magBits f x
    let neg := signBit f x
    if isNan f x then .nan
    else if isInf f x then .inf neg
    else if mag = 0 then .zero neg
    else
      let e := mag / 2 ^ fracBits f
      let m := mag % 2 ^ fracBits f
      if e = 0 then .fin neg m (minExp f) else .fin neg (2 ^ fracBits f + m) (minExp f + (e : Int) - 1)
  else if isNatural f then .ofInt (x % 2 ^ fmtBits f : Nat)
  else .ofInt (signed (fmtBits f) x)

/-- widen(e8m0, E): a power of two, or NaN for 0xFF (R250). -/
def widenScale (e : Nat) : Val := if e = 0xFF then .nan else .fin false 1 ((e : Int) - 127)

/-- The number of bits of a positive number. -/
def bitLen (m : Nat) : Nat := if m = 0 then 0 else m.log2 + 1

/-- Rounding modes as numbers (R246). -/
def rmCode : Rm → Nat
  | .rne => 0 | .rtz => 1 | .up => 2 | .down => 3 | .sr => 4

/-- R246: whether m / 2^shift, with the remainder not zero or zero, is rounded away from zero. `draw` is u. -/
def roundsAway (rm : Rm) (neg : Bool) (m shift draw : Nat) : Bool :=
  let lo := m / 2 ^ shift
  let rem := m % 2 ^ shift
  if rem = 0 then false
  else match rm with
    | .rne => 2 ^ shift < 2 * rem || (2 * rem == 2 ^ shift && lo % 2 == 1)
    | .rtz => false
    | .up => !neg
    | .down => neg
    | .sr =>
      let u := draw / 2 ^ 8
      if neg then !(u * 2 ^ shift < 2 ^ 24 * (2 ^ shift - rem)) else u * 2 ^ shift < 2 ^ 24 * rem

/-- m × 2^e with its exponent raised to q: the rounded significand, and whether it differs. -/
def roundAt (rm : Rm) (neg : Bool) (m : Nat) (e q : Int) (draw : Nat) : Nat × Bool × Bool :=
  if q ≤ e then (m * 2 ^ (e - q).toNat, false, false)
  else
    let shift := (q - e).toNat
    let away := roundsAway rm neg m shift draw
    (m / 2 ^ shift + b2n away, m % 2 ^ shift != 0, away)

/-- The outcome of an overflow (R247): infinity, or the largest finite magnitude. -/
def overflowsToInf (rm : Rm) (neg away inexact : Bool) : Bool :=
  match rm with
  | .rne => true
  | .rtz => false
  | .up => !neg
  | .down => neg
  | .sr => if inexact then away else neg

/-- round_to for a finite nonzero value and a floating format (R251). -/
def roundFin (f : Nat) (sat : Bool) (rm : Rm) (draw : Nat) (neg : Bool) (m : Nat) (e : Int) : Nat × Nat :=
  let p : Int := fracBits f + 1
  let qn := e + bitLen m - p
  let q := max qn (minExp f)
  let (r, inexact, away) := roundAt rm neg m e q draw
  let mag := (q - minExp f).toNat * 2 ^ fracBits f + r
  if maxFin f < mag then
    (withSign f neg (if overflowsToInf rm neg away inexact && !sat then infCode f else maxFin f), 5)
  else
    let (ru, _, _) := roundAt rm neg m e qn draw
    let tiny := (bitLen ru : Int) + qn ≤ minExp f + fracBits f
    (withSign f neg mag, if inexact then 1 + (if tiny then 2 else 0) else 0)

/-- maxint of an integer or natural format. -/
def maxInt (f : Nat) : Int := if isNatural f then (2 ^ fmtBits f : Nat) - 1 else (2 ^ (fmtBits f - 1) : Nat) - 1
/-- minint of an integer or natural format. -/
def minInt (f : Nat) : Int := if isNatural f then 0 else -((2 ^ (fmtBits f - 1) : Nat) : Int)

/-- The integer that a rounding mode chooses for ±m × 2^e, and whether it differs (R246). -/
def roundInt (rm : Rm) (draw : Nat) (neg : Bool) (m : Nat) (e : Int) : Int × Bool :=
  let (r, inexact, _) := roundAt rm neg m e 0 draw
  (if neg then -(r : Int) else r, inexact)

/-- round_to and, with `sat`, round_sat (R251): the code and the raised flags. -/
def roundTo (f : Nat) (sat : Bool) (rm : Rm) (draw : Nat) (x : Val) : Nat × Nat :=
  if isFloat f then
    match x with
    | .nan => (qnan f, 0)
    | .inf neg => if f = 3 then (withSign f neg 0x7E, 5) else (withSign f neg (infCode f), 0)
    | .zero neg => (withSign f neg 0, 0)
    | .fin neg m e => roundFin f sat rm draw neg m e
  else
    match x with
    | .nan => (0, 16)
    | .inf neg => (wrap (fmtBits f) (if neg then minInt f else maxInt f), 16)
    | .zero _ => (0, 0)
    | .fin neg m e =>
      let (r, inexact) := roundInt rm draw neg m e
      if maxInt f < r then (wrap (fmtBits f) (maxInt f), 16)
      else if r < minInt f then (wrap (fmtBits f) (minInt f), 16)
      else (wrap (fmtBits f) r, b2n inexact)

/-- round_to with rne. -/
def rne (f : Nat) (x : Val) : Nat × Nat := roundTo f false .rne 0 x

/-! ### Exact arithmetic -/

/-- The sign of a value; a NaN counts as positive. -/
def Val.neg? : Val → Bool
  | .nan => false
  | .inf n | .zero n | .fin n _ _ => n

/-- The value with its sign inverted. -/
def Val.negate : Val → Val
  | .nan => .nan
  | .inf n => .inf (!n)
  | .zero n => .zero (!n)
  | .fin n m e => .fin (!n) m e

/-- The signed significand of a finite value at exponent q, for q at or below its own. -/
def Val.at (x : Val) (q : Int) : Int :=
  match x with
  | .fin n m e => let v : Int := ((m * 2 ^ (e - q).toNat : Nat) : Int); if n then -v else v
  | _ => 0

/-- The exponent of a finite value; a zero takes the other's. -/
def Val.exp (x : Val) (d : Int) : Int :=
  match x with
  | .fin _ _ e => e
  | _ => d

/-- The exact value n × 2^e, a zero result taking the sign given (R245). -/
def Val.ofScaled (n e : Int) (zneg : Bool) : Val := if n = 0 then .zero zneg else .fin (n < 0) n.natAbs e

/-- The exact sum and its flags: opposite infinities give NaN with NV (R347, R245). -/
def addVal (x y : Val) : Val × Nat :=
  match x, y with
  | .nan, _ | _, .nan => (.nan, 0)
  | .inf a, .inf b => if a = b then (.inf a, 0) else (.nan, 16)
  | .inf a, _ => (.inf a, 0)
  | _, .inf b => (.inf b, 0)
  | .zero a, .zero b => (.zero (a && b), 0)
  | x, y =>
    let q := min (x.exp (y.exp 0)) (y.exp (x.exp 0))
    (.ofScaled (x.at q + y.at q) q false, 0)

/-- The exact product and its flags: infinity times zero gives NaN with NV (R347, R245). -/
def mulVal (x y : Val) : Val × Nat :=
  match x, y with
  | .nan, _ | _, .nan => (.nan, 0)
  | .inf a, .zero _ => (.nan, 16 + 0 * b2n a)
  | .zero a, .inf _ => (.nan, 16 + 0 * b2n a)
  | .inf a, y => (.inf (a != y.neg?), 0)
  | x, .inf b => (.inf (x.neg? != b), 0)
  | .zero a, y => (.zero (a != y.neg?), 0)
  | x, .zero b => (.zero (x.neg? != b), 0)
  | .fin a m e, .fin b n g => (.fin (a != b) (m * n) (e + g), 0)

/-- A finite nonzero value times 2^k. -/
def Val.scale (x : Val) (k : Int) : Val :=
  match x with
  | .fin n m e => .fin n m (e + k)
  | v => v

/-- The order of two values that are not NaN, by real value: less, equal (0) or greater. -/
def cmpVal (x y : Val) : Ordering :=
  match x, y with
  | .inf a, .inf b => if a = b then .eq else if a then .lt else .gt
  | .inf a, _ => if a then .lt else .gt
  | _, .inf b => if b then .gt else .lt
  | x, y =>
    let q := min (x.exp (y.exp 0)) (y.exp (x.exp 0))
    compare (x.at q) (y.at q)

/-- a < b as larger and smaller order values: by real value, with -0 below +0 (R252). -/
def below (x y : Val) : Bool :=
  match x, y with
  | .zero a, .zero b => a && !b
  | x, y => cmpVal x y == .lt

/-- The code of larger(a, b), or the canonical NaN (R252). -/
def largerOf (f a b : Nat) : Nat :=
  if isNan f a || isNan f b then qnan f else if below (widen f a) (widen f b) then b else a
/-- The code of smaller(a, b), or the canonical NaN. -/
def smallerOf (f a b : Nat) : Nat :=
  if isNan f a || isNan f b then qnan f else if below (widen f b) (widen f a) then b else a

/-- f32 addition rounded once. -/
def f32add (a b : Nat) : Nat × Nat :=
  let (x, fl) := addVal (widen 0 a) (widen 0 b)
  let (r, g) := rne 0 x
  (r, fl ||| g ||| (if isSnan 0 a || isSnan 0 b then 16 else 0))

/-- two_sum (R257): the rounded sum and its exact error, with flags. -/
def twoSum (a b : Nat) : (Nat × Nat) × Nat :=
  let (s, fl) := f32add a b
  if isInf 0 s || isNan 0 s then ((s, 0), fl)
  else
    let (x, _) := addVal (widen 0 a) (widen 0 b)
    let (t, _) := addVal x (widen 0 s).negate
    ((s, match t with | .zero _ => 0 | t => (rne 0 t).1), fl)

/-- cadd_step (R257). -/
def caddStep (s e v : Nat) : (Nat × Nat) × Nat :=
  let ((r, t), fl) := twoSum s v
  let (e', g) := f32add e t
  ((r, e'), fl ||| g)

/-- The code of an atomic operation (R305). -/
def amoCode : AmoOp → Nat
  | .add => 0 | .and => 1 | .or => 2 | .xor => 3 | .min => 4 | .max => 5 | .swap => 6 | .cas => 7 | .fadd => 8
  | .cadd => 9

/-- amo_apply (R367): the new word and the flags that fadd and cadd raise. -/
def amoApply (op : AmoOp) (w v c : Word) : Word × Nat :=
  match op with
  | .add => (w + v, 0)
  | .and => (w &&& v, 0)
  | .or => (w ||| v, 0)
  | .xor => (w ^^^ v, 0)
  | .min => (if w.toInt ≤ v.toInt then w else v, 0)
  | .max => (if v.toInt ≤ w.toInt then w else v, 0)
  | .swap => (v, 0)
  | .cas => (if w = c then v else w, 0)
  | .fadd =>
    let (h, f) := f32add (field w.toNat 63 32) (field v.toNat 63 32)
    let (l, g) := f32add (field w.toNat 31 0) (field v.toNat 31 0)
    (BitVec.ofNat 64 (h * 2 ^ 32 + l), f ||| g)
  | .cadd =>
    let ((s, e), f) := caddStep (field w.toNat 31 0) (field w.toNat 63 32) (field v.toNat 31 0)
    (BitVec.ofNat 64 (e * 2 ^ 32 + s), f)

/-! ### Elements of rows (R243) -/

/-- elem(v, i, fmt) for a format b bits wide. -/
def elem (b : Nat) (v : Nat) (i : Nat) : Nat := v / 2 ^ (b * i) % 2 ^ b
/-- The row whose elements, b bits wide, are the list's. -/
def ofElems (b : Nat) : List Nat → Nat
  | [] => 0
  | x :: t => x % 2 ^ b + 2 ^ b * ofElems b t
/-- The first n elements of a row. -/
def elems (b n v : Nat) : List Nat := (List.range n).map (elem b v)

/-! ### The canonical pairing (R73) -/

/-- One round of the pairing: neighbours are combined, an EMPTY one lets its sibling pass, an odd last one is carried. -/
def pairRound {α : Type} (f : α → α → α × Nat) : List (Option α) → List (Option α) × Nat
  | [] => ([], 0)
  | [x] => ([x], 0)
  | none :: y :: t => let (l, fl) := pairRound f t; (y :: l, fl)
  | some x :: none :: t => let (l, fl) := pairRound f t; (some x :: l, fl)
  | some x :: some y :: t =>
    let (r, g) := f x y
    let (l, fl) := pairRound f t
    (some r :: l, g ||| fl)

/-- The pairing of a list of inputs, EMPTY ones as `none`; the first number bounds the rounds. -/
def pairing {α : Type} (f : α → α → α × Nat) : Nat → List (Option α) → Option α × Nat
  | 0, l => (l.headD none, 0)
  | n + 1, l =>
    if l.length ≤ 1 then (l.headD none, 0)
    else
      let (l', g) := pairRound f l
      let (r, h) := pairing f n l'
      (r, g ||| h)

end Sys2Proof.Machine
end

