-- ==== Sys2Proof/WellFormed.lean ====
section
/-!
DEFINITION. What makes a slot operation encodable: the slot classes of R288, the hold rule of R295 and the operand limits
of R292 to R305 that the operand types do not already express. A step of another agent is always well formed.
-/
namespace Sys2Proof

/-- The slot's number in the bundle (R288). -/
def Slot.num : Slot → Nat
  | .s0 => 0 | .s1 => 1 | .v0 => 2 | .v1 => 3 | .v2 => 4 | .x => 5 | .m0 => 6 | .m1 => 7

/-- The slots in ascending order. -/
def Slot.all : List Slot := [.s0, .s1, .v0, .v1, .v2, .x, .m0, .m1]

/-- Slot 0 or slot 1. -/
def Slot.isS : Slot → Bool
  | .s0 | .s1 => true
  | _ => false

/-- Slot 2, 3 or 4. -/
def Slot.isV : Slot → Bool
  | .v0 | .v1 | .v2 => true
  | _ => false

/-- Slot 6 or 7. -/
def Slot.isM : Slot → Bool
  | .m0 | .m1 => true
  | _ => false

/-- The value of a selector field (R290). -/
def Sel.num : Sel → Nat
  | .reg n => n.toNat
  | .latch k => 64 + k.toNat
  | .pop => 72
  | .zero => 73

/-- A selector that a held word may carry: no latch and no pop (R295). -/
def Sel.holdable : Sel → Bool
  | .latch _ | .pop => false
  | _ => true

/-- The FMT code (R300). -/
def Fmt.code : Fmt → Nat
  | .f32 => 0 | .bf16 => 1 | .f16 => 2 | .e4m3 => 3 | .e5m2 => 4 | .i32 => 5 | .i16 => 6 | .i8 => 7

/-- The FMT of a code. -/
def Fmt.ofCode : Nat → Fmt
  | 0 => .f32 | 1 => .bf16 | 2 => .f16 | 3 => .e4m3 | 4 => .e5m2 | 5 => .i32 | 6 => .i16 | _ => .i8

/-- The number of elements of a format in a register (R341). -/
def Fmt.elems : Fmt → Nat
  | .f32 | .i32 => 64
  | .bf16 | .f16 | .i16 => 128
  | .e4m3 | .e5m2 | .i8 => 256

/-- The floating formats, FMT 0 to 4. -/
def Fmt.isFloat (f : Fmt) : Bool := f.code < 5

/-- The fault codes that R209 lists. -/
def faultCodes : List Nat :=
  [0x10, 0x11, 0x12, 0x13, 0x14, 0x15, 0x16, 0x17, 0x18, 0x19, 0x1A, 0x1B, 0x1C,
   0x21, 0x22, 0x23, 0x24, 0x25, 0x26, 0x27, 0x2D, 0x2E, 0x31, 0x32, 0x33, 0x34, 0x35,
   0x41, 0x42, 0x43, 0x44, 0x51, 0x53, 0x61, 0x62, 0x63, 0x64, 0x65, 0x66,
   0x72, 0x73, 0x74, 0x75, 0x76, 0x81, 0x82, 0x84, 0x86, 0x87, 0x88, 0x89, 0x8A, 0x8B, 0x8C, 0x8D, 0x8F,
   0x91, 0x92, 0x93, 0x94, 0x95, 0x96, 0x97, 0x98, 0xA1, 0xA2, 0xA3, 0xA4, 0xA5]

/-- The status registers that swr may name (R331). -/
def swrNum (n : Nat) : Bool :=
  (1 ≤ n && n ≤ 4) || n == 7 || n == 8 || (0x50 ≤ n && n ≤ 0x57) || (0x60 ≤ n && n ≤ 0x8F)

/-- The status registers that srd may name (R331). -/
def srdNum (n : Nat) : Bool :=
  n ≤ 8 || (0x10 ≤ n && n ≤ 0x14) || (0x20 ≤ n && n ≤ 0x45) || (0x50 ≤ n && n ≤ 0x57) || (0x60 ≤ n && n ≤ 0x8F)

/-- A status register with a field that srd clears (R331, R333). -/
def srdClears (n : Nat) : Bool := n == 0 || n == 5 || (0x30 ≤ n && n ≤ 0x3F)

namespace WellFormed

/-- H is set only when no selector is a latch or a pop (R295). -/
def hold (h : Bool) (sels : List Sel) : Bool := !h || sels.all Sel.holdable

/-- A scalar SR word in slot 0 or 1. -/
def sr (f : SR) : Bool := f.slot.isS && hold f.h [f.a, f.b]
/-- A one-source scalar word in slot 0 or 1. -/
def su (f : SU) : Bool := f.slot.isS && hold f.h [f.a]
/-- A scalar SI word in slot 0 or 1. -/
def si (f : SI) : Bool := f.slot.isS && hold f.h [f.a]
/-- A shift-immediate word in slot 0 or 1. -/
def sh (f : SH) : Bool := f.slot.isS && hold f.h [f.a]
/-- A two-source vector word in V0 to V2 with FMT from lo to hi. -/
def vf (lo hi : Nat) (f : VF) : Bool := f.slot.isV && hold f.h [f.a, f.b] && lo ≤ f.fmt.code && f.fmt.code ≤ hi
/-- A one-source vector word. -/
def vu (lo hi : Nat) (f : VU) : Bool := f.slot.isV && hold f.h [f.a] && lo ≤ f.fmt.code && f.fmt.code ≤ hi
/-- An immediate vector word with an immediate at most m. -/
def vi (lo hi m : Nat) (f : VI) : Bool :=
  f.slot.isV && hold f.h [f.a] && lo ≤ f.fmt.code && f.fmt.code ≤ hi && f.k.toNat ≤ m
/-- A compare. -/
def vc (lo hi : Nat) (f : VC) : Bool := f.slot.isV && hold f.h [f.a, f.b] && lo ≤ f.fmt.code && f.fmt.code ≤ hi
/-- A conversion: a target code of 0 to 10. -/
def vv (f : VV) : Bool := f.slot.isV && hold f.h [f.a] && f.target.toNat ≤ 10
/-- A one-source special function: slot X, FMT 0 to 2. -/
def xu (f : VU) : Bool := f.slot == .x && hold f.h [f.a] && f.fmt.code ≤ 2
/-- A due offset: DE is 0 when DM is 0 (R302). -/
def due (d : Due) : Bool := d.dm != 0 || d.de == 0

end WellFormed

open WellFormed in
/-- A slot operation that some word encodes; every step of another agent. -/
def Instr.wf : Instr → Bool
  | .add f | .sub f | .and f | .or f | .xor f | .andn f | .sll f | .srl f | .sra f | .rol f | .min f | .max f | .minn f
  | .maxn f | .cmov f | .mul f | .mulh f | .mulhn f | .div f | .divn f | .rem f | .remn f => sr f
  | .cmpCc f _ | .bfx f _ | .bins f _ => sr f
  | .clz f | .ctz f | .popc f | .brev f => su f
  | .addi f | .andi f | .ori f | .xori f | .slti f | .sltni f | .seqi f => si f
  | .slli f | .srli f | .srai f => sh f
  | .movl f | .movh f => f.slot.isS
  | .ldl k _ _ _ | .hint k _ _ | .winr k _ _ _ => k.isS
  | .brCc c a _ => (c == .always) == false || a == .zero
  | .trap n => faultCodes.contains n.toNat
  | .srd k _ n => k.isS && srdNum n.toNat
  | .swr _ n => swrNum n.toNat
  | .vadd f | .vsub f | .vmul f | .vmin f | .vmax f | .vperm f => vf 0 7 f
  | .vfma f | .vfms f => vf 0 4 f
  | .vsel f => vf 0 7 f && f.p
  | .vadds f | .vsubs f | .vaddsn f | .vshl f | .vshr f | .vsra f | .vmac f => vf 5 7 f
  | .vand f | .vor f | .vxor f => vf 5 5 f
  | .vabs f | .vneg f | .vmov f | .vtrans f | .vrsum f | .vcsum f | .vrmax f | .vcmax f | .vrmin f | .vcmin f | .vmovz f
  | .vsplat f => vu 0 7 f
  | .vshli f => vi 5 7 31 f
  | .vbcast f => vi 0 7 127 f && f.k.toNat < f.fmt.elems
  | .vrot f => vi 0 7 63 f
  | .vdq f => vi 0 1 127 f
  | .vcmpEq f | .vcmpLt f | .vcmpLe f | .vcmpNe f => vc 0 7 f
  | .vcmpLtn f => vc 5 7 f
  | .vcvt f | .vcvts f => vv f
  | .vshp k _ c => k.isV && c.toNat ≤ 6
  | .vpfx k h _ _ _ a => k.isV && hold h [a]
  | .qand f | .qor f | .qxor f => f.slot.isV
  | .qnot k _ _ _ _ => k.isV
  | .xexp2 f | .xlog2 f | .xrcp f | .xrsqrt f | .xsqrt f | .xsin f | .xcos f | .xtanh f | .xsigm f | .xgelu f => xu f
  | .xdiv f => f.slot == .x && hold f.h [f.a, f.b] && f.fmt.code ≤ 2
  | .mm d _ _ | .rqr d _ _ _ | .rcl d | .cp d _ | .cpadv d => due d
  | .mmacro d a _ | .rap d _ a _ => due d && a.toNat ≤ 62
  | .rrd h _ _ _ a => hold h [a]
  | .rang h _ _ _ a _ => hold h [a]
  | .ld f | .ldt f => f.slot.isM
  | .st f | .stt f => f.slot.isM
  | .amoOp k _ _ _ _ | .ldgRow k _ _ | .ldgWord k _ _ | .stgRow k _ _ _ | .stgWord k _ _ _ | .ldff k _ _ _
  | .amogOp k _ _ _ _ | .rst k _ _ | .rld k _ | .rfaaI64 k _ _ | .rfaaI32 k _ _ | .rmc k _ _ _ | .clap k | .fence k _
  | .barInit k _ _ | .barArr k _ | .barWait k _ | .barSync k _ | .barDep k _ | .barEnd k _ | .fbar k _ _
  | .guardSet k _ _ | .guardClr k _ _ | .rmg k _ _ _ _ | .tagwFull k _ | .tagwEmpty k _ => k.isM
  | .rred k v _ f _ n => k.isM && f.toNat ≤ 5 && v.toNat + n.toNat ≤ 63
  | _ => true

end Sys2Proof
end

