-- ==== Sys2Proof/Machine/Ops.lean ====
section
/-!
DEFINITION. The shared operations of a core: what a slot notes while its bundle issues, results and their landing, local
writes and their points, sticky flags, restart points, switching, taking a fault, a restart or an interrupt, and returning
from one.
-/
namespace Sys2Proof.Machine
open Sys2Proof

/-! ### Notes of the bundle being issued (R197) -/

/-- The state with the issue record changed. -/
def State.note (s : State) (f : IssueRec → IssueRec) : State := { s with issue := f s.issue }
/-- A kind-K fault of a slot. -/
def State.fail (s : State) (k : Slot) (code : Nat) : State :=
  s.note (fun r => { r with faults := r.faults ++ [(k.num, code)] })
/-- A blocking condition; the first blocking slot's is recorded (R199). -/
def State.blockOn (s : State) (code : Nat) (on : Wake) : State :=
  s.note (fun r => match r.block with
    | some _ => r
    | none => { r with block := some code, blockOn := some on })
/-- A read of an invalid latch by a slot (R195). -/
def State.latchMiss (s : State) (k : Slot) : State := s.note (fun r => { r with latch := r.latch.or (some k.num) })
/-- A translation miss, which stalls the bundle (R107). -/
def State.tlbMiss (s : State) (m : Miss) : State := s.note (fun r => { r with misses := r.misses ++ [m] })
/-- A bundle that commits its region on its own commit (R224, R333, R394). -/
def State.commitsAfter (s : State) : State := s.note (fun r => { r with after := true })

/-! ### Sticky flags (R213) -/

/-- The flags raised by a slot, recorded in fpflags and, when it is the first event, in fpfirst. -/
def Context.raise (t : Context) (slot flags pc : Nat) : Context :=
  if flags = 0 then t
  else
    { t with
      fpflags := t.fpflags ||| BitVec.ofNat 64 (flags * 2 ^ (5 * slot))
      fpfirst := if t.fpfirst.getLsbD 63 then t.fpfirst
        else BitVec.ofNat 64 (2 ^ 63 + flags * 2 ^ 22 + slot * 2 ^ 14 + pc % 2 ^ 14)
      fresh := { t.fresh with
        flags := t.fresh.flags ||| BitVec.ofNat 64 (flags * 2 ^ (5 * slot))
        first := t.fresh.first || !t.fpfirst.getLsbD 63 } }

/-- TRAPEN (R213). -/
def Context.traps (t : Context) : Nat := field t.fpflags.toNat 44 40

/-- The fault of the first flag whose trap is enabled, in the order NV, DZ, OF, UF, NX. -/
def trapIn (traps flags : Nat) : Option Nat :=
  let en := flags &&& traps
  if en.testBit 4 then some 0x61 else if en.testBit 3 then some 0x62 else if en.testBit 2 then some 0x63
  else if en.testBit 1 then some 0x64 else if en.testBit 0 then some 0x65 else none

/-- The fault of flags under a context's trap enables. -/
def Context.trapOf (t : Context) (flags : Nat) : Option Nat := trapIn t.traps flags

/-- A floating operation's flags noted: its trap, or the flags to be recorded when the bundle commits (R344). -/
def State.noteFlags (s : State) (k : Slot) (flags : Nat) : State :=
  match s.cx.trapOf flags with
  | some c => (s.fail k c).note (fun r => { r with events := r.events ++ [(k.num, flags)] })
  | none => if flags = 0 then s else s.note (fun r => { r with flags := r.flags ++ [(k.num, flags)] })

/-! ### Results (R193, R194) -/

/-- The order in which results land: by cycle, then issue, then slot. -/
def Result.before (a b : Result) : Bool :=
  a.lands < b.lands || (a.lands == b.lands && (a.issued < b.issued ||
    (a.issued == b.issued && a.slot.num ≤ b.slot.num)))

/-- Results in landing order with one more. -/
def insertResult : List Result → Result → List Result
  | [], r => [r]
  | x :: t, r => if x.before r then x :: insertResult t r else r :: x :: t

/-- write(slot, file, d, x, L) (R291): the result lands at the read cycle + L; with W it reaches its latch only. -/
def State.write (s : State) (k : Slot) (d : Dest) (lat : Nat) (x : Row) (w : Bool := false) : State :=
  let r : Result := ⟨k, if w then .none else d, s.issue.issued, s.issue.cc + lat, x⟩
  s.modCx (fun t => { t with inflight := insertResult t.inflight r })

/-- A scalar result. -/
def State.writeS (s : State) (k : Slot) (d : BitVec 6) (lat : Nat) (x : Word) : State :=
  s.write k (s.cx.sDest d) lat (x.setWidth 2048)

/-- One result lands in its register and its latch (R194). -/
def Core.land (k : Core) (x : Nat) (r : Result) : Core :=
  (k.setCtx x ((k.ctx x).write r.dest r.value)).setLatch r.slot.num r.value

/-- The results of a context that are due by context cycle cc land, in order. -/
def Core.landDue (k : Core) (x cc : Nat) : Core :=
  let l := (k.ctx x).inflight
  let k := (l.filter (fun r => r.lands ≤ cc)).foldl (fun k r => k.land x r) k
  k.setCtx x { k.ctx x with inflight := l.filter (fun r => !(r.lands ≤ cc)) }

/-- A register whose pending bit is set (R230): a result in flight or an atomic writes it. -/
def Context.pending (t : Context) (d : Dest) : Bool :=
  t.inflight.any (fun r => match r.dest, d with
    | .sc a, .sc b => a.toNat ≤ b.toNat
    | x, y => x == y && x != .none)
  || t.localWrites.any (fun w => match w.eff with
    | .atomic _ _ _ _ x _ => x == d
    | _ => false)

/-- A local row whose pending bit is set (R230). -/
def Context.rowPending (t : Context) (b : Buf) (r : Nat) : Bool := t.localWrites.any (fun w => w.buf == b && w.row == r)

/-! ### Named barriers (R225, R387 to R389) -/

/-- The word of a named barrier (R225). -/
def Barrier.word (b : Barrier) : Nat :=
  b.count * 2 ^ 52 + b.arrived * 2 ^ 40 + b.gen * 2 ^ 32 + 2 * b2n b.departed + b2n b.live

/-- The A offset of the word of barrier b. -/
def barrierOffset (b : Nat) : Nat := 0x1FFE00 + 8 * b

/-- Barrier b of a core. -/
def Core.barrier (k : Core) (b : Nat) : Barrier := Assoc.get k.barriers b ⟨0, 0, 0, false, false, 0, 0⟩
/-- The core with barrier b and its word replaced. -/
def Core.setBarrier (k : Core) (b : Nat) (x : Barrier) : Core :=
  { k with barriers := Assoc.put k.barriers b x, a := Memory.write k.a (barrierOffset b) (bytesOf 8 x.word) }

/-- Row r of A holds a live barrier word (R226). -/
def Core.liveRow (k : Core) (buf : Buf) (r : Nat) : Bool :=
  buf == .a && k.barriers.any (fun p => p.2.live && barrierOffset p.1 / 256 == r)

/-- A bit of a 64-bit mask set or clear. -/
def maskBit (m : BitVec 64) (b : Nat) (v : Bool) : BitVec 64 :=
  if v then m ||| BitVec.ofNat 64 (2 ^ b) else m &&& ~~~ BitVec.ofNat 64 (2 ^ b)

/-- A context with its AR bit b clear, and its PART bit too when the barrier is no longer live. -/
def Context.clearArrival (t : Context) (b : Nat) (parts : Bool) : Context :=
  { t with ar := maskBit t.ar b false, part := if parts then maskBit t.part b false else t.part }

/-- Every context of the core, the saved ones included, with its arrival cleared. -/
def Core.clearArrivals (k : Core) (b : Nat) (parts : Bool) : Core :=
  { k with
    ctxs := k.ctxs.map (fun t => t.clearArrival b parts)
    saved := k.saved.map (fun v => { v with ctx := v.ctx.clearArrival b parts }) }

/-- Barrier b stops being live: its word is written with LIVE = 0 and its AR and PART bits are cleared. -/
def Core.endBarrier (k : Core) (b : Nat) : Core :=
  (k.setBarrier b { k.barrier b with live := false }).clearArrivals b true

/-- The completion check (R388), with deferred departures applied after the generation completes (R389). -/
def Core.checkBarrier (k : Core) (b : Nat) : Core :=
  let x := k.barrier b
  if 1 ≤ x.count && x.arrived == x.count then
    let x' := { x with gen := (x.gen + 1) % 256, arrived := 0, count := x.count - x.deferred, deferred := 0 }
    let k := (k.setBarrier b x').clearArrivals b false
    if x'.count = 0 then k.endBarrier b else k
  else k

/-- A barrier after the departure of a participant, which has arrived or not (R389). -/
def Core.leaveBarrier (k : Core) (b : Nat) (arrived implicit : Bool) : Core :=
  let y := k.barrier b
  let y := { y with departed := y.departed || implicit }
  if arrived then k.setBarrier b { y with deferred := y.deferred + 1 }
  else
    let k := k.setBarrier b { y with count := y.count - 1 }
    if y.count - 1 = 0 then k.endBarrier b else k.checkBarrier b

/-- The departure of context x from barrier b (R389). -/
def Core.depart (k : Core) (x b : Nat) (implicit : Bool) : Core :=
  let t := k.ctx x
  if !t.part.getLsbD b then k
  else (k.setCtx x { t with part := maskBit t.part b false }).leaveBarrier b (t.ar.getLsbD b) implicit

/-- The departure of saved context i from barrier b. -/
def Core.departSaved (k : Core) (i b : Nat) : Core :=
  match k.saved[i]? with
  | none => k
  | some v =>
    if !v.ctx.part.getLsbD b then k
    else
      let v' := { v with ctx := { v.ctx with part := maskBit v.ctx.part b false } }
      ({ k with saved := k.saved.set i v' }).leaveBarrier b (v.ctx.ar.getLsbD b) true

/-- The saved contexts of a launch leave the core, each departing from its barriers and stopping its macros (R164, R389,
R395). -/
def Core.discardSaved (k : Core) (launch : Nat) : Core :=
  let k := (List.range k.saved.length).foldl (fun k i =>
    if (k.saved[i]?.map (fun v => v.ctx.launch)) == some (some launch) then
      (List.range 64).foldl (fun k b => k.departSaved i b) k
    else k) k
  { k with
    macros := k.macros.map (fun (m : MacroRun) =>
      if k.saved.any (fun v => v.ctx.launch = some launch ∧ v.ctx.home = m.home) ∧ m.launch = launch then { m with stopped := true } else m)
    saved := k.saved.filter (fun v => v.ctx.launch != some launch) }

/-- The implicit departure of context x from every barrier in which it is a participant. -/
def Core.departAll (k : Core) (x : Nat) : Core :=
  (setBits 64 (k.ctx x).part.toNat).foldl (fun k b => k.depart x b true) k

/-! ### Local writes (R221) -/

/-- The order of write points: by cycle, then issue, then slot. -/
def insertLocal : List LocalWrite → LocalWrite → List LocalWrite
  | [], w => [w]
  | x :: t, w =>
    if x.point < w.point || (x.point == w.point && x.slot.num ≤ w.slot.num) then x :: insertLocal t w else w :: x :: t

/-- A tag operation takes effect on a row: its tag full or empty from now on (R223). -/
def Core.setTag (k : Core) (r : Nat) (full : Bool) : Core :=
  { k with tags := if full then setInsert k.tags r else setErase k.tags r, tagUsed := r :: k.tagUsed }

/-- One local write takes effect (R221, R223, R367). -/
def Core.performLocal (k : Core) (x : Nat) (w : LocalWrite) : Core :=
  match w.eff with
  | .store row fill =>
    let k := if k.liveRow w.buf w.row then k else k.setRow w.buf w.row row
    if fill then k.setTag w.row true else k
  | .atomic op i v c dest traps =>
    let row := (k.row w.buf w.row).toNat
    let old := BitVec.ofNat 64 (elem 64 row i)
    let (new, flags) := amoApply op old v c
    let t := (k.ctx x).raise w.slot.num flags w.pc
    match trapIn traps flags with
    | some code => k.setCtx x { t with pendingFault := t.pendingFault.or (some ⟨code, some w.pc, w.slot.num⟩) }
    | none =>
      let row' := setField row (64 * i + 63) (64 * i) new.toNat
      (if k.liveRow w.buf w.row then k else k.setRow w.buf w.row (BitVec.ofNat 2048 row')).setCtx x
        { t with inflight := insertResult t.inflight ⟨w.slot, dest, w.issued, w.issued + 10, old.setWidth 2048⟩ }

/-- A tag store does not take effect (R223): its tag is full, so that its wait is no longer satisfied, or another tag operation has
taken effect on its row in this cycle. -/
def Core.tagHolds (k : Core) (w : LocalWrite) : Bool :=
  match w.eff with
  | .store _ fill => fill && (k.tags.contains w.row || k.tagUsed.contains w.row)
  | _ => false

/-- The local writes of a context that have come to their points take effect, in order; the others stay in flight. -/
def Core.performWhere (k : Core) (x : Nat) (due : LocalWrite → Bool) : Core :=
  (k.ctx x).localWrites.foldl (fun k w =>
    if due w && !k.tagHolds w then k.performLocal x w
    else k.setCtx x { k.ctx x with localWrites := (k.ctx x).localWrites ++ [w] })
    (k.setCtx x { k.ctx x with localWrites := [] })

/-- The local writes of a context whose points are at or before context cycle cc take effect. -/
def Core.performDue (k : Core) (x cc : Nat) : Core := k.performWhere x (fun w => w.point ≤ cc)

/-- The context that issues on core c in this cycle, if any. -/
def State.issuing (s : State) (c : Nat) : Option Nat :=
  let k := s.core c
  match k.cur with
  | some x => if !k.stalled && (k.ctx x).mode == .issuing && k.resumeAt ≤ s.cycle then some x else none
  | none => none

/-- Core c as every read of this core cycle sees its rows: with the local writes whose points fall in it (R221). -/
def State.coreAfter (s : State) (c : Nat) : Core :=
  match s.issuing c with
  | some x => if s.turn ≤ c then (s.core c).performDue x ((s.core c).ctx x).cc else s.core c
  | none => s.core c

/-- Every local write of a context takes effect, save a tag store that waits: the drain of R201. -/
def Core.drainLocal (k : Core) (x : Nat) : Core := k.performWhere x (fun _ => true)

/-- A tag store of a context whose point has come and whose tag is full. -/
def Context.tagWaits (t : Context) : Option LocalWrite := t.localWrites.find? (fun w => w.point ≤ t.cc)

/-! ### Restart points (R202, R204, R248, R295, R324) -/

/-- The copies that a restart point takes, for a bundle that issues in context cycle cc. -/
def Context.mark (t : Context) (cc : Nat) : Context :=
  { t with
    restart := ⟨t.pc, t.redirect.map (fun p => (p.1 - cc, p.2)), t.g, t.lpc, t.holds.toList⟩
    latched := []
    patient := false
    regionCmds := []
    due := t.due.map (fun d => { d with region := false }) }

/-- What committing a held region comes to (R111): a state, a fault of a held store's translation, or missed pages. -/
inductive Commit where
  | done (s : State)
  | fault (code : Nat)
  | miss (pages : List Miss)

/-- The access kind of a held global store. -/
def StoreOp.kind? : StoreOp → Option AccessKind
  | .global _ => some .store
  | .globalAtomic _ _ => some .atomic
  | _ => none

/-- R111, R122: a held entry issued before `bound` translated and committed, or why it cannot be. -/
def State.commitEntry (s : State) (c asid bound : Nat) (e : StoreEntry) : Except (Nat ⊕ Miss) StoreEntry :=
  if e.status ≠ .held || bound ≤ e.seq then .ok e
  else match e.op.kind? with
    | none => .ok { e with status := .committed }
    | some k =>
      match s.translate c asid e.addr k with
      | .fault f => .error (.inl f)
      | .miss => .error (.inr ⟨asid, e.addr / 4096, k⟩)
      | .ok pa key t =>
        match t with
        | .outbound _ =>
          if !s.busMaster || k == .atomic then .error (.inl 0x93)
          else .ok { e with status := .committed, pa := some (pa, key, t) }
        | _ => .ok { e with status := .committed, pa := some (pa, key, t) }

/-- The store-queue entries that wait for a restart point, translated in issue order. -/
def State.commitEntries (s : State) (c asid bound : Nat) : List StoreEntry → Except (Nat ⊕ Miss) (List StoreEntry)
  | [] => .ok []
  | e :: t => do
    let e' ← s.commitEntry c asid bound e
    let t' ← s.commitEntries c asid bound t
    return e' :: t'

/-- The held region of context x of core c commits (R198, R202): the pops listed are released, and of the entries issued
before `bound`, held loads become permanent and held stores are translated. -/
def State.commitHeld (s : State) (c x bound : Nat) (pops : List Nat) : Commit :=
  let t := s.ctxOf c x
  match s.commitEntries c (((s.launch? t.launch).map (·.asid)).getD 0) bound t.sq with
  | .error (.inl f) => .fault f
  | .error (.inr p) => .miss [p]
  | .ok sq =>
    .done (s.modCtx c x (fun t =>
      { t with
        sq := sq
        lq := (t.lq.filter (fun e => !pops.contains e.seq)).map (fun e => if e.seq < bound then { e with held := false } else e) }))

/-- The load-queue entries that a context has popped and still holds. -/
def Context.heldPops (t : Context) : List Nat := (t.lq.filter (·.popped)).map (·.seq)

/-- The held stores discarded (R165). -/
def Context.dropStores (t : Context) : Context := { t with sq := t.sq.filter (fun e => e.status != .held) }

/-- The held region discarded (R204 steps 3 to 5): held stores leave, held pops are undone and the region's loads go. -/
def Context.dropHeld (t : Context) : Context :=
  { t.dropStores with
    lq := (t.lq.filter (fun e => !e.held)).map (fun e => { e with popped := false }) }

/-! ### Switching (R200, R201, R326) -/

/-- Results move into the reel with their offsets from the current context cycle (R200 step 1). -/
def Context.toReel (t : Context) : Context :=
  { t with reel := t.inflight.map (fun r => { r with lands := r.lands - t.cc }), inflight := [] }

/-- The reel replayed: each entry lands at its offset from the cycle of the first bundle (R201). -/
def Context.fromReel (t : Context) : Context :=
  { t with
    inflight := (t.reel.map (fun r => { r with lands := r.lands + t.cc })).foldl insertResult t.inflight
    reel := [] }

/-- The core leaves its current context (R200): local writes drain, results go to the reel, the latches are invalidated,
and the next bundle issues 2 cycles after this one. -/
def State.leave (s : State) (c x : Nat) (mode : Mode) : State :=
  s.modCore c (fun k =>
    let k := (k.drainLocal x).dropLatches
    let k := k.setCtx x { (k.ctx x).toReel with mode := mode }
    { k with cur := none, last := x, resumeAt := s.cycle + 2, stalled := false })

/-- The next ready context in ascending number after the last one, wrapping round (R200). -/
def Core.nextReady (k : Core) : Option Nat :=
  ((List.range 4).map (fun i => (k.last + 1 + i) % 4)).find? (fun x => (k.ctx x).mode == .ready)

/-- A bundle blocks (R199): the context is blocked with its condition, and the core switches. -/
def State.block (s : State) (c x code : Nat) (on : Option Wake) : State :=
  (s.modCtx c x (fun t => { t with block := code, wakeOn := on })).leave c x .blocked

/-! ### The save record (R208, R215) -/

/-- CTXSTATE.MODE as a number (R214). -/
def Mode.code : Mode → Nat
  | .free => 0 | .ready => 1 | .issuing => 2 | .blocked => 3 | .saved => 4 | .restarting => 5 | .killed => 6

/-- CTXSTATE (R214), with the mode as its reader sees it. -/
def Context.ctxState (t : Context) (mode : Mode) : Nat :=
  t.ttcount * 2 ^ 48 + b2n t.priv * 2 ^ 15 + b2n t.inh * 2 ^ 14 + b2n t.patient * 2 ^ 13 + b2n t.guardChk * 2 ^ 12
    + b2n t.pendChk * 2 ^ 11 + t.block * 2 ^ 4 + mode.code

/-- One step of the reflected CRC-32 of R142 over a byte. -/
def crcByte (c : Nat) (b : Byte) : Nat :=
  (List.range 8).foldl (fun c _ => if c % 2 = 1 then c / 2 ^^^ 0xEDB88320 else c / 2) (c ^^^ b.toNat)
/-- CRC-32 with the IEEE 802.3 polynomial, reflected, initial all ones and inverted at the end (R142). -/
def crc32 (l : List Byte) : Nat := l.foldl crcByte 0xFFFFFFFF ^^^ 0xFFFFFFFF

/-- An optional number as one number. -/
def numOf (o : Option Nat) : Nat := (o.map (· + 1)).getD 0

/-- A destination as numbers. -/
def Dest.words : Dest → List Nat
  | .s n => [1, n.toNat]
  | .h n => [2, n.toNat]
  | .v n => [3, n.toNat]
  | .q n => [4, n.toNat]
  | .sc n => [5, n.toNat]
  | .shp => [6, 0]
  | .none => [0, 0]

/-- An atomic operation as a number. -/
def amoNum : AmoOp → Nat
  | .add => 0 | .and => 1 | .or => 2 | .xor => 3 | .min => 4 | .max => 5 | .swap => 6 | .cas => 7 | .fadd => 8 | .cadd => 9

/-- What a store-queue entry sends, as numbers. -/
def StoreOp.words : StoreOp → List Nat
  | .global n => [0, n]
  | .globalAtomic op c => [1, amoNum op, c.toNat]
  | .remoteStore => [2]
  | .remoteWord => [3]
  | .remoteAtomic op half c => [4, amoNum op, b2n half, c.toNat]
  | .multicast set => [5, set.toNat]
  | .reduce desc ifmt order rows => [6, desc.toNat, ifmt.toNat, b2n order, rows.length] ++ rows.map (·.toNat)
  | .barrier desc scope => [7, desc.toNat, scope.toNat]
  | .inval page desc => [8, page.toNat, desc.toNat]

/-- The progress of a store-queue entry as a number. -/
def StoreStatus.num : StoreStatus → Nat
  | .held => 0 | .committed => 1 | .sent => 2

/-- What fills a load-queue entry, as numbers. -/
def LoadKind.words : LoadKind → List Nat
  | .global => [0, 0, 0]
  | .outbound => [1, 0, 0]
  | .remote => [2, 0, 0]
  | .status g x => [3, g, x]
  | .inval => [4, 0, 0]

/-- A window binding as numbers. -/
def bindingWords (b : Option (Nat × Nat)) : List Nat := (b.map (fun p => [p.1 + 1, p.2])).getD [0]

/-- A request that has not left, as numbers. -/
def LoadReq.words : LoadReq → List Nat
  | .memory pa key unit uaddr n part => [0, pa, key, unit, uaddr, n, part]
  | .outbound addr n part => [1, addr, n, part]
  | .remote fabric b => 2 :: fabric :: bindingWords b

/-- A result in the reel as numbers. -/
def Result.words (r : Result) : List Nat := r.slot.num :: r.dest.words ++ [r.issued, r.lands, r.value.toNat]

/-- A load-queue entry as numbers. -/
def LoadEntry.words (e : LoadEntry) : List Nat :=
  [e.id, e.seq] ++ e.kind.words ++ [e.reqs.length] ++ (e.reqs.map (·.words)).flatten
    ++ [b2n e.popped, b2n e.held, e.missing, numOf e.word, e.data.toNat, numOf e.fault]

/-- A store-queue entry as numbers; a held one has no translation (R111). -/
def StoreEntry.words (e : StoreEntry) : List Nat :=
  [e.id, e.seq] ++ e.op.words ++ [e.status.num, e.addr, e.fabric, numOf e.lq] ++ bindingWords e.window ++ [e.data.toNat]

/-- What the opaque areas of a record hold (R215), as numbers: the iterations, the hold records and the restart point's copies;
the due table and the barrier masks; the queues; and the reel. -/
def Context.opaqueWords (t : Context) : List Nat :=
  let hold (h : Option Hold) : List Nat := (h.map (fun h => [h.word.toNat + 1, h.visible, b2n h.parked])).getD [0]
  let redirect (r : Option (Nat × Nat)) : List Nat := (r.map (fun p => [p.1 + 1, p.2])).getD [0]
  [numOf (t.iteration.map (·.1)), numOf (t.iteration.map (·.2)), numOf (t.nextIteration.map (·.n))]
    ++ (t.holds.toList.map hold).flatten ++ redirect t.redirect
    ++ [t.restart.pc, t.restart.g.toNat, t.restart.lpc.toNat] ++ redirect t.restart.redirect ++ (t.restart.holds.map hold).flatten
    ++ [t.due.length] ++ (t.due.map (fun d => [d.cmd, d.due, b2n d.region, b2n d.failed, numOf d.coreDue])).flatten
    ++ [t.part.toNat, t.ar.toNat, t.lq.length]
    ++ (t.lq.map (·.words)).flatten ++ [t.sq.length] ++ (t.sq.map (·.words)).flatten
    ++ [t.fences.length] ++ (t.fences.map (fun f => [f.seq, b2n f.clap, f.scope.toNat])).flatten
    ++ [t.reel.length] ++ (t.reel.map (·.words)).flatten ++ [t.parked.length] ++ (t.parked.map (·.words)).flatten

/-- n opaque bytes of a record from place `start` on: the manual fixes what they hold and leaves open how (R215), so each is a
free value of what the record holds. -/
def Context.opaqueBytes (t : Context) (start n : Nat) : List Byte :=
  let l := t.opaqueWords
  (List.range n).map (fun i => Config.recordByte l (start + i))

/-- The 64 KiB record of a context (R215), with FAULT as given. -/
def saveRecord (t : Context) (mode : Mode) (fault : Nat) : List Byte :=
  let w8 (x : Nat) := bytesOf 8 x
  let op1 := t.opaqueBytes 0xE00 512
  let op2 := t.opaqueBytes 0x5000 0xB000
  w8 (t.pc % 2 ^ 14) ++ w8 t.lpc.toNat ++ w8 (t.ctxState mode) ++ w8 t.shp.toNat ++ w8 t.fpflags.toNat ++ w8 t.fpfirst.toNat
    ++ w8 t.uctl.toNat ++ w8 t.uip.toNat ++ w8 t.ucause.toNat ++ w8 fault ++ w8 (crc32 (op1 ++ op2)) ++ w8 t.g.toNat
    ++ bytesOf 160 0
    ++ (t.s.toList.map (fun x => w8 x.toNat)).flatten ++ (t.h.toList.map (fun x => w8 x.toNat)).flatten
    ++ (t.q.toList.map (fun x => w8 x.toNat)).flatten ++ t.sc.toList ++ (t.xp.toList.map (fun x => w8 x.toNat)).flatten
    ++ bytesOf 48 0 ++ (t.kb.toList.map (fun x => bytesOf 32 x.toNat)).flatten
    ++ (t.w.toList.map (fun x => bytesOf 16 x.toNat)).flatten
    ++ (t.scopes.toList.map (fun x => bytesOf 64 x.toNat)).flatten ++ op1
    ++ (t.v.toList.map (fun x => bytesOf 256 x.toNat)).flatten ++ op2

/-- The record of a context of core c written at SAVE (R215): the fault of a write that fails, with the record's address. -/
def State.writeRecord (s : State) (c : Nat) (t : Context) (mode : Mode) (fault : Nat) : Option (Nat × Nat) × State :=
  match s.launch? t.launch with
  | some l =>
    if l.save = 0 then (none, s)
    else
      let img := saveRecord t mode fault
      let addr := l.save + 65536 * (l.ordinal c * 4 + t.home)
      match s.agentWrite (.core c) (coreDie c) l.asid addr img with
      | (bad, s) => (bad.map (fun p => (p.1, addr)), s)
  | none => (none, s)

/-! ### Taking a fault (R165, R207, R208) -/

/-- The launch's first fault, its status and KILLED (R165, R151). -/
def Launch.recordFault (l : Launch) (c x code faddr : Nat) : Launch :=
  let l := { l with killed := min 0xFFFF (l.killed + 1) }
  if code = 0 || l.fcode ≠ 0 then l else { l with fcode := code, fcore := c, fctx := x, faddr := faddr }

/-- A point of a coverage launch done without its iteration (R180). -/
def Launch.dropPoint (l : Launch) (n : Nat) : Launch :=
  match l.cov with
  | none => l
  | some c => match Assoc.find c.points n with
    | none => l
    | some p => { l with cov := some { c with points := Assoc.put c.points n { p with stage := .done, dropped := true } } }

/-- The iterations that a context holds (R160). -/
def Context.held (t : Context) : List Nat := (t.iteration.map (·.1)).toList ++ (t.nextIteration.map (·.n)).toList

/-- The macros of a context stop at their next step boundaries (R272, R395). -/
def Core.stopMacrosOf (k : Core) (t : Context) : Core :=
  { k with macros := k.macros.map (fun (m : MacroRun) =>
      if m.home = t.home ∧ some m.launch = t.launch then { m with stopped := true } else m) }

/-- The record of a killed context of core c, with FAULT as given and its queues as they stand (R198, R208), and its place in its
launch's status: a record write that fails is logged with the record's address, and the iterations it held are lost, done as points
under FAULTPOL = 1 alone (R180). -/
def State.recordKill (s : State) (c x : Nat) (t : Context) (fault code faddr : Nat) : State :=
  let (bad, s) := s.writeRecord c t .killed fault
  let s := match bad with
    | some (f, a) => s.logEvent (coreDie c) f (a % 2 ^ 32)
    | none => s
  match t.launch with
  | some l => s.modLaunch l (fun l =>
      (if l.faultPol = 0 then l else t.held.foldl Launch.dropPoint l).recordFault c x code faddr)
  | none => s

/-- A killed context: its results in flight, queues' loads, due entries, instances, holds and iterations are gone. -/
def Context.dead (t : Context) : Context :=
  { t with
    mode := .killed, inflight := [], reel := [], parked := [], chain := [], parkedChain := [], due := [], lq := []
    localWrites := [], redirect := none, holds := Vector.replicate 8 none, regionCmds := [], rotFlags := [], syncOn := []
    pendingFault := none, nextIteration := none, iteration := none }

/-- One context is killed: its local writes drain, its held stores go, it departs from its barriers, its record is written
with its load queue as it stands (R198) and its core issues the next ready context 2 cycles later (R165, R200, R208). FAULT in
its record is `fault`. -/
def State.killWith (s : State) (c x fault code faddr : Nat) : State :=
  let s := s.modCore c (fun k =>
    let k := ((k.drainLocal x).departAll x).stopMacrosOf (k.ctx x)
    let k := k.setCtx x (k.ctx x).dropStores
    if k.cur = some x then { k.dropLatches with cur := none, last := x, resumeAt := s.cycle + 2, stalled := false } else k)
  (s.recordKill c x (s.ctxOf c x) fault code faddr).modCtx c x (·.dead)

/-- One context is killed with its own fault, or with none where its launch ends (R208). -/
def State.killOne (s : State) (c x code slot faddr : Nat) : State :=
  s.killWith c x (if code = 0 then 0 else code + 2 ^ 8 * slot) code faddr

/-- A saved context of core c is killed where it is saved (R165): it departs from its barriers and its record is written. -/
def State.killSaved (s : State) (c i code : Nat) : State :=
  match (s.core c).saved[i]? with
  | none => s
  | some v =>
    let s := s.modCore c (fun k => ((List.range 64).foldl (fun k b => k.departSaved i b) k).stopMacrosOf v.ctx)
    s.recordKill c v.ctx.home v.ctx.dropStores 0 code v.ctx.pc

/-- The contexts of a launch that are not killed, idle ones included. -/
def State.contextsOf (s : State) (key : Nat) : List (Nat × Nat) :=
  (s.cores.map (fun p => ((List.range 4).filter (fun x =>
    (p.2.ctx x).launch == some key && (p.2.ctx x).mode != .killed)).map (fun x => (p.1, x)))).flatten

/-- Every context of a launch that is not yet killed, idle and saved ones included, is killed on the cores of `on` for the end
of its launch (R165, R166, R208). -/
def State.killRest (s : State) (key code : Nat) (on : Nat → Bool) : State :=
  let s := ((s.contextsOf key).filter (fun p => on p.1)).foldl (fun s p => s.killWith p.1 p.2 0 code (s.ctxOf p.1 p.2).pc) s
  let s := (s.cores.filter (fun p => on p.1)).foldl (fun s p =>
    (List.range p.2.saved.length).foldl (fun s i =>
      if (p.2.saved[i]?.map (fun v => v.ctx.launch)) == some (some key) then s.killSaved p.1 i code else s) s) s
  { s with cores := s.cores.map (fun (p : Nat × Core) =>
      (p.1, { p.2 with saved := p.2.saved.filter (fun v => v.ctx.launch != some key || !on p.1) })) }

/-- A fault of the launch itself, not of a context (R161, R182). -/
def Launch.recordOwn (l : Launch) (code addr : Nat) : Launch :=
  if l.fcode ≠ 0 then l else { l with fcode := code, fcore := 0xFFFF, fctx := 0xFF, faddr := addr }

/-- The status of a launch that a fault or the loss of a die ends (R165, R166): a cancelled one gets it too; any other keeps the
status that it has. -/
def Launch.endStatus (l : Launch) (status : Nat) : Nat := if l.status = 0 ∨ l.status = 2 then status else l.status

/-- The launch ends for a fault (R165, FAULTPOL = 0): every other context of it is killed and it drains. -/
def State.endLaunch (s : State) (key status : Nat) : State :=
  (s.killRest key 0 (fun _ => true)).modLaunch key (fun l => { l with
    status := l.endStatus status
    state := if l.state = .retired then .retired else .draining
    enumerated := true, heldPoints := [], stepSlots := [] })

/-- TAKING AN EXCEPTION of kind K (R165, R207, R208): the context is killed with its code, slot and bundle address, and the
launch ends or goes on as FAULTPOL says. -/
def State.takeFault (s : State) (c x code slot faddr : Nat) : State :=
  let key := (s.ctxOf c x).launch
  let s := s.killOne c x code slot faddr
  match key, s.launch? key with
  | some key, some l => if l.faultPol = 0 then s.endLaunch key 3 else s
  | _, _ => s

/-! ### Taking a restart (R204, R205, R211) -/

/-- Why a region restarts: a timing trap, a latch restart or the delivery of R211. -/
inductive RestartKind where
  | timing | latch | handler
  deriving DecidableEq, Repr

/-- The code of a restart's kind. -/
def RestartKind.code : RestartKind → Nat
  | .timing => 1 | .latch => 2 | .handler => 3

/-- R204 steps 1 to 5: the trapping bundle has no effect, results in flight are written at once, the held region is
discarded, and the context waits for its region's engine commands. -/
def State.takeRestart (s : State) (c x : Nat) (kind : RestartKind) : State :=
  s.modCore c (fun k =>
    let k := k.drainLocal x
    let k := (k.ctx x).inflight.foldl (fun k r => k.land x r) k
    let t := k.ctx x
    k.setCtx x { t.dropHeld with inflight := [], reel := [], chain := [], mode := .restarting, restartKind := kind.code })

/-- R204 step 7, R393: the latches are invalidated, the due table and the restart-point copies are restored, and the
context resumes at its restart point, in patient mode after a timing trap. -/
def Context.resumeRegion (t : Context) : Context :=
  let due := (t.due.filter (fun d => !d.region)).map (fun d => if d.failed then { d with due := t.cc } else d)
  { t with
    mode := .issuing
    pc := t.restart.pc
    redirect := t.restart.redirect.map (fun p => (p.1 + t.cc, p.2))
    g := t.restart.g
    lpc := t.restart.lpc
    holds := Vector.ofFn (fun i => (t.restart.holds.getD i.val none).map (fun h =>
      if h.parked then h else { h with visible := min h.visible t.cc }))
    due := due
    regionCmds := []
    ttcount := if t.restartKind = 1 then satInc 0xFFFF t.ttcount else t.ttcount
    patient := t.patient || t.restartKind == 1
    atRestart := true
    restartKind := 0 }

/-! ### User-level interrupts (R210, R212) -/

/-- A U-kind event (R207, R212): its uip bit; SOURCE and CODE when it is the first since the last read, and TAG when it is the
first of a remote operation. With EN = 0 it acts as K at the context's next bundle. -/
def Context.uEvent (t : Context) (source code tag : Nat) : Context :=
  let first := if t.ucause.setWidth 13 = (0 : BitVec 13) then source * 2 ^ 8 + code else (t.ucause.setWidth 13).toNat
  let keep := t.tagHeld || source != 16
  let t := { t with
    uip := t.uip ||| BitVec.ofNat 17 (2 ^ source)
    ucause := BitVec.ofNat 64 ((if keep then field t.ucause.toNat 59 32 else tag % 2 ^ 28) * 2 ^ 32 + first)
    tagHeld := t.tagHeld || source == 16
    fresh := { t.fresh with uip := t.fresh.uip ||| BitVec.ofNat 17 (2 ^ source) } }
  if t.uctl.getLsbD 0 then t else { t with pendingFault := t.pendingFault.or (some ⟨code, none, 0⟩) }

/-- Delivery enabled and an event waiting (R210). -/
def Context.wantsInterrupt (t : Context) : Bool := t.uctl.getLsbD 0 && t.uctl.getLsbD 1 && t.uip != 0

/-- A hold record whose last result is in flight at the entry of a handler: the result is parked with it. -/
def Hold.park (h : Hold) (cc : Nat) : Hold :=
  if !h.parked && cc < h.visible then { h with visible := h.visible - cc, parked := true } else h

/-- A hold record as the handler is left in context cycle cc: a parked result becomes visible at its offset from there. -/
def Hold.replay (h : Hold) (cc : Nat) : Hold :=
  if h.parked then { h with visible := h.visible + cc, parked := false } else h

/-- TAKING A USER-LEVEL INTERRUPT (R210): results in flight, unread rep instances and the pending redirect are parked, the
latches are invalidated, h7 takes the restart point's address, INH := 1, UIE := 0 and the context goes on at UVEC. -/
def Core.enterHandler (k : Core) (x : Nat) : Core :=
  let k := (k.drainLocal x).dropLatches
  let t := k.ctx x
  k.setCtx x { t with
    parked := t.inflight.map (fun r => { r with lands := r.lands - t.cc })
    parkedChain := t.chain.map (fun p => { p with readAt := p.readAt - t.cc })
    parkedRedirect := t.redirect.map (fun p => (p.1 - t.cc, p.2))
    holds := t.holds.map (fun h => h.map (·.park t.cc))
    inflight := []
    chain := []
    redirect := none
    h := vset t.h 7 (BitVec.ofNat 64 t.pc)
    inh := true
    uctl := t.uctl &&& ~~~ 2#64
    pc := field t.uctl.toNat 15 2
    atRestart := true }

/-- RETURN FROM A USER-LEVEL INTERRUPT (R210, R324, R328): INH := 0, UIE := 1, and bundle h7 issues in context cycle cc with
the parked results, instances and redirect replayed. -/
def Context.leaveHandler (t : Context) (cc : Nat) : Context :=
  { t with
    inh := false
    uctl := t.uctl ||| 2#64
    pc := (vget t.h 7).toNat % 2 ^ 14
    inflight := (t.parked.map (fun r => { r with lands := r.lands + cc })).foldl insertResult t.inflight
    chain := t.chain ++ t.parkedChain.map (fun p => { p with readAt := p.readAt + cc })
    redirect := t.parkedRedirect.map (fun p => (p.1 + cc, p.2))
    holds := t.holds.map (fun h => h.map (·.replay cc))
    parked := []
    parkedChain := []
    parkedRedirect := none
    atRestart := true }

end Sys2Proof.Machine
end

