-- ==== Sys2Proof/Machine/Packet.lean ====
section
/-!
DEFINITION. Forip packets: their header words, the end-to-end CRC and the packets that hardware builds (R41, R46 to R50,
R60).
-/
namespace Sys2Proof
open Sys2Proof.Machine

/-! ### CRC (R41) -/

/-- One bit of the CRC register. -/
def crc16Bit (poly c : Nat) (b : Bool) : Nat :=
  let fb := c.testBit 15 != b
  let c := c * 2 % 2 ^ 16
  if fb then c ^^^ poly else c

/-- crc16(poly, bytes). -/
def crc16 (poly : Nat) (l : List Byte) : Nat :=
  l.foldl (fun c x => (List.range 8).foldl (fun c i => crc16Bit poly c (x.getLsbD i)) c) 0xFFFF

/-! ### Header (R46, R47) -/

/-- Bits 255:64 of the header. -/
def Packet.fixedBits (p : Packet) : Nat :=
  p.cls % 8 + field p.rsvd 40 40 * 2 ^ 3 + p.len % 128 * 2 ^ 4 + field p.rsvd 45 41 * 2 ^ 11 + p.opc % 256 * 2 ^ 16
    + p.oparg % 256 * 2 ^ 24 + p.dest % 2 ^ 46 * 2 ^ 32 + field p.rsvd 47 46 * 2 ^ 78 + p.src % 2 ^ 24 * 2 ^ 80
    + p.status % 256 * 2 ^ 104 + p.seq % 2 ^ 32 * 2 ^ 112 + p.group % 4096 * 2 ^ 144 + p.gver % 256 * 2 ^ 156
    + p.tag % 2 ^ 28 * 2 ^ 164

/-- The bytes of the payload. -/
def Packet.bytes (p : Packet) : List Byte := (p.payload.map (fun f => bytesOf 64 f.toNat)).flatten

/-- The CRC that the originator computes (R47). -/
def Packet.crc (p : Packet) : Nat := crc16 0x1021 (bytesOf 24 p.fixedBits ++ p.bytes)

/-- The packet with its ECRC. -/
def Packet.sealed (p : Packet) : Packet := { p with ecrc := p.crc }

/-- The header flit. -/
def Packet.header (p : Packet) : Flit :=
  let stack := ((List.range 8).map (fun i => (p.route.getD i 0).toNat * 2 ^ (32 * i))).foldl (· + ·) 0
  BitVec.ofNat 512 (p.depth % 16 + p.hops % 16 * 2 ^ 4 + field p.rsvd 39 0 * 2 ^ 8 + p.ecrc % 2 ^ 16 * 2 ^ 48
    + p.fixedBits * 2 ^ 64 + stack * 2 ^ 256)

/-- The packet of a header flit, without payload. -/
def packetOf (h : Flit) : Packet :=
  let x := h.toNat
  let f (hi lo : Nat) := field x hi lo
  { depth := f 3 0, hops := f 7 4, ecrc := f 63 48, cls := f 66 64, len := f 74 68, opc := f 87 80, oparg := f 95 88
    dest := f 141 96, src := f 167 144, status := f 175 168, seq := f 207 176, group := f 219 208, gver := f 227 220
    tag := f 255 228, route := (List.range 8).map (fun i => BitVec.ofNat 32 (f (287 + 32 * i) (256 + 32 * i)))
    rsvd := f 47 8 + f 67 67 * 2 ^ 40 + f 79 75 * 2 ^ 41 + f 143 142 * 2 ^ 46, payload := [] }

/-! ### Addresses (R46, R60) -/

/-- The package of a fabric address. -/
def faPkg (a : Nat) : Nat := field a 45 33
/-- The core. -/
def faCore (a : Nat) : Nat := field a 32 24
/-- The buffer or resource. -/
def faBuf (a : Nat) : Nat := field a 23 22
/-- The offset. -/
def faOff (a : Nat) : Nat := field a 21 0
/-- A fabric address. -/
def fabric (pkg core buf off : Nat) : Nat := pkg * 2 ^ 33 + core * 2 ^ 24 + buf * 2 ^ 22 + off

/-- The package of SRC. -/
def srcPkg (x : Nat) : Nat := field x 23 11
/-- The core of SRC. -/
def srcCore (x : Nat) : Nat := field x 10 2
/-- The context of SRC. -/
def srcCtx (x : Nat) : Nat := x % 4
/-- SRC. -/
def srcOf (pkg core ctx : Nat) : Nat := pkg * 2 ^ 11 + core * 4 + ctx

/-- DEST of a response to an originator: its package and core, with its context in the offset (log 20). -/
def replyDest (src : Nat) : Nat := fabric (srcPkg src) (srcCore src) 0 (srcCtx src)

/-- A packet with no route stack. -/
def Packet.new (cls opc oparg dest src seq tag : Nat) (payload : List Flit) : Packet :=
  { depth := 0, hops := 0, ecrc := 0, cls := cls, len := payload.length, opc := opc, oparg := oparg, dest := dest
    src := src, status := 0, seq := seq, group := 0, gver := 0, tag := tag, route := List.replicate 8 0, rsvd := 0
    payload := payload }

/-- A response to a packet, from the agent `src`. -/
def Packet.respond (p : Packet) (src opc status : Nat) (payload : List Flit) : Packet :=
  ({ Packet.new 1 opc 0 (replyDest p.src) src p.seq p.tag payload with
    status := status, group := p.group, gver := p.gver }).sealed

/-- The flits of a run of bytes. -/
def flitsOf (n : Nat) (bytes : List Byte) : List Flit :=
  (List.range n).map (fun i => BitVec.ofNat 512 (ofBytes ((bytes.drop (64 * i)).take 64)))

/-- The four flits of a row. -/
def rowFlits (r : Row) : List Flit := flitsOf 4 (bytesOf 256 r.toNat)
/-- Row i of a payload. -/
def Packet.rowAt (p : Packet) (i : Nat) : Row :=
  BitVec.ofNat 2048 (ofBytes (((p.payload.drop (4 * i)).take 4).map (fun f => bytesOf 64 f.toNat)).flatten)

/-- The class and the range of LEN of an operation (R48); none for a reserved OPC. -/
def opcSpec : Nat → Option (Nat × Nat × Nat × Nat)
  | 0x01 => some (0, 4, 64, 4)
  | 0x02 => some (0, 0, 0, 1)
  | 0x03 => some (1, 4, 64, 4)
  | 0x04 => some (2, 1, 16, 1)
  | 0x05 => some (2, 1, 16, 1)
  | 0x06 => some (0, 1, 1, 1)
  | 0x07 => some (1, 1, 1, 1)
  | 0x08 => some (1, 0, 0, 1)
  | 0x09 => some (4, 0, 0, 1)
  | 0x0A => some (4, 0, 0, 1)
  | 0x0B => some (4, 0, 1, 1)
  | 0x0C => some (1, 0, 0, 1)
  | 0x0D => some (5, 0, 16, 1)
  | 0x0E => some (3, 4, 64, 4)
  | 0x0F => some (3, 0, 0, 1)
  | 0x10 => some (3, 4, 64, 4)
  | _ => none

/-! ### The route stack (R49) -/

/-- The top entry of a packet. -/
def Packet.top (p : Packet) : BitVec 32 := p.route.getD 0 0
/-- A packet after a pop (R49). -/
def Packet.pop (p : Packet) : Packet :=
  { p with route := p.route.tail ++ [0], depth := p.depth - 1, hops := p.hops + 1 }
/-- A packet with a new stack. -/
def Packet.withStack (p : Packet) (l : List (BitVec 32)) : Packet :=
  { p with route := (l ++ List.replicate 8 0).take 8, depth := l.length }

/-- The packet's OPC, CLASS and LEN agree (R48). -/
def Packet.shapeOk (p : Packet) : Bool :=
  match opcSpec p.opc with
  | none => false
  | some (cls, lo, hi, m) => p.cls == cls && lo ≤ p.len && p.len ≤ hi && p.len % m == 0

end Sys2Proof
end

