-- ==== Sys2Proof/Machine/Internal.lean ====
section
/-!
DEFINITION. Messages between dies (R15 to R20, R61): streams, the module that carries each, and what becomes of a message
whose path is down.
-/
namespace Sys2Proof.Machine
open Sys2Proof

/-! ### Paths (R15) -/

/-- The die at the next hop: the neighbour itself, or the Z die. -/
def nextDie (a b : Nat) : Nat :=
  if (a < 8 && b == 8 + a / 2) || (b < 8 && a == 8 + b / 2) || a == 14 then b else 14

/-- The D2DSTAT indices of the modules between two neighbouring dies. -/
def pathMods (a b : Nat) : List Nat :=
  let d := if a = 14 then b else a
  if a = 14 || b = 14 then
    if d < 8 then (List.range 8).map (8 * d + ·)
    else if d < 12 then (List.range 8).map (64 + 8 * (d - 8) + ·)
    else if d < 14 then (List.range 4).map (96 + 4 * (d - 12) + ·)
    else (List.range 4).map (104 + ·)
  else (List.range 16).map (112 + 16 * min a b + ·)

/-- The two dies of a module's path: direction 0 runs from the first to the second. -/
def modDies (m : Nat) : Nat × Nat :=
  if m < 64 then (m / 8, 14)
  else if m < 96 then (8 + (m - 64) / 8, 14)
  else if m < 104 then (12 + (m - 96) / 4, 14)
  else if m < 108 then (15, 14)
  else if m < 112 then (14, 14)
  else ((m - 112) / 16, 8 + (m - 112) / 32)

/-- A module. -/
def State.mod (s : State) (m : Nat) : Module := Assoc.get s.mods m Module.reset
/-- The state with a module changed. -/
def State.modModule (s : State) (m : Nat) (f : Module → Module) : State := { s with mods := Assoc.put s.mods m (f (s.mod m)) }
/-- One direction of a module. -/
def Module.dir (x : Module) (d : Nat) : LinkDir := if d = 0 then x.d0 else x.d1
/-- The module with one direction changed. -/
def Module.setDir (x : Module) (d : Nat) (f : LinkDir → LinkDir) : Module :=
  if d = 0 then { x with d0 := f x.d0 } else { x with d1 := f x.d1 }

/-- The flits of a module that a message takes (R432): three Forip flits of a packet go into one; any other message takes
one. -/
def IMsg.flits (m : IMsg) : Nat :=
  match m.payload with
  | .packet p | .deliver _ p _ => ceilDiv (p.payload.length + 1) 3
  | _ => 1

/-- The number of a stream: source unit, destination die, class and source die (R19). -/
def IMsg.stream (m : IMsg) : Nat := ((m.unit * 16 + m.dst) * 8 + m.cls) * 16 + m.src

/-- The messages of a stream that a module holds. -/
def Module.carries (x : Module) (stream : Nat) : Bool :=
  let has (d : LinkDir) := d.queue.any (fun m => m.1.stream == stream) || d.current.any (fun m => m.1.stream == stream)
    || d.replay.any (fun f => f.msg.stream == stream)
  has x.d0 || has x.d1

/-- The modules of a path over which streams are spread. -/
def State.spreadMods (s : State) (a b : Nat) : List Nat :=
  let live := (pathMods a b).filter (fun m => !(s.mod m).down)
  let l := live.filter (fun m => (s.mod m).spread)
  if l.isEmpty then live else l

/-- The module that carries a stream out of a die (R19): the one it is mapped to; for a stream that a lost module left, the live
module that still holds its older messages; else the one that the hash chooses. None when every module of the path is down. -/
def State.moduleOf (s : State) (stream a b : Nat) : Option (Nat × State) :=
  let key := stream * 16 + a
  let l := s.spreadMods a b
  match Assoc.find s.streamMap key with
  | some m => if (s.mod m).down then none else some (m, s)
  | none =>
    if l.isEmpty then none
    else match (pathMods a b).find? (fun m => !(s.mod m).down && (s.mod m).carries stream) with
    | some m => some (m, s)
    | none =>
      let m := l.getD (Config.streamHash key % l.length) 0
      some (m, { s with streamMap := Assoc.put s.streamMap key m })

/-! ### Places in cores (R60) -/

/-- The size of a buffer by its code. -/
def bufBytes (b : Nat) : Nat := 256 * bufRows (bufOfCode b)

/-- A packet for a core at a buffer and offset that R60 refuses. -/
def State.badPlace (s : State) (core dest : Nat) : Bool :=
  319 < core || faBuf dest == 3 || bufBytes (faBuf dest) ≤ faOff dest || !s.coresAvail.getLsbD core

/-! ### Answers to requests -/

/-- A return to a load-queue entry of a core. -/
def State.returnTo (s : State) (core : Nat) (r : Return) : State :=
  s.modCore core (fun k => { k with returns := k.returns ++ [r] })

/-- A block of a copy row read or written: an answer to copy entry `uid` of a channel. -/
def State.copyAnswer (s : State) (core ch uid row part : Nat) (dst : Bool) (res : Answer) : State :=
  let f := fun c : Channel => { c with queue := c.queue.map (fun e =>
    if e.uid ≠ uid then e
    else match res with
      | .err x => { e with bad := e.bad.or (some x) }
      | .ok bytes =>
        if dst then { e with written := e.written ++ (List.range (max 1 (ceilDiv bytes.length 64))).map (fun j => (row, part + j)) }
        else
          let blocks := (List.range (ceilDiv bytes.length 64)).map (fun j =>
            (row, part + j, (BitVec.ofNat 512 (ofBytes ((bytes.drop (64 * j)).take 64)) : Flit)))
          { e with arrived := e.arrived ++ blocks }) }
  s.modCore core (fun k => k.modChan ch f)

/-- A store's part performed, or its fault: a committed store reports it as a U event with its tag (R369). -/
def State.storeAnswer (s : State) (core ctx seq part : Nat) (fault : Option Nat) : State :=
  s.modCtx core ctx (fun t =>
    let w := t.writes.map (fun w =>
      if w.seq = seq then { w with missing := (w.missing ||| 2 ^ part) - 2 ^ part } else w)
    let tag := ((t.writes.find? (fun w => w.seq == seq)).map (·.id)).getD 0
    let t' := { t with writes := w.filter (fun w => w.missing != 0) }
    match fault with
    | some c => if t'.launch.isNone || seq < t'.seqBase then t' else t'.uEvent 16 c tag
    | none => t')

/-- The answer to a request reaches its issuer. -/
def State.answer (s : State) (who : Requester) (res : Answer) : State :=
  let fault : Option Nat := match res with
    | .err c => some c
    | .ok _ => none
  let data := match res with
    | .ok d => d
    | .err _ => []
  match who with
  | .load core ctx id seq part => s.returnTo core ⟨ctx, id, seq, part, data, fault⟩
  | .atomic core ctx id seq write => (s.storeAnswer core ctx write 0 none).returnTo core ⟨ctx, id, seq, 0, data, fault⟩
  | .store core ctx seq part => s.storeAnswer core ctx seq part fault
  | .copySrc core ch uid row part => s.copyAnswer core ch uid row part false res
  | .copyDst core ch uid row part => s.copyAnswer core ch uid row part true res
  | .host _ => s
  | .none => s

/-- The die of a requester. -/
def Requester.die : Requester → Nat
  | .load c _ _ _ _ | .store c _ _ _ | .atomic c _ _ _ _ | .copySrc c _ _ _ _ | .copyDst c _ _ _ _ => coreDie c
  | .host _ | .none => 15

/-! ### Sending (R19, R20) -/

/-- An ERROR for a discarded packet of class request, reduce or bulk, from this package's Z die (R50). -/
def State.errorFor (s : State) (p : Packet) (code : Nat) : State :=
  if p.cls = 0 || p.cls = 2 || p.cls = 3 then
    { s with zin := s.zin ++ [⟨none, none, false, false, p.respond (srcOf s.pkgId 511 0) 0x0C code []⟩] }
  else s

/-- The internal drop counter of a die, among the drop counters: ports 0 to 127 come first (R19, R50). -/
def dieDrops (die : Nat) : Nat := 1024 + die
/-- A discard counted in the internal drop counter of a die. -/
def State.dieDrop (s : State) (die : Nat) : State :=
  { s with drops := Assoc.put s.drops (dieDrops die) (Assoc.get s.drops (dieDrops die) 0 + 1) }
/-- A discard at the Z die of a packet that came from a die-to-die module. -/
def State.zDrop (s : State) : State := s.dieDrop 14
/-- A discard counted at the place where the packet came in: a Forip port, or the Z die for a die-to-die module (R50). -/
def State.countDrop (s : State) (port : Option Nat) : State :=
  match port with
  | none => s.zDrop
  | some p => { s with drops := Assoc.put s.drops p (satInc 0xFFF (Assoc.get s.drops p 0)) }

/-- A message whose path is down (R20): its originating request completes with 0x8F at its issuer. For a response on its way to the
Z die, the Z die sends the issuer the ERROR in its place. -/
def State.lose (s : State) (m : IMsg) : State :=
  match m.payload with
  | .request r => s.answer r.who (.err 0x8F)
  | .reply who _ => s.answer who (.err 0x8F)
  | .outbound r => s.answer r.who (.err 0x8F)
  | .inval core ctx lq seq _ _ => s.returnTo core ⟨ctx, lq, seq, 0, [], some 0x8F⟩
  | .packet p =>
    if p.cls = 0 || p.cls = 2 || p.cls = 3 then
      s.modCore (srcCore p.src) (fun k => { k with rx := k.rx ++ [.packet none (p.respond p.src 0x0C 0x8F [])] })
    else if p.cls = 1 then
      { s with zin := s.zin ++ [⟨none, none, false, false,
        ({ p with opc := 0x0C, oparg := 0, len := 0, status := 0x8F, payload := [] } : Packet).sealed⟩] }
    else s
  | .deliver _ p port => (s.errorFor p 0x8F).countDrop port
  | .walk core _ => s.modCore core (fun k => { k with stalled := false })
  | .marker _ => s

/-- A message accepted by its destination die. -/
def State.accept (s : State) (m : IMsg) : State :=
  match m.payload with
  | .packet p => { s with zin := s.zin ++ [⟨none, none, false, false, p⟩] }
  | .deliver core p port => s.modCore core (fun k => { k with rx := k.rx ++ [.packet port p] })
  | .request r => { s with mem := { s.mem with reqs := s.mem.reqs ++ [r] } }
  | .reply who res => s.answer who res
  | .outbound r => { s with outReqs := s.outReqs ++ [r] }
  | .inval core ctx lq seq page desc =>
    let i : Invalidation := ⟨field desc.toNat 63 48, desc.getLsbD 3, field page.toNat 56 12, field desc.toNat 39 8,
      some (core, ctx, lq, seq)⟩
    let q := s.mem.invQueue
    if q.length < 16 then { s with mem := { s.mem with invQueue := q ++ [i] } }
    else { s with mem := { s.mem with invWaiting := s.mem.invWaiting ++ [i] } }
  | .walk core miss => s.requestWalk (.core core) miss
  | .marker v => { s with mem := { s.mem with markers := s.mem.markers ++ [(m.dst, v)] } }

/-- A message put on its next module from a die, or lost when the path is down. -/
def State.hop (s : State) (die : Nat) (m : IMsg) : State :=
  let nxt := nextDie die m.dst
  if !s.pathUp die nxt then s.lose m
  else match s.moduleOf m.stream die nxt with
    | some (k, s) =>
      let d := if (modDies k).1 = die then 0 else 1
      s.modModule k (fun x => x.setDir d (fun l => { l with queue := l.queue ++ [(m, 0)] }))
    | none => s.lose m

/-- A message sent from a die to another on a stream of class `cls` of a source unit; one die's own traffic crosses no
module. -/
def State.sendInternal (s : State) (src dst cls unit : Nat) (p : Payload) : State :=
  let m : IMsg := ⟨src, dst, cls, unit, 0, p⟩
  if src = dst then s.accept m
  else
    let key := m.stream
    let n := Assoc.get s.streamNum key 0
    let s := { s with streamNum := Assoc.put s.streamNum key ((n + 1) % 2 ^ 16) }
    s.hop src { m with num := n }

/-- The source units of R19: cores, copy channels, and the fixed units of the other dies. -/
def chanUnit (core ch : Nat) : Nat := 320 + 16 * core + ch
/-- A fixed unit of a die. -/
def fixedUnit (die k : Nat) : Nat := 8192 + 32 * die + k

/-- A memory request sent from a die to its unit's die (R89). -/
def State.requestMemory (s : State) (die unit : Nat) (r : MemReq) : State :=
  s.sendInternal die (unitDie r.unit) 0 unit (.request r)

/-- A bundle that cannot be translated yet: the core asks the H die for its walks and stalls until they end (R61, R107). -/
def State.stall (s : State) (c : Nat) (pages : List Miss) : State :=
  pages.foldl (fun s p => s.sendInternal (coreDie c) 15 0 c (.walk c p)) (s.modCore c (fun k => { k with stalled := true }))

/-- An answer sent from a die to a requester. -/
def State.reply (s : State) (die unit : Nat) (who : Requester) (res : Answer) : State :=
  s.sendInternal die who.die 1 unit (.reply who res)

end Sys2Proof.Machine
end

