-- ==== Sys2Proof/Machine/Operands.lean ====
section
/-!
DEFINITION. Reading operands (R290, R291, R311, R343): registers, latches, pops and zero, with the pending check of R230.
-/
namespace Sys2Proof.Machine
open Sys2Proof

/-- The register files that a selector may name (R290). -/
inductive File where
  | s | v
  deriving DecidableEq, Repr

/-- fit(x, width) (R291): bits 63:0 for a 64-bit operand. -/
def fit (file : File) (x : Row) : Row :=
  match file with
  | .s => (x.setWidth 64).setWidth 2048
  | .v => x

/-- The destination that names a register, for the pending check. -/
def Context.regDest (t : Context) (file : File) (n : BitVec 6) : Dest :=
  match file with
  | .s => t.sDest n
  | .v => .v n

/-- The value of a register. -/
def Context.reg (t : Context) (file : File) (n : BitVec 6) : Row :=
  match file with
  | .s => (t.readS n).setWidth 2048
  | .v => vget t.v n.toNat

/-- A read of a register by a slot: 0x23 when the pending check is on and its bit is set (R230). -/
def State.readReg (s : State) (k : Slot) (file : File) (n : BitVec 6) : Option Row × State :=
  if s.cx.pendChk && s.cx.pending (s.cx.regDest file n) then (none, s.fail k 0x23)
  else (some (s.cx.reg file n), s)

/-- A read of predicate register q_n by a slot. -/
def State.readQ (s : State) (k : Slot) (n : BitVec 3) : Option Word × State :=
  if s.cx.pendChk && s.cx.pending (.q n) then (none, s.fail k 0x23) else (some (vget s.cx.q n.toNat), s)

/-- The load queue with its oldest unpopped entry popped, and that entry. -/
def popOldest : List LoadEntry → Option (LoadEntry × List LoadEntry)
  | [] => none
  | e :: t =>
    if e.popped then (popOldest t).map (fun p => (p.1, e :: p.2))
    else some (e, { e with popped := true } :: t)

/-- pop() (R198, R291): 0x43 with no entry, a block while its data is awaited, and the fault that its data carries. -/
def State.pop (s : State) (k : Slot) : Option Row × State :=
  match popOldest s.cx.lq with
  | none => (none, s.fail k 0x43)
  | some (e, l) =>
    let s := s.modCx (fun t => { t with lq := l })
    if e.missing ≠ 0 then (none, s.blockOn 1 (.entry e.seq))
    else match e.fault with
      | some c => (none, s.fail k c)
      | none => (some e.data, s)

/-- operand(sel, file, width) (R291). -/
def State.operand (s : State) (k : Slot) (file : File) : Sel → Option Row × State
  | .reg n => s.readReg k file n
  | .latch n =>
    let l := s.ck.latch n.toNat
    if l.valid then (some (fit file l.value), s) else (none, s.latchMiss k)
  | .pop => match s.pop k with
    | (some x, s) => (some (fit file x), s)
    | (none, s) => (none, s)
  | .zero => (some 0, s)

/-- A scalar operand. -/
def State.opS (s : State) (k : Slot) (a : Sel) : Option Word × State :=
  match s.operand k .s a with
  | (x, s) => (x.map (·.setWidth 64), s)

/-- A vector operand. -/
def State.opV (s : State) (k : Slot) (a : Sel) : Option Row × State := s.operand k .v a

/-- A scalar register read as a source. -/
def State.srcS (s : State) (k : Slot) (n : BitVec 6) : Option Word × State :=
  match s.readReg k .s n with
  | (x, s) => (x.map (·.setWidth 64), s)

/-- What a slot does with one operand that was read; a missing one leaves only what its read noted. -/
def with1 {α : Type} (p : Option α × State) (f : α → State → State) : State :=
  match p with
  | (some x, s) => f x s
  | (none, s) => s

/-- One scalar operand. -/
def State.with1S (s : State) (k : Slot) (a : Sel) (f : Word → State → State) : State := with1 (s.opS k a) f

/-- Two scalar operands, a before b. -/
def State.with2S (s : State) (k : Slot) (a b : Sel) (f : Word → Word → State → State) : State :=
  match s.opS k a with
  | (x, s) => match s.opS k b, x with
    | (some y, s), some x => f x y s
    | (_, s), _ => s

/-- One vector operand. -/
def State.with1V (s : State) (k : Slot) (a : Sel) (f : Row → State → State) : State := with1 (s.opV k a) f

/-- Two vector operands, a before b. -/
def State.with2V (s : State) (k : Slot) (a b : Sel) (f : Row → Row → State → State) : State :=
  match s.opV k a with
  | (x, s) => match s.opV k b, x with
    | (some y, s), some x => f x y s
    | (_, s), _ => s

/-- A literal word of the launch (R309, R396): 0x76 outside its range; 0x27, marked so that the core is
removed, when the read is uncorrectable. -/
def State.literal (s : State) (i : Nat) : Except Nat (BitVec 32) :=
  match s.cl with
  | none => .error 0x76
  | some l =>
    if !l.inLiterals i then .error 0x76
    else if s.ck.badLmem.contains i then .error 0x127
    else .ok (Assoc.get s.ck.lmem i 0)

/-! ### Predication and write-back (R343) -/

/-- The predicate register that governs a slot (R300). -/
def predOf : Slot → BitVec 3
  | .v1 => 1 | .v2 => 2 | .x => 3 | _ => 0

/-- The predicate of a slot, read when P = 1; all ones otherwise. -/
def State.withPred (s : State) (k : Slot) (p : Bool) (f : Word → State → State) : State :=
  if p then with1 (s.readQ k (predOf k)) f else f (BitVec.allOnes 64) s

/-- The destination register as it stands at the read (R343). -/
def State.withOld (s : State) (k : Slot) (dst : BitVec 6) (f : Row → State → State) : State :=
  with1 (s.readReg k .v dst) f

/-- The result row of an operation on n elements b bits wide: f where the governing bit is 1, the merge value elsewhere;
and the flags of the elements that are predicated on (R343, R344). -/
def lanes (b n : Nat) (m : Nat) (old : Nat) (f : Nat → Nat × Nat) : Row × Nat :=
  let l := (List.range n).map (fun i => if m.testBit (i / (n / 64)) then f i else (elem b old i, 0))
  (BitVec.ofNat 2048 (ofElems b (l.map (·.1))), l.foldl (fun a p => a ||| p.2) 0)

end Sys2Proof.Machine
end

