-- ==== Sys2Proof/Machine/Scalar.lean ====
section
/-!
DEFINITION. The scalar arithmetic, logic, constant and literal operations (R311 to R319).
-/
namespace Sys2Proof.Machine
open Sys2Proof

/-- A scalar operation with two sources: r is written with the latency given (R311). -/
def scalar2 (f : SR) (lat : Nat) (r : Word → Word → Word) (s : State) : State :=
  s.with2S f.slot f.a f.b (fun x y s => s.writeS f.slot f.dst lat (r x y))

/-- A scalar operation with one source. -/
def scalar1 (f : SU) (r : Word → Word) (s : State) : State :=
  s.with1S f.slot f.a (fun x s => s.writeS f.slot f.dst 1 (r x))

/-- A scalar operation with an immediate. -/
def scalarImm (f : SI) (r : Word → Word → Word) (s : State) : State :=
  s.with1S f.slot f.a (fun x s => s.writeS f.slot f.dst 1 (r x (f.imm.signExtend 64)))

/-- A shift by an immediate. -/
def scalarShift (f : SH) (r : Word → Nat → Word) (s : State) : State :=
  s.with1S f.slot f.a (fun x s => s.writeS f.slot f.dst 1 (r x f.imm.toNat))

/-- A scalar operation that also reads its destination, after its selectors (R311). -/
def scalar3 (f : SR) (r : Word → Word → Word → Word) (s : State) : State :=
  s.with2S f.slot f.a f.b (fun x y s =>
    with1 (s.srcS f.slot f.dst) (fun d s => s.writeS f.slot f.dst 1 (r x y d)))

/-- The shift count y mod 64 (R313). -/
def shiftCount (y : Word) : Nat := y.toNat % 64

/-- x shifted left by k below 64. -/
def shiftL (x : Word) (k : Nat) : Word := x <<< k
/-- x shifted right by k, unsigned. -/
def shiftR (x : Word) (k : Nat) : Word := x >>> k
/-- x shifted right by k, signed. -/
def shiftA (x : Word) (k : Nat) : Word := x.sshiftRight k

/-- 1 or 0 as a result. -/
def ofBool (b : Bool) : Word := if b then 1 else 0

/-- The conditions of cmp (R315). -/
def cmpHolds (c : Cmp) (x y : Word) : Bool :=
  match c with
  | .eq => x == y
  | .ne => x != y
  | .lt => x.slt y
  | .ge => !x.slt y
  | .ltn => x.ult y
  | .gen => !x.ult y

/-- The quotient and remainder of R317; the sources say what a zero divisor and the signed overflow give. -/
def quotient (isSigned : Bool) (x y : Word) : Word × Word :=
  if y = 0 then (BitVec.allOnes 64, x)
  else if isSigned then
    (BitVec.ofInt 64 (x.toInt.tdiv y.toInt), BitVec.ofInt 64 (x.toInt.tmod y.toInt))
  else (x / y, x % y)

/-- The division operations (R317): 0x66 for a zero divisor when INTDZ = 1. -/
def scalarDivide (f : SR) (r : Word → Word → Word) (s : State) : State :=
  s.with2S f.slot f.a f.b (fun x y s =>
    if y = 0 && s.cx.fpflags.getLsbD 45 then s.fail f.slot 0x66 else s.writeS f.slot f.dst 12 (r x y))

/-- Leading zeros (R318). -/
def leadingZeros (x : Word) : Nat := 64 - bitLen x.toNat

/-- The width of bfx and bins (R318). -/
def bitWidth (fn : BitVec 5) : Nat := fn.toNat + 1

/-- bins: d with bits min(p + w, 64) - 1 : p replaced by the low bits of x (R318). -/
def insertBits (w p : Nat) (x d : Word) : Word :=
  BitVec.ofNat 64 (setField d.toNat (min (p + w) 64 - 1) p x.toNat)

/-- add (R313). -/
def execAdd (f : SR) (s : State) : Res := .next (scalar2 f 1 (fun x y => x + y) s)

/-- sub (R313). -/
def execSub (f : SR) (s : State) : Res := .next (scalar2 f 1 (fun x y => x - y) s)

/-- and (R313). -/
def execAnd (f : SR) (s : State) : Res := .next (scalar2 f 1 (fun x y => x &&& y) s)

/-- or (R313). -/
def execOr (f : SR) (s : State) : Res := .next (scalar2 f 1 (fun x y => x ||| y) s)

/-- xor (R313). -/
def execXor (f : SR) (s : State) : Res := .next (scalar2 f 1 (fun x y => x ^^^ y) s)

/-- andn (R313). -/
def execAndn (f : SR) (s : State) : Res := .next (scalar2 f 1 (fun x y => x &&& ~~~y) s)

/-- sll: the low six bits of y count (R313). -/
def execSll (f : SR) (s : State) : Res := .next (scalar2 f 1 (fun x y => shiftL x (shiftCount y)) s)

/-- srl (R313). -/
def execSrl (f : SR) (s : State) : Res := .next (scalar2 f 1 (fun x y => shiftR x (shiftCount y)) s)

/-- sra (R313). -/
def execSra (f : SR) (s : State) : Res := .next (scalar2 f 1 (fun x y => shiftA x (shiftCount y)) s)

/-- rol (R313). -/
def execRol (f : SR) (s : State) : Res := .next (scalar2 f 1 (fun x y => x.rotateLeft (shiftCount y)) s)

/-- min, signed (R313). -/
def execMin (f : SR) (s : State) : Res := .next (scalar2 f 1 (fun x y => if y.slt x then y else x) s)

/-- max, signed (R313). -/
def execMax (f : SR) (s : State) : Res := .next (scalar2 f 1 (fun x y => if x.slt y then y else x) s)

/-- minn, unsigned (R313). -/
def execMinn (f : SR) (s : State) : Res := .next (scalar2 f 1 (fun x y => if y.ult x then y else x) s)

/-- maxn, unsigned (R313). -/
def execMaxn (f : SR) (s : State) : Res := .next (scalar2 f 1 (fun x y => if x.ult y then y else x) s)

/-- cmp (R315). -/
def execCmpCc (f : SR) (c : Cmp) (s : State) : Res := .next (scalar2 f 1 (fun x y => ofBool (cmpHolds c x y)) s)

/-- cmov: the destination is written in both cases (R315). -/
def execCmov (f : SR) (s : State) : Res := .next (scalar3 f (fun x y d => if x ≠ 0 then y else d) s)

/-- mul (R316). -/
def execMul (f : SR) (s : State) : Res := .next (scalar2 f 3 (fun x y => x * y) s)

/-- mulh: the high half of the signed product (R316). -/
def execMulh (f : SR) (s : State) : Res := .next (scalar2 f 3 (fun x y => BitVec.ofInt 64 (x.toInt * y.toInt / 2 ^ 64)) s)

/-- mulhn: the high half of the unsigned product (R316). -/
def execMulhn (f : SR) (s : State) : Res := .next (scalar2 f 3 (fun x y => BitVec.ofNat 64 (x.toNat * y.toNat / 2 ^ 64)) s)

/-- div (R317). -/
def execDiv (f : SR) (s : State) : Res := .next (scalarDivide f (fun x y => (quotient true x y).1) s)

/-- divn (R317). -/
def execDivn (f : SR) (s : State) : Res := .next (scalarDivide f (fun x y => (quotient false x y).1) s)

/-- rem (R317). -/
def execRem (f : SR) (s : State) : Res := .next (scalarDivide f (fun x y => (quotient true x y).2) s)

/-- remn (R317). -/
def execRemn (f : SR) (s : State) : Res := .next (scalarDivide f (fun x y => (quotient false x y).2) s)

/-- clz (R318). -/
def execClz (f : SU) (s : State) : Res := .next (scalar1 f (fun x => BitVec.ofNat 64 (leadingZeros x)) s)

/-- ctz (R318). -/
def execCtz (f : SU) (s : State) : Res := .next (scalar1 f (fun x => BitVec.ofNat 64 (trailingZeros 64 x.toNat)) s)

/-- popc (R318). -/
def execPopc (f : SU) (s : State) : Res := .next (scalar1 f (fun x => BitVec.ofNat 64 (popCount 64 x.toNat)) s)

/-- bfx: a field of width fn + 1 at bit y mod 64 of x (R318). -/
def execBfx (f : SR) (fn : BitVec 5) (s : State) : Res :=
  .next (scalar2 f 1 (fun x y => BitVec.ofNat 64 (x.toNat / 2 ^ shiftCount y % 2 ^ bitWidth fn)) s)

/-- bins (R318). -/
def execBins (f : SR) (fn : BitVec 5) (s : State) : Res :=
  .next (scalar3 f (fun x y d => insertBits (bitWidth fn) (shiftCount y) x d) s)

/-- brev (R318). -/
def execBrev (f : SU) (s : State) : Res := .next (scalar1 f (fun x => BitVec.ofNat 64 (reverseBits 64 x.toNat)) s)

/-- addi (R314). -/
def execAddi (f : SI) (s : State) : Res := .next (scalarImm f (fun x i => x + i) s)

/-- andi (R314). -/
def execAndi (f : SI) (s : State) : Res := .next (scalarImm f (fun x i => x &&& i) s)

/-- ori (R314). -/
def execOri (f : SI) (s : State) : Res := .next (scalarImm f (fun x i => x ||| i) s)

/-- xori (R314). -/
def execXori (f : SI) (s : State) : Res := .next (scalarImm f (fun x i => x ^^^ i) s)

/-- slli (R314). -/
def execSlli (f : SH) (s : State) : Res := .next (scalarShift f shiftL s)

/-- srli (R314). -/
def execSrli (f : SH) (s : State) : Res := .next (scalarShift f shiftR s)

/-- srai (R314). -/
def execSrai (f : SH) (s : State) : Res := .next (scalarShift f shiftA s)

/-- slti (R314). -/
def execSlti (f : SI) (s : State) : Res := .next (scalarImm f (fun x i => ofBool (x.slt i)) s)

/-- sltni: the sign-extended immediate compares as unsigned (R314). -/
def execSltni (f : SI) (s : State) : Res := .next (scalarImm f (fun x i => ofBool (x.ult i)) s)

/-- seqi (R314). -/
def execSeqi (f : SI) (s : State) : Res := .next (scalarImm f (fun x i => ofBool (x == i)) s)

/-- movl: imm sign-extended from bit 18 (R319). -/
def execMovl (f : SL) (s : State) : Res := .next (s.writeS f.slot f.dst 1 (f.imm.signExtend 64))

/-- movh: imm fills bits 63:45 above the destination's bits 44:0 (R319). -/
def execMovh (f : SL) (s : State) : Res :=
  .next (with1 (s.srcS f.slot f.dst) (fun d s =>
    s.writeS f.slot f.dst 1 (BitVec.ofNat 64 (f.imm.toNat * 2 ^ 45 + d.toNat % 2 ^ 45))))

/-- ldl: literal word idx, or 0x76 outside the launch's literal range (R319). -/
def execLdl (k : Slot) (_h : Bool) (dst : BitVec 6) (idx : BitVec 14) (s : State) : Res :=
  .next (match s.literal idx.toNat with
    | .ok x => s.writeS k dst 1 (x.setWidth 64)
    | .error c => s.fail k c)

end Sys2Proof.Machine
end

