-- ==== Sys2Proof/Machine/Control.lean ====
section
/-!
DEFINITION. Branches, calls, the end of an iteration, yields, traps and the return from a handler (R320 to R328). Each
notes what its bundle's commit does.
-/
namespace Sys2Proof.Machine
open Sys2Proof

/-- A taken transfer of the bundle being issued (R320, R323): its target, an index outside every image where it lies below 0 or
above 16,383. -/
def State.transfer (s : State) (t : Int) : State := s.note (fun r => { r with transfer := some (wrap 64 t) })

/-- The condition of a br (R321). -/
def brTaken (c : BrCond) (x : Word) : Bool :=
  match c with
  | .always => true
  | .z => x == 0
  | .nz => x != 0
  | .lt => x.msb
  | .ge => !x.msb

/-- br.cc (R321): the target is the branch's own index + off. -/
def execBrCc (c : BrCond) (a : Sel) (off : BitVec 15) (s : State) : Res :=
  .next (s.with1S .s0 a (fun x s => if brTaken c x then s.transfer (s.issue.pc + off.toInt) else s))

/-- loop (R322): sN - 1 is written with latency 1, and the loop is taken while it is not 0. -/
def execLoop (a : BitVec 6) (off : BitVec 15) (s : State) : Res :=
  .next (with1 (s.srcS .s0 a) (fun x s =>
    let s := s.writeS .s0 a 1 (x - 1)
    if x - 1 ≠ 0 then s.transfer (s.issue.pc + off.toInt) else s))

/-- call (R323): the link is the call's own index + 2, with latency 2. -/
def execCall (dst : BitVec 6) (target : BitVec 14) (s : State) : Res :=
  .next ((s.writeS .s0 dst 2 (BitVec.ofNat 64 (s.issue.pc + 2))).transfer target.toNat)

/-- jr (R323): to bundle x[13:0]. -/
def execJr (a : Sel) (s : State) : Res := .next (s.with1S .s0 a (fun x s => s.transfer (x.toNat % 2 ^ 14)))

/-- exit (R325): the tile iteration ends when the bundle commits. -/
def execExit (s : State) : Res := .next ((s.note (fun r => { r with exits := true })).commitsAfter)

/-- yield (R326): the core switches after the bundle has committed. -/
def execYield (s : State) : Res := .next (s.note (fun r => { r with yields := true }))

/-- trap (R327): a kind-K fault with its code. -/
def execTrap (num : BitVec 12) (s : State) : Res := .next (s.fail .s0 num.toNat)

/-- uret (R328, R210): with INH = 1 the bundle commits the handler's held region and returns; with INH = 0 it is a restart
point. -/
def execUret (s : State) : Res :=
  .next (if s.cx.inh then (s.note (fun r => { r with urets := true })).commitsAfter
    else s.note (fun r => { r with mark := true }))

end Sys2Proof.Machine
end

