-- ==== Sys2Proof/Machine/System.lean ====
section
/-!
DEFINITION. Status registers, scopes, windows, invalidation and the no-operation class (R293, R308, R329 to R339).
-/
namespace Sys2Proof.Machine
open Sys2Proof

/-! ### Status images (R185, R228, R285) -/

/-- LANDED as a reader sees it in a core cycle: it advances in the cycle after a row's write (R228). -/
def Channel.landedAt (c : Channel) (cycle : Nat) : Nat :=
  match c.pendingLanded with
  | some (written, old) => if cycle ≤ written then old else c.landed
  | none => c.landed

/-- ACTIVE is 1 up to and including the entry's completion cycle (R228). -/
def Channel.activeAt (c : Channel) (cycle : Nat) : Bool := c.active || cycle < c.idleUntil

/-- The watermark register of a channel (R228). -/
def Channel.wm (c : Channel) (cycle : Nat) : Nat :=
  b2n c.err * 2 ^ 63 + b2n (c.activeAt cycle) * 2 ^ 62 + c.shot * 2 ^ 32 + c.landedAt cycle

/-- The status register of a channel (R285). -/
def Channel.chst (c : Channel) : Nat := c.code * 2 ^ 56 + c.overrun * 2 ^ 32 + c.queue.length * 2 ^ 28

/-- covf, coverr and covstep of a launch (R185): zero without coverage. -/
def Launch.covRegs (l : Launch) : Nat × Nat × Nat :=
  match l.cov with
  | some c =>
    (l.f 48 12 9 * 2 ^ 48 + l.f 48 30 22 * 2 ^ 32 + l.f 48 21 13 * 2 ^ 16 + c.f,
      c.accum * 2 ^ 32 + c.lasterr,
      c.ncmp * 2 ^ 48 + c.since * 2 ^ 32 + l.f 49 15 0 * 2 ^ 16 + l.f 48 39 31)
  | none => (0, 0, 0)

/-- place (R332). -/
def Launch.placeReg (l : Launch) (core : Nat) : Nat := l.lid.toNat * 2 ^ 32 + l.place.length * 2 ^ 16 + l.ordinal core

/-- The slate of a launch on a core (R282). -/
def Core.slate (k : Core) (launch : Option Nat) : BitVec 16 :=
  match launch with
  | some l => Assoc.get k.slates l 0
  | none => 0

/-- A bf16 quarter of a codebook register (R332). -/
def kbQuarter (kb : BitVec 256) (h : Nat) : Nat := field kb.toNat (64 * h + 63) (64 * h)

/-- The status register of a number, as it stands (R331, R332). -/
def State.statusRead (s : State) (num : Nat) : Nat :=
  let t := s.cx
  let k := s.ck
  let cov := (s.cl.map Launch.covRegs).getD (0, 0, 0)
  if num = 0x000 then t.ctxState .issuing
  else if num = 0x001 then t.fpflags.toNat
  else if num = 0x002 then t.fpfirst.toNat
  else if num = 0x003 then t.uctl.toNat
  else if num = 0x004 then t.uip.toNat
  else if num = 0x005 then t.ucause.toNat
  else if num = 0x006 then t.shp.toNat
  else if num = 0x007 then t.lpc.toNat
  else if num = 0x008 then t.g.toNat
  else if num = 0x010 then cov.1
  else if num = 0x011 then cov.2.1
  else if num = 0x012 then cov.2.2
  else if num = 0x013 then k.seqst.toNat
  else if num = 0x014 then t.gfrec.toNat
  else if 0x020 ≤ num ∧ num ≤ 0x02F then (k.chan (num - 0x020)).wm s.cycle
  else if 0x030 ≤ num ∧ num ≤ 0x03F then (k.chan (num - 0x030)).chst
  else if num = 0x040 then s.elapsed
  else if num = 0x041 then t.cc - t.ccBase
  else if num = 0x042 then s.ticks
  else if num = 0x043 then s.pkgId * 2 ^ 11 + s.issue.ctx * 2 ^ 9 + s.issue.core
  else if num = 0x044 then (s.cl.map (fun l => l.placeReg s.issue.core)).getD 0
  else if num = 0x045 then (k.slate t.launch).toNat
  else if 0x050 ≤ num ∧ num ≤ 0x057 then (vget t.xp (num - 0x050)).toNat
  else if 0x060 ≤ num ∧ num ≤ 0x07F then kbQuarter (vget t.kb ((num - 0x060) / 4)) ((num - 0x060) % 4)
  else if 0x080 ≤ num ∧ num ≤ 0x08F then (vget t.sc (num - 0x080)).toNat
  else 0

/-- The rc fields of a status register cleared (R329). -/
def State.statusClear (s : State) (num : Nat) : State :=
  if num = 0x000 then s.modCx (fun t => { t with ttcount := 0 })
  else if num = 0x005 then s.modCx (fun t => { t with ucause := 0, tagHeld := false })
  else if 0x030 ≤ num ∧ num ≤ 0x03F then s.modCk (fun k => k.modChan (num - 0x030) (fun c => { c with overrun := 0 }))
  else s

/-- A status register written field by field, by Type (R330, R332): a w1c bit that hardware has set in this core cycle stays
set. -/
def Context.statusWrite (t : Context) (num : Nat) (x : Word) : Context :=
  if num = 0x001 then
    let f := field x.toNat 45 40 * 2 ^ 40 + (t.fpflags &&& ~~~x ||| t.fresh.flags).toNat % 2 ^ 40
    { t with fpflags := BitVec.ofNat 64 f }
  else if num = 0x002 then
    { t with fpfirst := if x.msb && !t.fresh.first then t.fpfirst &&& BitVec.ofNat 64 (2 ^ 63 - 1) else t.fpfirst }
  else if num = 0x003 then { t with uctl := BitVec.ofNat 64 (x.toNat % 2 ^ 16) }
  else if num = 0x004 then { t with uip := t.uip &&& ~~~(x.setWidth 17) ||| t.fresh.uip }
  else if num = 0x007 then { t with lpc := x.setWidth 14 }
  else if num = 0x008 then { t with g := if x.setWidth 32 = 0 then 1 else x.setWidth 32 }
  else if 0x050 ≤ num ∧ num ≤ 0x057 then
    -- xp bits 63:44 and 15:11 are reserved (R273)
    { t with xp := vset t.xp (num - 0x050) (x &&& 0x00000FFFFFFF07FF#64) }
  else if 0x060 ≤ num ∧ num ≤ 0x07F then
    let i := (num - 0x060) / 4
    let h := (num - 0x060) % 4
    { t with kb := vset t.kb i (BitVec.ofNat 256 (setField (vget t.kb i).toNat (64 * h + 63) (64 * h) x.toNat)) }
  else if 0x080 ≤ num ∧ num ≤ 0x08F then { t with sc := vset t.sc (num - 0x080) (x.setWidth 8) }
  else t

/-! ### Status registers (R329 to R333) -/

/-- srd (R329): latency 2; rc fields clear in the issue cycle, and such a bundle commits its region (R333). -/
def execSrd (k : Slot) (dst : BitVec 6) (num : BitVec 12) (s : State) : Res :=
  let x := BitVec.ofNat 64 (s.statusRead num.toNat)
  let s := s.writeS k dst 2 x
  .next (if srdClears num.toNat then (s.statusClear num.toNat).commitsAfter else s)

/-- swr (R330): the register is written when the bundle commits. -/
def execSwr (a : Sel) (num : BitVec 12) (s : State) : Res :=
  .next (s.with1S .s0 a (fun x s =>
    (s.note (fun r => { r with writes := r.writes ++ [.status num.toNat x] })).commitsAfter))

/-! ### Scopes and windows (R334 to R337) -/

/-- A scope entry that R334 accepts. -/
def scopeOk (e : Nat) : Bool :=
  let kind := e % 4
  if kind = 0 then e == 0
  else
    let zero := field e 15 2 == 0 && field e 31 29 == 0 && field e 63 44 == 0 && field e 511 384 == 0
    if kind = 1 then zero && field e 43 32 == 0 && field e 383 64 != 0
    else kind == 2 && zero && field e 28 16 == 0 && field e 383 64 == 0

/-- scopew (R335): bytes 63:0 of the operand become scope entry e when the bundle commits; a malformed image raises
0x35. -/
def execScopew (e : BitVec 5) (a : Sel) (s : State) : Res :=
  .next (s.with1V .s0 a (fun x s =>
    if scopeOk (x.toNat % 2 ^ 512) then
      (s.note (fun r => { r with writes := r.writes ++ [.scope e (x.setWidth 512)] })).commitsAfter
    else s.fail .s0 0x35))

/-- winw (R336): w_w := [B, A] when the bundle commits; an image that R113 refuses raises 0x1A. -/
def execWinw (w : BitVec 4) (a b : Sel) (s : State) : Res :=
  .next (s.with2S .s0 a b (fun x y s =>
    let v := x.toNat + y.toNat * 2 ^ 64
    if winOk v then
      (s.note (fun r => { r with writes := r.writes ++ [.window w (BitVec.ofNat 128 v)] })).commitsAfter
    else s.fail .s0 0x1A))

/-- winr (R337): one half of window w, with latency 2. -/
def execWinr (k : Slot) (dst : BitVec 6) (w : BitVec 4) (hi : Bool) (s : State) : Res :=
  let v := (vget s.cx.w w.toNat).toNat
  .next (s.writeS k dst 2 (BitVec.ofNat 64 (if hi then v / 2 ^ 64 else v)))

/-! ### Queue entries (R196, R198) -/

/-- The queue places that are taken (R196): a global entry holds its place until it is sent, a remote one until it
completes. -/
def Context.storesFull (t : Context) : Bool := 64 ≤ t.sq.length

/-- The lowest number below n that is not used. -/
def freeSlot (used : List Nat) (n : Nat) : Nat := ((List.range n).find? (fun i => !used.contains i)).getD 0

/-- A load-queue entry pushed (R198): 0x44 when all 32 are allocated. Its issue number is the answer. -/
def State.pushLoad (s : State) (k : Slot) (kind : LoadKind) (reqs : List LoadReq) (missing : Nat) (word : Option Nat) :
    Option Nat × State :=
  let t := s.cx
  if 32 ≤ t.lq.length then (none, s.fail k 0x44)
  else
    let e : LoadEntry :=
      ⟨freeSlot (t.lq.map (·.id)) 32, t.seq, kind, reqs, false, true, missing, word, 0, none⟩
    (some t.seq, s.modCx (fun t => { t with lq := t.lq ++ [e], seq := t.seq + 1 }))

/-- A store-queue entry pushed (R198): a full queue blocks while an entry is committed, and raises 0x44 otherwise. -/
def State.pushStore (s : State) (k : Slot) (op : StoreOp) (addr : Nat) (data : Row) (lq : Option Nat)
    (window : Option (Nat × Nat)) (fabric : Nat) : State :=
  let t := s.cx
  if t.storesFull then
    if t.sq.any (fun e => e.status != .held) then s.blockOn 2 .place else s.fail k 0x44
  else
    let e : StoreEntry := ⟨freeSlot (t.sq.map (·.id)) 64, t.seq, op, .held, addr, data, lq, window, fabric, none⟩
    s.modCx (fun t => { t with sq := t.sq ++ [e], seq := t.seq + 1 })

/-- inval (R338, R339): PRIV = 1, otherwise 0x96; one entry in each queue. -/
def execInval (a b : Sel) (s : State) : Res :=
  if !s.cx.priv then .next (s.fail .s0 0x96)
  else .next (s.with2S .s0 a b (fun x y s =>
    match s.pushLoad .s0 .inval [] 1 none with
    | (some id, s) => s.pushStore .s0 (.inval x y) 0 0 (some id) none 0
    | (none, s) => s))

/-! ### The no-operation class (R294, R296, R308) -/

/-- idle does nothing in its slot (R294). -/
def execIdle (_k : Slot) (s : State) : Res := .next s

/-- kmark marks its bundle as a restart point (R294). -/
def execKmark (_k : Slot) (s : State) : Res := .next (s.note (fun r => { r with mark := true }))

/-- A hint does nothing, whatever its bits hold (R308). -/
def execHint (_k : Slot) (_h : Bool) (_bits : BitVec 25) (s : State) : Res := .next s

end Sys2Proof.Machine
end

