-- ==== Sys2Proof/Machine/Shot.lean ====
section
/-!
DEFINITION. Shot-list entries: their fields, their rows in landing order, and the watermarks (R229, R280, R281, R286);
the groups that the matrix array streams (R220); and the checks that an access of a local row meets (R363).
-/
namespace Sys2Proof.Machine
open Sys2Proof

/-! ### Fields of an entry (R280) -/

/-- Bits hi:lo of word k of an entry. -/
def shotField (e k hi lo : Nat) : Nat := field e (64 * k + hi) (64 * k + lo)
/-- KIND. -/
def shotKind (e : Nat) : Nat := shotField e 0 3 0
/-- CH. -/
def shotCh (e : Nat) : Nat := shotField e 0 7 4
/-- SLOC or DLOC. -/
def shotLocal (e : Nat) (dst : Bool) : Bool := shotField e 0 (8 + b2n dst) (8 + b2n dst) == 1
/-- TAGFILL. -/
def shotTagFill (e : Nat) : Bool := shotField e 0 10 10 == 1
/-- FOLLOW. -/
def shotFollow (e : Nat) : Bool := shotField e 0 11 11 == 1
/-- ISIDE. -/
def shotIside (e : Nat) : Bool := shotField e 0 12 12 == 1
/-- STAGE. -/
def shotStage (e : Nat) : Nat := shotField e 0 31 16
/-- SRC or DST. -/
def shotBase' (e : Nat) (dst : Bool) : Nat := shotField e (1 + b2n dst) 63 0
/-- ROWS. -/
def shotRows (e : Nat) : Nat := shotField e 3 15 0
/-- N1. -/
def shotN1 (e : Nat) : Nat := shotField e 3 31 16
/-- N2. -/
def shotN2 (e : Nat) : Nat := shotField e 3 47 32
/-- The line stride of a side. -/
def shotS1 (e : Nat) (dst : Bool) : Int := signed 32 (shotField e 4 (31 + 32 * b2n dst) (32 * b2n dst))
/-- The plane stride of a side. -/
def shotS2 (e : Nat) (dst : Bool) : Int := signed 32 (shotField e 5 (31 + 32 * b2n dst) (32 * b2n dst))
/-- TABLE. -/
def shotTable (e : Nat) : Nat := shotField e 6 56 0
/-- PADVAL. -/
def shotPad (e : Nat) : Nat := shotField e 7 31 0
/-- FANSET. -/
def shotFan (e : Nat) : Nat := shotField e 7 43 32
/-- MCAST. -/
def shotMcast (e : Nat) : Bool := shotField e 7 44 44 == 1
/-- TPP. -/
def shotTpp (e : Nat) : Nat := shotField e 7 63 48
/-- PGSIZE and T0, kind 5. -/
def shotPage (e : Nat) : Nat × Nat := (shotField e 4 31 0, shotField e 5 31 0)

/-- A side's address field that its reserved bits allow. -/
def shotAddrOk (e : Nat) (dst : Bool) : Bool :=
  let a := shotBase' e dst
  a % 256 == 0 && (!shotLocal e dst || (a < 2 ^ 24 && field a 23 22 != 3))

/-- The fields of an entry that R280 and R281 allow, but for what depends on windows and on the next entry. -/
def shotOk (e : Nat) : Bool :=
  let k := shotKind e
  k ≤ 6 && shotField e 0 15 13 == 0 && shotField e 0 63 32 == 0 && shotAddrOk e false && shotAddrOk e true
    && 1 ≤ shotRows e && shotRows e ≤ 8192 && 1 ≤ shotN1 e && 1 ≤ shotN2 e && (k == 2 || shotN2 e == 1)
    && shotField e 3 63 48 == 0 && shotField e 4 7 0 == 0 && shotField e 4 39 32 == 0 && shotField e 5 39 32 == 0
    && (k == 5 || shotField e 5 7 0 == 0) && (k != 5 || ((shotPage e).1 != 0 && shotTpp e != 0))
    && shotField e 6 63 57 == 0 && shotTable e % 4 == 0 && shotField e 7 47 45 == 0
    && (k == 6 || !shotMcast e) && (shotMcast e || shotFan e == 0)
    && (k != 6 || (shotLocal e false != shotLocal e true))

/-- A follow-on descriptor: KIND 15 with every bit zero but words 1 and 2 (R280). -/
def shotDescriptor (e : Nat) : Bool := shotField e 0 63 0 == 15 && e / 2 ^ 192 == 0

/-- The table words of an entry of kind 3 or 5: the first index and the count. -/
def shotTableSpan (e : Nat) : Nat × Nat :=
  if shotKind e = 3 then (0, shotN1 e)
  else if shotKind e = 5 then
    let t0 := (shotPage e).2
    let first := t0 / shotTpp e
    (first, (t0 + shotN1 e - 1) / shotTpp e + 1 - first)
  else (0, 0)

/-! ### Rows in landing order (R280, R286) -/

/-- Where a row of one side of an entry lies. -/
inductive Place where
  | row (b : Buf) (r : Nat)
  | outside
  | global (a : Nat)
  | pad (pastBatch : Bool)
  deriving DecidableEq, Repr

/-- The rows that an entry moves. -/
def shotCount' (e : Nat) : Nat := shotRows e * shotN1 e * shotN2 e

/-- The input pixel of output pixel i, as an index of pixels; none for a pad, with whether it lies past the batch
(R286). -/
def convPixel (d i : Nat) : Except Bool Nat :=
  let f (k hi lo : Nat) := shotField d k hi lo
  let n := f 0 15 0; let h := f 0 31 16; let w := f 0 47 32
  let oh := f 1 15 0; let ow := f 1 31 16
  let p := f 3 31 0 + i
  if n * oh * ow ≤ p then .error true
  else
    let b := p / (oh * ow); let oy := p % (oh * ow) / ow; let ox := p % ow
    let y : Int := oy * f 1 39 32 + f 1 55 48 - (f 2 7 0 : Nat)
    let x : Int := ox * f 1 47 40 + f 1 63 56 - (f 2 15 8 : Nat)
    if y < 0 || (h : Int) ≤ y || x < 0 || (w : Int) ≤ x then .error false
    else .ok ((b * h + y.toNat) * w + x.toNat)

/-- A convolution descriptor that R286 allows for an entry. -/
def convOk (d e : Nat) : Bool :=
  let f (k hi lo : Nat) := shotField d k hi lo
  f 0 15 0 != 0 && f 0 31 16 != 0 && f 0 47 32 != 0 && f 0 63 48 == shotRows e && f 1 15 0 != 0 && f 1 31 16 != 0
    && f 1 39 32 != 0 && f 1 47 40 != 0 && f 2 63 16 == 0 && f 3 63 32 == 0 && d / 2 ^ 256 == 0

/-- The byte offset of row i from the base of a side; none for a pad row. -/
def shotOffset (e : Nat) (table : List Nat) (conv i : Nat) (dst : Bool) : Except Bool Int :=
  let rows := shotRows e
  let r := i % rows
  let l := i / rows % shotN1 e
  let pl := i / rows / shotN1 e
  let k := shotKind e
  if k = 1 ∨ k = 2 then .ok (pl * shotS2 e dst + l * shotS1 e dst + 256 * r)
  else if k = 3 then
    .ok ((if shotIside e == dst then ((table.getD l 0 : Nat) : Int) else l) * shotS1 e dst + 256 * r)
  else if k = 5 ∧ shotIside e == dst then
    let t := (shotPage e).2 + l
    let page := table.getD (t / shotTpp e - (shotTableSpan e).1) 0
    .ok (page * (shotPage e).1 + t % shotTpp e * rows * 256 + 256 * r : Nat)
  else if k = 4 ∧ !dst then
    match convPixel conv l with
    | .ok px => .ok (px * rows * 256 + 256 * r : Nat)
    | .error past => .error past
  else .ok (256 * i : Nat)

/-- The place of row i of a side. -/
def shotPlace (e : Nat) (table : List Nat) (conv i : Nat) (dst : Bool) : Place :=
  match shotOffset e table conv i dst with
  | .error past => .pad past
  | .ok off =>
    let base := shotBase' e dst
    if shotLocal e dst then
      let b := bufOfCode (field base 23 22)
      let o : Int := field base 21 0 + off
      if o < 0 || ((bufRows b * 256 : Nat) : Int) ≤ o then .outside else .row b (o.toNat / 256)
    else .global (wrap 64 (base + off))

/-- The place of a row of an issued entry. -/
def CopyEntry.place (c : CopyEntry) (i : Nat) (dst : Bool) : Place :=
  shotPlace c.entry.toNat c.table c.conv.toNat i dst
/-- The rows that an issued entry copies. -/
def CopyEntry.rows (c : CopyEntry) : Nat := shotCount' c.entry.toNat
/-- Its landing indices: the copied rows and the 128 rows of a follow-on's tile (R284). -/
def CopyEntry.landings (c : CopyEntry) : Nat := c.rows + if c.follow.isSome then 128 else 0

/-- The C tile of a follow-on. -/
def CopyEntry.tile (c : CopyEntry) : Nat := (c.follow.map (fun f => field f.1.toNat 43 39)).getD 0

/-- The row that a landing index writes, if it is local. -/
def CopyEntry.landingRow (c : CopyEntry) (i : Nat) : Option (Buf × Nat) :=
  if i < c.rows then
    match c.place i true with
    | .row b r => some (b, r)
    | _ => none
  else some (.c, 128 * c.tile + (i - c.rows))

/-- The last landing index at or above `from` that writes a row. -/
def CopyEntry.writes (c : CopyEntry) (start : Nat) (b : Buf) (r : Nat) : Bool :=
  (List.range (c.landings - start)).any (fun i => c.landingRow (start + i) == some (b, r))

/-! ### Watermarks (R227, R229) -/

/-- A row is above a channel's watermark in a core cycle. -/
def Channel.above (c : Channel) (cycle : Nat) (b : Buf) (r : Nat) : Bool :=
  let l := c.queue ++ c.abandoned
  let cur := if c.active then l.head? else none
  let rest := if c.active then l.tail else l
  (match cur with
    | some e => e.writes (c.landedAt cycle) b r
    | none => false)
  || rest.any (fun e => e.writes 0 b r)
  || (!c.active && c.activeAt cycle && (match c.ended with
    | some e => e.writes (c.landedAt cycle) b r
    | none => false))

/-- A row is above the watermark of some channel of a core. -/
def Core.aboveAny (k : Core) (cycle : Nat) (b : Buf) (r : Nat) : Bool := k.chans.any (fun c => c.above cycle b r)

/-- The channels of a mask above whose watermark a row lies. -/
def Core.aboveOf (k : Core) (cycle mask : Nat) (b : Buf) (r : Nat) : List Nat :=
  (setBits 16 mask).filter (fun c => (k.chan c).above cycle b r)

/-- Why a slot does not act: a kind-K fault, a block, or the restart of R211. -/
inductive Stop where
  | fault (code : Nat)
  | block (code : Nat) (on : Wake)
  | handler
  deriving DecidableEq, Repr

/-- A slot's stop, noted. -/
def State.stop (s : State) (k : Slot) : Stop → State
  | .fault c => s.fail k c
  | .block c on => s.blockOn c on
  | .handler => s.note (fun r => { r with handler := true })

/-- A slot's effect, or the stop that prevents it. -/
def State.unless (s : State) (k : Slot) (o : Option Stop) (f : State → State) : State :=
  match o with
  | some x => s.stop k x
  | none => f s

/-- An access to a channel in error: the restart of R211 when its event waits and a handler is enabled, 0x72 otherwise. -/
def State.channelStop (s : State) (ch : Nat) : Stop :=
  if s.cx.uctl.getLsbD 0 && s.cx.uctl.getLsbD 1 && s.cx.uip.getLsbD ch then .handler else .fault 0x72

/-- CHMASK of the issuing context's launch. -/
def State.chmask (s : State) : Nat := (s.cl.map Launch.chmask).getD 0

/-- The core as the bundle being issued found it, as far as its channels go (R405, R406, R408). -/
def State.ckBefore (s : State) : Core := { s.ck with chans := s.issue.chans.getD s.ck.chans }

/-- The channels kept as the bundle being issued found them: what its slot 5 does to them takes place at commit. -/
def State.keepChans (s : State) : State := s.note (fun r => { r with chans := r.chans.or (some s.ck.chans) })

/-- R229 for the rows of one access: a block, R211, or nothing. -/
def State.watermark (s : State) (rows : List (Buf × Nat)) : Option Stop :=
  let l := (rows.map (fun p => s.ckBefore.aboveOf s.cycle s.chmask p.1 p.2)).flatten
  match l.find? (fun c => (s.ckBefore.chan c).err) with
  | some c => some (s.channelStop c)
  | none => if l.isEmpty then none else some (.block 3 (.rows rows))

/-! ### Streamed groups (R220) -/

/-- The operand groups of an array command. -/
def ArrayOp.groups : ArrayOp → List (Buf × Nat)
  | .mm md0 _ _ _ _ _ => [(.a, field md0.toNat 12 0 / 2048), (.w, field md0.toNat 26 13 / 2048)]
  | .accz _ => []

/-- The groups of a command, its further steps included. -/
def ArrayCmd.groups (c : ArrayCmd) : List (Buf × Nat) := c.op.groups ++ (c.more.map ArrayOp.groups).flatten

/-- A bank group is streamed in a core cycle. -/
def Core.streamed (k : Core) (cycle : Nat) (b : Buf) (g : Nat) : Bool :=
  k.array.any (fun c => c.entered ≤ cycle && cycle ≤ c.streamEnd && c.groups.contains (b, g))

/-! ### Guard bits (R231, R232) -/

/-- The bank of a row (R217). -/
def rowBank (b : Buf) (r : Nat) : Nat := 4 * (r / groupRows b) + r % 4

/-- The first touch of a guarded row by a context is recorded, by its source. -/
def Context.touch (t : Context) (source : Nat) (b : Buf) (r : Nat) : Context :=
  if t.gfrec.msb then t
  else { t with gfrec := BitVec.ofNat 64 (2 ^ 63 + source * 2 ^ 60 + bufCode b * 2 ^ 58 + rowBank b r * 2 ^ 50 + 256 * r) }

/-- A touch of a row by context x of a core, if the row is guarded and the context's launch checks guards. -/
def Core.touch (k : Core) (x source : Nat) (b : Buf) (r : Nat) : Core :=
  if k.guard.contains (rowKey b r) && (k.ctx x).guardChk then k.setCtx x ((k.ctx x).touch source b r) else k

/-- A touch by an M slot of the bundle being issued. -/
def State.touchRow (s : State) (b : Buf) (r : Nat) : State := s.modCk (fun k => k.touch s.issue.ctx 0 b r)

/-! ### The checks of a local row (R362, R363) -/

/-- R363 steps 3 to 6 for a row: 0x21, 0x23 for a pending source or row, 0x31 for a write, the watermark. -/
def State.rowStop (s : State) (writes pending : Bool) (b : Buf) (r : Nat) : Option Stop :=
  if s.ck.streamed s.cycle b (r / groupRows b) then some (.fault 0x21)
  else if pending then some (.fault 0x23)
  else if writes && s.ck.liveRow b r then some (.fault 0x31)
  else s.watermark [(b, r)]

/-- The row of an MR operand: x + 256 × imm without wrapping, or none beyond the buffer (R362). -/
def mrRow (b : Buf) (x : Word) (imm : Nat) : Option Nat :=
  let r := (x.toNat + 256 * imm) / 256
  if r < bufRows b then some r else none

/-- The buffer and offset of an MG operand: bits 63:24 zero, a buffer below 3, an offset inside it (R362). -/
def mgOffset (x : Word) : Option (Buf × Nat) :=
  let v := x.toNat
  let b := bufOfCode (field v 23 22)
  if 2 ^ 24 ≤ v || field v 23 22 == 3 || bufRows b * 256 ≤ field v 21 0 then none else some (b, field v 21 0)

end Sys2Proof.Machine
end

