-- ==== Sys2Proof/Machine/Local.lean ====
section
/-!
DEFINITION. The local operations of the M slots (R360 to R367, R386, R390): rows, tags, scales, bit fields, atomics,
rotate-merge and guard bits.
-/
namespace Sys2Proof.Machine
open Sys2Proof

/-! ### Operands whose pending bit is checked in the order of R363 -/

/-- operand(sel, file, width) without the check of R230. -/
def State.rawOperand (s : State) (k : Slot) (file : File) : Sel → Option Row × State
  | .reg n => (some (s.cx.reg file n), s)
  | x => s.operand k file x

/-- A register operand whose pending bit is set, with the pending check on (R230). -/
def State.selPending (s : State) (file : File) : Sel → Bool
  | .reg n => s.cx.pendChk && s.cx.pending (s.cx.regDest file n)
  | _ => false

/-- A local row whose pending bit is set, with the pending check on. -/
def State.rowPend (s : State) (b : Buf) (r : Nat) : Bool := s.cx.pendChk && s.cx.rowPending b r

/-! ### Rows (R362, R363) -/

/-- An access of an MR word: its row, or 0x22 (R362). -/
def State.onRow (s : State) (k : Slot) (b : Buf) (x : Row) (imm : Nat) (f : Nat → State → State) : State :=
  match mrRow b (x.setWidth 64) imm with
  | none => s.fail k 0x22
  | some r => f r s

/-- A checked row is touched and read; an uncorrectable one raises 0x26. -/
def State.takeRow (s : State) (k : Slot) (b : Buf) (r : Nat) (f : Row → State → State) : State :=
  if s.ck.badRows.contains (rowKey b r) then s.fail k 0x26 else f (s.ck.row b r) (s.touchRow b r)

/-- A local write in flight, with its point 3 context cycles after its issue (R221). -/
def State.pushLocal (s : State) (k : Slot) (b : Buf) (r : Nat) (e : LocalEffect) : State :=
  let w : LocalWrite := ⟨k, b, r, s.issue.issued, s.issue.cc + 3, s.issue.pc, s.cx.seq, e⟩
  (s.touchRow b r).modCx (fun t => { t with localWrites := insertLocal t.localWrites w })

/-- A read of one row by an MR word with latency `lat` (R363 steps 2 to 6). -/
def State.readMr (s : State) (k : Slot) (b : Buf) (a : Sel) (imm : Nat) (f : Nat → Row → State → State) : State :=
  with1 (s.rawOperand k .s a) (fun x s => s.onRow k b x imm (fun r s =>
    s.unless k (s.rowStop false (s.selPending .s a || s.rowPend b r) b r) (fun s =>
      s.takeRow k b r (f (x.toNat + 256 * imm)))))

/-- The two operands of a store, in the order V, A. -/
def State.withVA (s : State) (k : Slot) (v a : Sel) (f : Row → Row → State → State) : State :=
  match s.rawOperand k .v v with
  | (x, s) => match s.rawOperand k .s a, x with
    | (some y, s), some x => f x y s
    | (_, s), _ => s

/-- ld (R363). -/
def execLd (f : MR) (s : State) : Res :=
  .next (s.readMr f.slot f.buf f.a f.imm.toNat (fun _ row s => s.write f.slot (.v f.v) 6 row))

/-- st (R363): the row is written at issue + 3. -/
def execSt (f : MRS) (s : State) : Res :=
  .next (s.withVA f.slot f.v f.a (fun v x s => s.onRow f.slot f.buf x f.imm.toNat (fun r s =>
    s.unless f.slot (s.rowStop true (s.selPending .v f.v || s.selPending .s f.a) f.buf r) (fun s =>
      s.pushLocal f.slot f.buf r (.store v false)))))

/-! ### Tags (R223, R224, R386) -/

/-- A tag store of some context of the core is on its way to a row of A. -/
def Core.fillPending (k : Core) (r : Nat) : Bool :=
  k.ctxs.any (fun t => t.localWrites.any (fun w => w.row == r && w.buf == .a && (match w.eff with
    | .store _ true => true
    | _ => false)))

/-- A tag operation waits unless the tag holds the named state; one that empties it also after another tag operation on the row in
this cycle, and one that fills it while another tag store to the row is in flight (R223). -/
def State.tagStop (s : State) (r : Nat) (full : Bool) : Option Stop :=
  if s.ck.tags.contains r == full && !(if full then s.ck.tagUsed.contains r else s.ck.fillPending r) then none
  else some (.block 4 (.tag r full))

/-- The first of two stops. -/
def firstStop (a : Option Stop) (b : Option Stop) : Option Stop :=
  match a with
  | some x => some x
  | none => b

/-- ldt (R363): waits for a full tag, reads the row and empties the tag; its bundle commits its region. -/
def execLdt (f : MR) (s : State) : Res :=
  .next (
    if f.buf ≠ .a then s.fail f.slot 0x25
    else with1 (s.rawOperand f.slot .s f.a) (fun x s => s.onRow f.slot .a x f.imm.toNat (fun r s =>
      let pend := s.selPending .s f.a || s.rowPend .a r
      s.unless f.slot (firstStop (s.rowStop false pend .a r) (s.tagStop r true)) (fun s =>
        s.takeRow f.slot .a r (fun row s =>
          ((s.modCk (fun k => k.setTag r false)).write f.slot (.v f.v) 6 row).commitsAfter)))))

/-- stt (R363): waits for an empty tag; the row is written and its tag filled at issue + 3; its bundle commits its
region. -/
def execStt (f : MRS) (s : State) : Res :=
  .next (
    if f.buf ≠ .a then s.fail f.slot 0x25
    else s.withVA f.slot f.v f.a (fun v x s => s.onRow f.slot .a x f.imm.toNat (fun r s =>
      let pend := s.selPending .v f.v || s.selPending .s f.a
      s.unless f.slot (firstStop (s.rowStop true pend .a r) (s.tagStop r false)) (fun s =>
        (s.pushLocal f.slot .a r (.store v true)).commitsAfter))))

/-- tagw (R386): blocks until the row's tag holds the named state. -/
def tagWait (k : Slot) (a : Sel) (full : Bool) (s : State) : State :=
  s.with1S k a (fun x s => s.onRow k .a (x.setWidth 2048) 0 (fun r s =>
    s.unless k (if s.ck.tags.contains r == full then none else some (.block 4 (.tag r full))) id))

/-- tagw.full (R386). -/
def execTagwFull (k : Slot) (a : Sel) (s : State) : Res := .next (tagWait k a true s)

/-- tagw.empty (R386). -/
def execTagwEmpty (k : Slot) (a : Sel) (s : State) : Res := .next (tagWait k a false s)

/-! ### Scale and bit-field loads (R364, R365, R273) -/

/-- ldsc (R364): sc(V + j) := byte 16G + j of the row, with latency 4. -/
def execLdsc (buf : Buf) (v : BitVec 4) (a : Sel) (imm : BitVec 9) (s : State) : Res :=
  .next (
    if buf = .c then s.fail .m1 0x25
    else s.readMr .m1 buf a imm.toNat (fun off row s =>
      s.write .m1 (.sc v) 4 (BitVec.ofNat 2048 (row.toNat / 2 ^ (128 * (off / 16 % 16)) % 2 ^ (8 * (16 - v.toNat))))))

/-- The fields of a pattern register (R273). -/
structure Pattern where
  kb : Nat
  mode : Nat
  count : Nat
  stride : Nat
  width : Nat
  first : Nat

/-- A pattern register's fields, COUNT and WIDTH with their 1 added. -/
def patternOf (x : Word) : Pattern :=
  ⟨field x.toNat 43 41, field x.toNat 40 39, field x.toNat 38 33 + 1, field x.toNat 32 21, field x.toNat 20 16 + 1,
    field x.toNat 10 0⟩

/-- A pattern that R273 allows. -/
def Pattern.ok (p : Pattern) : Bool :=
  p.mode != 3 && (p.mode != 2 || p.width ≤ 4) && p.first + (p.count - 1) * p.stride + p.width ≤ 2048

/-- Field i of a row, as an element of the result. -/
def Pattern.element (p : Pattern) (kb : BitVec 256) (row i : Nat) : Nat :=
  let x := row / 2 ^ (p.first + i * p.stride) % 2 ^ p.width
  if p.mode = 2 then elem 16 kb.toNat x else if p.mode = 1 then wrap 32 (signed p.width x) else x

/-- The result row of a bit-field load. -/
def Pattern.extract (p : Pattern) (kb : BitVec 256) (row : Nat) : Row :=
  BitVec.ofNat 2048 (ofElems (if p.mode = 2 then 16 else 32) ((List.range p.count).map (p.element kb row)))

/-- ldbf (R365): the fields that pattern register p names, with latency 8. -/
def execLdbf (buf : Buf) (v : BitVec 6) (a : Sel) (xp : BitVec 3) (imm : BitVec 6) (s : State) : Res :=
  .next (
    if buf = .c then s.fail .m1 0x25
    else s.readMr .m1 buf a imm.toNat (fun _ row s =>
      let p := patternOf (vget s.cx.xp xp.toNat)
      if p.ok then s.write .m1 (.v v) 8 (p.extract (vget s.cx.kb p.kb) row.toNat) else s.fail .m1 0x75))

/-! ### Atomics (R367) -/

/-- amo.op (R367): at issue + 3 the word is read, changed and written as one step; the old word lands at issue + 10. -/
def execAmoOp (k : Slot) (op : AmoOp) (v : BitVec 6) (a b : Sel) (s : State) : Res :=
  .next (match s.rawOperand k .s a with
    | (x, s) => match s.rawOperand k .s b, x with
      | (some y, s), some x =>
        let n := (x.setWidth 64).toNat
        let buf := bufOfCode (field n 23 22)
        if n < 2 ^ 24 && field n 23 22 == 1 then s.fail k 0x25
        else match mgOffset (x.setWidth 64) with
          | none => s.fail k 0x22
          | some (_, off) =>
            let r := off / 256
            let pend := s.selPending .s a || s.selPending .s b || (op == .cas && s.selPending .s (.reg v)) ||
              s.rowPend buf r
            s.unless k (s.rowStop true pend buf r) (fun s =>
              if s.ck.badRows.contains (rowKey buf r) then s.fail k 0x26
              else s.pushLocal k buf r (.atomic op (off / 8 % 32) (y.setWidth 64) (s.cx.readS v) (s.cx.sDest v) s.cx.traps))
      | (_, s), _ => s)

/-! ### Rotate-merge (R366) -/

/-- rmg (R366): bytes n to n + 255 of the concatenation of vB and vA, with latency 3. -/
def execRmg (k : Slot) (dst a b : BitVec 6) (c : Sel) (s : State) : Res :=
  .next (with1 (s.readReg k .v a) (fun x s => with1 (s.readReg k .v b) (fun y s => s.with1S k c (fun n s =>
    let cat := x.toNat + y.toNat * 2 ^ 2048
    let m := 8 * (n.toNat % 512)
    s.write k (.v dst) 3 (BitVec.ofNat 2048 ((cat + cat * 2 ^ 4096) / 2 ^ m))))))

/-! ### Guard bits (R390) -/

/-- guard.set and guard.clr: the guard bits of y rows change when the bundle commits. -/
def guardRows (k : Slot) (set : Bool) (a b : Sel) (s : State) : State :=
  s.with2S k a b (fun x y s =>
    match mgOffset x with
    | none => s.fail k 0x22
    | some (buf, off) =>
      if bufRows buf < off / 256 + y.toNat then s.fail k 0x22
      else s.note (fun r => { r with writes := r.writes ++ [.guard set buf (off / 256) y.toNat] }))

/-- guard.set (R390). -/
def execGuardSet (k : Slot) (a b : Sel) (s : State) : Res := .next (guardRows k true a b s)

/-- guard.clr (R390). -/
def execGuardClr (k : Slot) (a b : Sel) (s : State) : Res := .next (guardRows k false a b s)

end Sys2Proof.Machine
end

