-- ==== Sys2Proof/Machine/Sync.lean ====
section
/-!
DEFINITION. Named barriers, claps, fences and the fabric barrier (R236, R237, R383 to R389).
-/
namespace Sys2Proof.Machine
open Sys2Proof

/-! ### Named barriers (R387 to R389) -/

/-- The core with a barrier made live for a launch, whose contexts there become its participants (R388). -/
def Core.initBarrier (k : Core) (launch : Nat) (b count : Nat) : Core :=
  let k := k.setBarrier b ⟨count, 0, 0, false, true, launch, 0⟩
  let join (t : Context) : Context :=
    if t.launch = some launch && t.mode != .killed then
      { t with part := maskBit t.part b true, ar := maskBit t.ar b false }
    else t
  { k with ctxs := k.ctxs.map join, saved := k.saved.map (fun v => { v with ctx := join v.ctx }) }

/-- A row that holds a barrier's word. -/
def barrierRow (b : Nat) : Nat := barrierOffset b / 256

/-- The effect of a bar form of context x of a core, when its bundle commits (R388). -/
def Core.applyBar (k : Core) (x : Nat) (form : BarForm) (b : Nat) : Core :=
  match form with
  | .init count => k.initBarrier (((k.ctx x).launch).getD 0) b count
  | .arr | .sync =>
    let t := k.ctx x
    let k := k.setCtx x { t with ar := maskBit t.ar b true }
    let y := k.barrier b
    let k := (k.setBarrier b { y with arrived := y.arrived + 1 }).checkBarrier b
    if form = .sync && (k.ctx x).ar.getLsbD b then k.setCtx x { k.ctx x with syncOn := (k.ctx x).syncOn ++ [b] } else k
  | .dep => k.depart x b false
  | .fin => k.endBarrier b

/-- The core as the bar forms that lower slots of the bundle have noted leave it. -/
def State.barView (s : State) : Core :=
  s.issue.writes.foldl (fun k w => match w with
    | .bar form b => k.applyBar s.issue.ctx form b
    | _ => k) s.ck

/-- 0x24 with gfrec.VALID = 1 before the bundle, marked so that the bundle also logs it (R232). -/
def State.guardFault (s : State) : Option Stop := if s.issue.gfrec.msb then some (.fault 0x124) else none

/-- 0x32 unless barrier b is live and owned by the issuing context's launch (R387). -/
def State.barOwned (s : State) (b : Nat) : Option Stop :=
  let y := s.barView.barrier b
  if y.live && s.cx.launch == some y.owner then none else some (.fault 0x32)

/-- A bar form noted for its bundle's commit, which also commits the held region (R224). -/
def State.noteBar (s : State) (form : BarForm) (b : Nat) : State :=
  (s.note (fun r => { r with writes := r.writes ++ [.bar form b] })).commitsAfter

/-- bar.init (R388, R227). -/
def execBarInit (k : Slot) (b : BitVec 6) (a : Sel) (s : State) : Res :=
  .next (s.unless k s.guardFault (fun s => s.with1S k a (fun x s =>
    if (s.barView.barrier b.toNat).live || s.ck.aboveAny s.cycle .a (barrierRow b.toNat) then s.fail k 0x31
    else s.noteBar (.init (max 1 (min 4095 x.toNat))) b.toNat)))

/-- 0x33 for an arrival that the context has made already, or of a context that is no participant (R388). -/
def State.overrun (s : State) (b : Nat) : Option Stop :=
  let t := s.barView.ctx s.issue.ctx
  if t.ar.getLsbD b || !t.part.getLsbD b then some (.fault 0x33) else none

/-- bar.arr (R388). -/
def execBarArr (k : Slot) (b : BitVec 6) (s : State) : Res :=
  .next (s.unless k (firstStop s.guardFault (firstStop (s.barOwned b.toNat) (s.overrun b.toNat))) (fun s =>
    s.noteBar .arr b.toNat))

/-- bar.wait (R388): blocks while AR bit b is set. -/
def execBarWait (k : Slot) (b : BitVec 6) (s : State) : Res :=
  .next (s.unless k (firstStop s.guardFault (firstStop (s.barOwned b.toNat)
    (if s.cx.ar.getLsbD b.toNat then some (.block 5 (.barrier b.toNat)) else none))) id)

/-- bar.sync (R388): an arrival, and a block before the next bundle until the generation completes. -/
def execBarSync (k : Slot) (b : BitVec 6) (s : State) : Res :=
  .next (s.unless k (firstStop s.guardFault (firstStop (s.barOwned b.toNat) (s.overrun b.toNat))) (fun s =>
    s.noteBar .sync b.toNat))

/-- bar.dep (R388, R389). -/
def execBarDep (k : Slot) (b : BitVec 6) (s : State) : Res :=
  .next (s.unless k (firstStop s.guardFault (s.barOwned b.toNat)) (fun s => s.noteBar .dep b.toNat))

/-- bar.end (R388). -/
def execBarEnd (k : Slot) (b : BitVec 6) (s : State) : Res :=
  .next (s.unless k (firstStop s.guardFault (s.barOwned b.toNat)) (fun s => s.noteBar .fin b.toNat))

/-! ### Ordering (R236, R237, R384, R385) -/

/-- A clap or fence that later queue accesses respect; its bundle is a restart point. -/
def State.pushFence (s : State) (clap : Bool) (scope : BitVec 512) : State :=
  (s.modCx (fun t => { t with fences := t.fences ++ [⟨t.seq, clap, scope⟩], seq := t.seq + 1 })).note
    (fun r => { r with mark := true })

/-- clap (R384). -/
def execClap (_k : Slot) (s : State) : Res := .next (s.pushFence true 0)

/-- fence (R385): an empty scope entry raises 0x34. -/
def execFence (k : Slot) (e : BitVec 5) (s : State) : Res :=
  let scope := vget s.cx.scopes e.toNat
  .next (if scope.toNat % 4 = 0 then s.fail k 0x34 else s.pushFence false scope)

/-- fbar (R383): an arrival at the group barrier, with its completion entry. -/
def execFbar (k : Slot) (e : BitVec 5) (a : Sel) (s : State) : Res :=
  .next (s.with1S k a (fun x s =>
    let scope := vget s.cx.scopes e.toNat
    s.unless k (firstStop s.guardFault (if scope.toNat % 4 = 0 then some (.fault 0x34) else none)) (fun s =>
      match s.pushLoad k (.status (field x.toNat 11 0) (field x.toNat 33 20)) [] 1 none with
      | (some id, s) => s.pushStore k (.barrier x scope) 0 0 (some id) none 0
      | (none, s) => s)))

end Sys2Proof.Machine
end

