-- ==== Sys2Proof/Machine/Global.lean ====
section
/-!
DEFINITION. Global and remote accesses (R111, R114, R115, R122, R235 to R237, R368 to R383): where they go, what gates
them, how they leave their queues, and how their answers enter them.
-/
namespace Sys2Proof.Machine
open Sys2Proof

/-! ### Where an access goes (R368, R373) -/

/-- The place of an access. -/
inductive Access where
  | window (binding : Option (Nat × Nat)) (fabric : Nat)
  | memory (pa key unit uaddr : Nat)
  | outbound (addr : Nat)
  | miss (m : Miss)
  deriving DecidableEq, Repr

/-- The address space of the issuing context. -/
def State.asid (s : State) : Nat := (s.cl.map (·.asid)).getD 0

/-- A load of n bytes (R368): its windows, then its translation, outbound only with Bus Master Enable (R122). -/
def State.loadAccess (s : State) (a n : Nat) : Except Nat Access :=
  match s.cx.windowOf a with
  | some (i, w) => (windowAccess i w a n .load).map (fun p => .window (some p.1) p.2)
  | none =>
    match s.translate s.issue.core s.asid a .load with
    | .fault c => .error c
    | .miss => .ok (.miss ⟨s.asid, a / 4096, .load⟩)
    | .ok pa key (.memory u ua) => .ok (.memory pa key u ua)
    | .ok _ _ (.outbound o) => if s.busMaster then .ok (.outbound o) else .error 0x93

/-- The target of a remote operation (R373). -/
def State.remoteAccess (s : State) (a n : Nat) (k : AccessKind) : Except Nat (Option (Nat × Nat) × Nat) :=
  match s.cx.windowOf a with
  | some (i, w) => (windowAccess i w a n k).map (fun p => (some p.1, p.2))
  | none => if s.cx.priv then .ok (none, a % 2 ^ 46) else .error 0x16

/-- The requests of n bytes at an outbound address, split at the negotiated size (R122). -/
def outboundParts (size a n : Nat) : List (Nat × Nat) :=
  (List.range (n / 64 + 1)).foldl (fun l _ =>
    let at' := (l.getLast?.map (fun p => p.1 + p.2)).getD a
    if a + n ≤ at' then l else l ++ [(at', min (a + n - at') (size - at' % size))]) []

/-- The requests of a load of n bytes and the first blocks that they bring (R122, R233). -/
def loadReqs (readSize n : Nat) : Access → List LoadReq × Nat
  | .window b f => ([.remote f b], 1)
  | .memory pa key u ua =>
    if n = 256 then ((List.range 4).map (fun p => .memory (pa + 64 * p) key u (ua + 64 * p) 64 p), 15)
    else ([.memory pa key u ua n 0], 1)
  | .outbound a =>
    if n = 256 then
      let parts := (outboundParts readSize a n).map (fun p => (p.1, p.2, (p.1 - a) / 64))
      (parts.map (fun p => .outbound p.1 p.2.1 p.2.2), parts.foldl (fun m p => m ||| 2 ^ p.2.2) 0)
    else ([.outbound a n 0], 1)
  | .miss _ => ([], 0)

/-- A load of an address pushed as a load-queue entry; a word form keeps the word that its address selects. -/
def State.pushAccess (s : State) (k : Slot) (a n : Nat) (x : Access) : State :=
  match x with
  | .miss m => s.tlbMiss m
  | _ =>
    let (reqs, missing) := loadReqs s.readSize n x
    let (kind, word) : LoadKind × Option Nat := match x with
      | .window _ _ => (.remote, if n = 8 then some (a / 8 % 32) else none)
      | .outbound _ => (.outbound, none)
      | _ => (.global, none)
    (s.pushLoad k kind reqs missing word).2

/-- ldg (R368, R369): n bytes at the aligned sum of the operands. -/
def loadGlobal (k : Slot) (n : Nat) (a b : Sel) (s : State) : State :=
  s.with2S k a b (fun x y s =>
    let addr := (x + y).toNat / n * n
    match s.loadAccess addr n with
    | .error c => s.fail k c
    | .ok p => s.pushAccess k addr n p)

/-- ldg.row (R369). -/
def execLdgRow (k : Slot) (a b : Sel) (s : State) : Res := .next (loadGlobal k 256 a b s)

/-- ldg.word (R369). -/
def execLdgWord (k : Slot) (a b : Sel) (s : State) : Res := .next (loadGlobal k 8 a b s)

/-- The faults that cut a chain of ldff (R370). -/
def probeFaults : List Nat := [0x10, 0x11, 0x12, 0x13, 0x14, 0x16, 0x17, 0x19, 0x1B, 0x1C]

/-- ldff (R370). -/
def execLdff (k : Slot) (a b : Sel) (q : BitVec 3) (s : State) : Res :=
  .next (s.with2S k a b (fun x y s => with1 (s.readQ k q) (fun m s =>
    let addr := (x + y).toNat / 256 * 256
    if m = 0 then (s.pushLoad k .global [] 0 none).2
    else match s.loadAccess addr 256 with
      | .error c =>
        if probeFaults.contains c then ((s.pushLoad k .global [] 0 none).2).write k (.q q) 2 0
        else s.fail k c
      | .ok p => s.pushAccess k addr 256 p)))

/-! ### Stores and atomics (R368 to R372) -/

/-- A store of n bytes at an address: through a window a remote operation, otherwise held for translation at commit. -/
def State.storeGlobal (s : State) (k : Slot) (addr n : Nat) (v : Row) : State :=
  match s.cx.windowOf addr with
  | some (i, w) =>
    match windowAccess i w addr n .store with
    | .error c => s.fail k c
    | .ok (b, f) => s.pushStore k (if n = 256 then .remoteStore else .remoteWord) addr v none (some b) f
  | none => s.pushStore k (.global n) addr v none none 0

/-- The three operands of a store, in the order V, A, B (R360). -/
def State.withVAB (s : State) (k : Slot) (v a b : Sel) (f : Row → Word → Word → State → State) : State :=
  match s.opV k v with
  | (x, s) => match s.opS k a with
    | (y, s) => match s.opS k b, x, y with
      | (some z, s), some x, some y => f x y z s
      | (_, s), _, _ => s

/-- stg.row (R369). -/
def execStgRow (k : Slot) (v a b : Sel) (s : State) : Res :=
  .next (s.withVAB k v a b (fun v x y s => s.storeGlobal k ((x + y).toNat / 256 * 256) 256 v))

/-- stg.word (R369). -/
def execStgWord (k : Slot) (v a b : Sel) (s : State) : Res :=
  .next (s.withVAB k v a b (fun v x y s => s.storeGlobal k ((x + y).toNat / 8 * 8) 8 ((v.setWidth 64).setWidth 2048)))

/-- An atomic: its load-queue entry for the old value, and its store-queue entry. -/
def State.pushAtomic (s : State) (k : Slot) (kind : LoadKind) (op : StoreOp) (addr : Nat) (v : Word)
    (window : Option (Nat × Nat)) (f : Nat) : State :=
  match s.pushLoad k kind [] 1 none with
  | (some id, s) => s.pushStore k op addr (v.setWidth 2048) (some id) window f
  | (none, s) => s

/-- amog.op (R371): in device memory or, through a window, at the target core. -/
def execAmogOp (k : Slot) (op : AmoOp) (v a b : Sel) (s : State) : Res :=
  .next (s.withVAB k v a b (fun v x c s =>
    let addr := x.toNat / 8 * 8
    match s.cx.windowOf addr with
    | some (i, w) =>
      match windowAccess i w addr 8 .atomic with
      | .error e => s.fail k e
      | .ok (g, f) => s.pushAtomic k .remote (.remoteAtomic op false c) addr (v.setWidth 64) (some g) f
    | none => s.pushAtomic k .global (.globalAtomic op c) addr (v.setWidth 64) none 0))

/-! ### Remote operations (R372 to R375) -/

/-- rst (R374): one row stored at a fabric address. -/
def execRst (k : Slot) (v a : Sel) (s : State) : Res :=
  .next (match s.opV k v with
    | (x, s) => match s.opS k a, x with
      | (some y, s), some x =>
        match s.remoteAccess (y.toNat / 256 * 256) 256 .store with
        | .error c => s.fail k c
        | .ok (g, f) => s.pushStore k .remoteStore y.toNat x none g f
      | (_, s), _ => s)

/-- rld (R374): one row loaded from a fabric address. -/
def execRld (k : Slot) (a : Sel) (s : State) : Res :=
  .next (s.with1S k a (fun x s =>
    match s.remoteAccess (x.toNat / 256 * 256) 256 .load with
    | .error c => s.fail k c
    | .ok (g, f) => s.pushAccess k (x.toNat / 256 * 256) 256 (.window g f)))

/-- rfaa (R372): a remote fetch-and-add of 64 or 32 bits. -/
def remoteAdd (k : Slot) (half : Bool) (a b : Sel) (s : State) : State :=
  s.with2S k a b (fun x y s =>
    let n := if half then 4 else 8
    match s.remoteAccess (x.toNat / n * n) n .atomic with
    | .error c => s.fail k c
    | .ok (g, f) => s.pushAtomic k .remote (.remoteAtomic .add half 0) x.toNat y g f)

/-- rfaa.i64 (R372). -/
def execRfaaI64 (k : Slot) (a b : Sel) (s : State) : Res := .next (remoteAdd k false a b s)

/-- rfaa.i32 (R372). -/
def execRfaaI32 (k : Slot) (a b : Sel) (s : State) : Res := .next (remoteAdd k true a b s)

/-- rmc (R374, R375): a row stored through fan-out set y[11:0]. -/
def execRmc (k : Slot) (v a b : Sel) (s : State) : Res :=
  .next (s.withVAB k v a b (fun v x y s =>
    match s.remoteAccess (x.toNat / 256 * 256) 256 .store with
    | .error c => s.fail k c
    | .ok (g, f) => s.pushStore k (.multicast (y.setWidth 12)) x.toNat v none g f))

/-- Consecutive vector registers read by a slot. -/
def State.readRegs (s : State) (k : Slot) (v n : Nat) : Option (List Row) × State :=
  (List.range n).foldl (fun acc i =>
    match acc with
    | (o, s) => match s.readReg k .v (BitVec.ofNat 6 (v + i)), o with
      | (some x, s), some l => (some (l ++ [x]), s)
      | (_, s), _ => (none, s)) (some [], s)

/-- rred (R380): a contribution of NR + 1 registers, with its completion entry. -/
def execRred (k : Slot) (v : BitVec 6) (a : Sel) (ifmt : BitVec 4) (arrival : Bool) (nr : BitVec 2) (s : State) : Res :=
  .next (with1 (s.readRegs k v.toNat (nr.toNat + 1)) (fun rows s => s.with1S k a (fun x s =>
    match s.pushLoad k (.status (field x.toNat 11 0) (field x.toNat 33 20)) [] 1 none with
    | (some id, s) => s.pushStore k (.reduce x ifmt (arrival && !(s.cl.map (·.repro)).getD false) rows) 0 0 (some id) none 0
    | (none, s) => s)))

/-! ### Claps and fences (R236, R237) -/

/-- The target of an access, as a fence sees it. -/
inductive Where where
  | device
  | core (pkg core : Nat)
  | anyCore
  | other
  deriving DecidableEq

/-- A scope entry names a core (R334); one of KIND 2 stands for every core of every package. -/
def scopeNames (scope pkg core : Nat) : Bool :=
  scope % 4 == 2 || (scope % 4 == 1 && field scope 28 16 == pkg && core < 320 && scope.testBit (64 + core))

/-- A target that a fence waits for. -/
def Where.inScope (scope : BitVec 512) : Where → Bool
  | .device => true
  | .core p c => scopeNames scope.toNat p c
  | .anyCore => true
  | .other => false

/-- An access that has been issued and not yet performed. -/
structure OpenAccess where
  seq : Nat
  read : Bool
  write : Bool
  target : Where
  deriving DecidableEq

/-- The target of a fabric address. -/
def fabricWhere (f : Nat) : Where := .core (faPkg f) (faCore f)

/-- A load-queue entry as an open access. -/
def LoadEntry.asOpen (t : Context) (e : LoadEntry) : List OpenAccess :=
  if e.missing = 0 then []
  else match e.kind with
    | .global => [⟨e.seq, true, false, .device⟩]
    | .outbound => [⟨e.seq, true, false, .other⟩]
    | .remote =>
      let sent := (t.remote.find? (fun r => r.lq == some e.seq)).map (fun r => Where.core r.pkg r.core)
      let waiting := match e.reqs with
        | .remote f _ :: _ => some (fabricWhere f)
        | _ => none
      [⟨e.seq, true, false, (sent.or waiting).getD .other⟩]
    | _ => []

/-- A store-queue entry as an open access. -/
def StoreEntry.asOpen (e : StoreEntry) : List OpenAccess :=
  match e.op with
  | .global _ => [⟨e.seq, false, true, match e.pa with
      | some (_, _, .outbound _) => .other
      | _ => .device⟩]
  | .globalAtomic _ _ => [⟨e.seq, true, true, .device⟩]
  | .remoteStore | .remoteWord => [⟨e.seq, false, true, fabricWhere e.fabric⟩]
  | .remoteAtomic _ _ _ => [⟨e.seq, true, true, fabricWhere e.fabric⟩]
  | .multicast _ => [⟨e.seq, false, true, .anyCore⟩]
  | .reduce _ _ _ _ => [⟨e.seq, false, true, .other⟩]
  | .barrier _ _ | .inval _ _ => []

/-- The block of a copy row that a request brings has been read. -/
def CopyEntry.has (e : CopyEntry) (i p : Nat) : Bool := e.arrived.any (fun x => x.1 == i && x.2.1 == p)

/-- A copy entry of which `landed` rows have landed, as open accesses (R238): the source rows not yet read are loads and the
rows not yet landed are stores, of device memory, of the core itself or of a remote one. -/
def CopyEntry.asOpen (e : CopyEntry) (pkg core landed : Nat) : List OpenAccess :=
  let side (i : Nat) (dst : Bool) : Option Where := match e.place i dst with
    | .row _ _ => some (.core pkg core)
    | .pad _ => none
    | .outside => some .other
    | .global a => some (match (e.wins.find? (fun w => w % 2 == 1 && winBase w ≤ a && a < winBase w + winSize w)) with
      | some w => fabricWhere (field w 109 64 + (a - winBase w))
      | none => .device)
  let read (i : Nat) : Option OpenAccess :=
    if (List.range 4).all (e.has i) then none else (side i false).map (fun w => ⟨e.seq, true, false, w⟩)
  let write (i : Nat) : Option OpenAccess :=
    if i < landed || e.done.contains i then none
    else (side i true).map (fun w => ⟨e.seq, false, true, if shotMcast e.entry.toNat then .anyCore else w⟩)
  ((List.range e.rows).foldl (fun (l : List OpenAccess) i =>
    (read i).toList.foldl (fun l a => if l.contains a then l else a :: l)
      ((write i).toList.foldl (fun l a => if l.contains a then l else a :: l) l)) [])

/-- The entries of a channel as open accesses: rows of the first one have landed while it is current. -/
def Channel.asOpen (ch : Channel) (pkg core : Nat) (t : Context) : List OpenAccess :=
  let mine (e : CopyEntry) : Bool := e.home == t.home && some e.launch == t.launch
  match ch.queue with
  | [] => []
  | e :: rest =>
    (if mine e then e.asOpen pkg core (if ch.active then ch.landed else 0) else [])
      ++ ((rest.filter mine).map (fun e => e.asOpen pkg core 0)).flatten

/-- The accesses of a context of core c, running or saved, that are not yet performed. -/
def State.openAccesses (s : State) (c : Nat) (t : Context) : List OpenAccess :=
  (t.lq.map (·.asOpen t)).flatten ++ (t.sq.map (·.asOpen)).flatten
    ++ t.writes.map (fun w => ⟨w.seq, false, true, if w.outbound then .other else .device⟩)
    ++ (t.remote.filter (fun r => r.cls == 2)).map (fun r => ⟨r.seq, false, true, .other⟩)
    ++ ((s.core c).chans.toList.map (fun ch => ch.asOpen s.pkgId c t)).flatten

/-- An access of a context with an issue number must wait for earlier ones: a clap holds a later load or atomic behind earlier
writes and a later store behind earlier reads; a fence holds any later access behind earlier ones in its scope. -/
def State.gatedOf (s : State) (c : Nat) (t : Context) (seq : Nat) (read write : Bool) : Bool :=
  let fs := t.fences.filter (fun f => f.seq < seq)
  if fs.isEmpty then false
  else
    let l := s.openAccesses c t
    fs.any (fun f => l.any (fun a => a.seq < f.seq &&
      (if f.clap then (a.write && read) || (a.read && write) else a.target.inScope f.scope)))

/-- The same of context x of core c. -/
def State.gated (s : State) (c x seq : Nat) (read write : Bool) : Bool := s.gatedOf c (s.ctxOf c x) seq read write

/-- The fences that some open access still meets. -/
def State.pruneFences (s : State) (c x : Nat) : State :=
  if (s.ctxOf c x).fences.isEmpty then s
  else
    let l := s.openAccesses c (s.ctxOf c x)
    s.modCtx c x (fun t => { t with fences := t.fences.filter (fun f => l.any (fun a => a.seq < f.seq)) })

/-! ### Leaving the core (R115, R374, R376, R377) -/

/-- A window binding that no longer holds (R115). -/
def Context.stale (t : Context) (b : Option (Nat × Nat)) : Bool :=
  match b with
  | none => false
  | some (i, v) => let w := (vget t.w i).toNat; w % 2 == 0 || winVer w != v

/-- The packets of a class that a context has sent and that await a response (R376). -/
def Context.inFlight (t : Context) (cls : Nat) : Nat := (t.remote.filter (fun r => r.cls == cls)).length

/-- A packet leaves core c for context x with the next number of its class (R377) and its TAG (R374). -/
def State.sendPacket (s : State) (c x slot : Nat) (isLq : Bool) (p : Packet) (op : RemoteOp) : State :=
  let ctr := vget (s.core c).txSeq x
  let n := if p.cls = 0 then ctr.1.toNat else if p.cls = 3 then ctr.2.toNat else 0
  let tag := slot + 64 * b2n isLq + 128 * (n % 2 ^ 21)
  let next := if p.cls = 0 then (ctr.1 + 1, ctr.2) else if p.cls = 3 then (ctr.1, ctr.2 + 1) else ctr
  let s := s.modCore c (fun k => { k with txSeq := vset k.txSeq x next })
  let s := s.modCtx c x (fun t => { t with remote := t.remote ++ [{ op with tag := tag, sentAt := s.cycle }] })
  s.sendInternal (coreDie c) 14 p.cls c
    (.packet ({ p with src := srcOf s.pkgId c x, seq := n, tag := tag } : Packet).sealed)

/-- A remote operation's record. -/
def remoteOp (seq cls : Nat) (lq sq : Option Nat) (f : Nat) (write : Bool) (copy : Option (Nat × Nat × Nat)) : RemoteOp :=
  ⟨0, seq, cls, 0, lq, sq, faPkg f, faCore f, write, copy⟩

/-- A load-queue entry changed, by its issue number. -/
def Context.modLoad (t : Context) (seq : Nat) (f : LoadEntry → LoadEntry) : Context :=
  { t with lq := t.lq.map (fun e => if e.seq = seq then f e else e) }

/-- A load-queue entry completed with a row. -/
def LoadEntry.done (e : LoadEntry) (data : Row) : LoadEntry := { e with missing := 0, data := data, reqs := [] }

/-- The row of an entry whose operation failed (R376, R382): zeros, or 0xFF and the code for a reduction or barrier. -/
def LoadEntry.failed (e : LoadEntry) (code : Nat) : LoadEntry :=
  e.done (match e.kind with
    | .status _ _ => BitVec.ofNat 2048 (0xFF + 256 * code)
    | _ => 0)

/-- A remote operation with an issue number completes with a fault (R376): its entries complete and the U event is raised,
unless its launch has left the context. -/
def Context.remoteFail (t : Context) (op code tag : Nat) (lq sq : Option Nat) : Context :=
  let t := match lq with
    | some q => t.modLoad q (fun e => e.failed code)
    | none => t
  let t : Context := { t with sq := t.sq.filter (fun e => some e.seq != sq) }
  if t.launch.isNone || op < t.seqBase then t else t.uEvent 16 code tag

/-- Where a request that leaves a die now goes: as its present version resolves it (R92), or, where that version no longer
maps it to memory, as it was resolved at issue. -/
def State.placeNow (s : State) (die pa u ua : Nat) : Nat × Nat :=
  match s.resolve (s.dieVersion die) pa with
  | some (.memory u a) => (u, a)
  | _ => (u, ua)

/-- One waiting request of a load entry leaves the core, if it may. -/
def State.sendLoadReq (s : State) (c x : Nat) (e : LoadEntry) (r : LoadReq) : State :=
  match r with
  | .memory pa key u ua n part =>
    let (u, ua) := s.placeNow (coreDie c) pa u ua
    s.requestMemory (coreDie c) c
      ⟨.load c x e.id e.seq part, .read n, u, ua, pa, key, s.dieVersion (coreDie c), false⟩
  | .outbound a n part => s.sendInternal (coreDie c) 15 0 c (.outbound ⟨.load c x e.id e.seq part, a, n, none, false, 0⟩)
  | .remote f w =>
    if (s.ctxOf c x).stale w then s.modCtx c x (fun t => t.remoteFail e.seq 0x15 (e.id + 64) (some e.seq) none)
    else s.sendPacket c x e.id true (Packet.new 0 0x02 1 f 0 0 0 []) (remoteOp e.seq 0 (some e.seq) none f false none)

/-- A load entry whose row is still to be asked of another core. -/
def LoadEntry.waitsRemote (e : LoadEntry) : Bool :=
  match e.reqs with
  | .remote _ _ :: _ => true
  | _ => false

/-- A load entry whose requests may leave now. -/
def State.loadReady (s : State) (c x : Nat) (e : LoadEntry) : Bool :=
  !e.reqs.isEmpty && !s.gated c x e.seq true false && (!e.waitsRemote || (s.ctxOf c x).inFlight 0 < 64)

/-- The waiting requests of the oldest load entry that may leave are sent (R237, R376). -/
def State.sendLoads (s : State) (c x : Nat) : Option State :=
  match (s.ctxOf c x).lq.find? (fun e => s.loadReady c x e) with
  | none => none
  | some e =>
    let s := s.modCtx c x (fun t => t.modLoad e.seq (fun e => { e with reqs := [] }))
    some ((e.reqs.foldl (fun s r => s.sendLoadReq c x e r) s).pruneFences c x)

/-! ### The store queue (R235) -/

/-- The payload of an AMO (R374). -/
def amoPayload (op : AmoOp) (half : Bool) (v c : Word) : List Flit :=
  [BitVec.ofNat 512 (v.toNat + c.toNat * 2 ^ 64 + amoCode op * 2 ^ 128 + b2n half * 2 ^ 136)]

/-- A store-queue entry leaves the queue. -/
def Context.dropStore (t : Context) (seq : Nat) : Context := { t with sq := t.sq.filter (fun e => e.seq != seq) }

/-- A store-queue entry has been sent and awaits its response. -/
def Context.markSent (t : Context) (seq : Nat) : Context :=
  { t with sq := t.sq.map (fun e => if e.seq = seq then { e with status := .sent } else e) }

/-- A remote store, word store, atomic or multicast leaves as one packet (R374). -/
def State.sendRemote (s : State) (c x : Nat) (e : StoreEntry) (p : Packet) : State :=
  let slot := match e.lq.bind (fun q => (s.ctxOf c x).lq.find? (fun l => l.seq == q)) with
    | some l => l.id
    | none => e.id
  if (s.ctxOf c x).stale e.window then
    s.modCtx c x (fun t => t.remoteFail e.seq 0x15 (slot + 64 * b2n e.lq.isSome) e.lq (some e.seq))
  else
    (s.modCtx c x (fun t => t.markSent e.seq)).sendPacket c x slot e.lq.isSome p
      (remoteOp e.seq 0 e.lq (some e.seq) e.fabric true none)

/-- The packet of a reduction or a group barrier (R68, R380, R383). -/
def groupPacket (pkg opc oparg : Nat) (desc : Word) (cls order rfmt : Nat) (payload : List Flit) : Packet :=
  let d := desc.toNat
  { Packet.new cls opc oparg (fabric pkg 511 0 (field d 33 20 * 2 ^ 8 + rfmt * 2 ^ 5 + order * 2 ^ 4)) 0 0 0 payload with
    group := field d 11 0, gver := field d 19 12 }

/-- A global store or atomic leaves for its memory or the PCI Express port (R122, R233). -/
def State.sendGlobal (s : State) (c x : Nat) (e : StoreEntry) : State :=
  let die := coreDie c
  let openWrite (missing : Nat) (out : Bool) (s : State) : State := s.modCtx c x (fun t =>
    { t.dropStore e.seq with writes := t.writes ++ [⟨e.seq, e.id, e.addr / 64, missing, out⟩] })
  match e.op, e.pa with
  | .global n, some (pa, key, .memory u ua) =>
    let bytes := bytesOf n e.data.toNat
    let (u, ua) := s.placeNow die pa u ua
    let parts := (List.range (ceilDiv n 64)).map (fun i => (i, 64 * i))
    parts.foldl (fun s p => s.requestMemory die c
      ⟨.store c x e.seq p.1, .write ((bytes.drop p.2).take 64), u, ua + p.2, pa + p.2, key, s.dieVersion die, false⟩)
      (openWrite (if n = 256 then 15 else 1) false s)
  | .global n, some (_, _, .outbound a) =>
    let bytes := bytesOf n e.data.toNat
    let parts := (outboundParts s.writeSize a n).map (fun p => (p.1, p.2, (p.1 - a) / 64))
    parts.foldl (fun s p => s.sendInternal die 15 0 c
      (.outbound ⟨.store c x e.seq p.2.2, p.1, p.2.1, some ((bytes.drop (p.1 - a)).take p.2.1), false, 0⟩))
      (openWrite (parts.foldl (fun m p => m ||| 2 ^ p.2.2) 0) true s)
  | .globalAtomic op cmp, some (pa, key, .memory u ua) =>
    let id := (e.lq.bind (fun q => (s.ctxOf c x).lq.find? (fun l => l.seq == q))).map (·.id)
    let (u, ua) := s.placeNow die pa u ua
    (openWrite 1 false s).requestMemory die c
      ⟨.atomic c x (id.getD 0) (e.lq.getD 0) e.seq, .atomic op (e.data.setWidth 64) cmp, u, ua, pa, key, s.dieVersion die, false⟩
  | _, _ => s.modCtx c x (fun t => t.dropStore e.seq)

/-- The wait of an fbar before it leaves (R83, R383): earlier writes to cores of its scope. -/
def State.fbarWaits (s : State) (c x seq : Nat) (scope : BitVec 512) : Bool :=
  let t := s.ctxOf c x
  t.remote.any (fun r => r.write && r.seq < seq && scopeNames scope.toNat r.pkg r.core)
    || (s.openAccesses c t).any (fun a => a.seq < seq && a.write && (match a.target with
      | .device => false
      | w => w.inScope scope))

/-- The first store-queue entry that has not left. -/
def Context.nextStore (t : Context) : Option StoreEntry := t.sq.find? (fun e => e.status != .sent)

/-- The next store-queue entry may leave now (R235, R236, R237, R376, R383): a remote operation after every earlier remote
load that waits for the same limit, and an invalidation after every earlier entry has been performed (R338). -/
def State.storeReady (s : State) (c x : Nat) : Option StoreEntry :=
  let t := s.ctxOf c x
  match t.nextStore with
  | none => none
  | some e =>
    let (read, write) : Bool × Bool := match e.op with
      | .global _ | .remoteStore | .remoteWord | .multicast _ => (false, true)
      | .globalAtomic _ _ | .remoteAtomic _ _ _ => (true, false)
      | _ => (false, false)
    let room := match e.op with
      | .remoteStore | .remoteWord | .remoteAtomic _ _ _ | .multicast _ =>
        t.inFlight 0 < 64 && !t.lq.any (fun q => q.seq < e.seq && q.waitsRemote && s.loadReady c x q)
      | .inval _ _ =>
        !t.writes.any (fun w => w.seq < e.seq) && !t.sq.any (fun q => q.seq < e.seq)
          && !t.remote.any (fun r => r.seq < e.seq && (r.write || r.cls == 2 || r.cls == 4))
      | .barrier _ scope => !s.fbarWaits c x e.seq scope
      | _ => true
    if e.status == .committed && room && !s.gated c x e.seq read write then some e else none

/-- A store-queue entry leaves. -/
def State.sendStore (s : State) (c x : Nat) (e : StoreEntry) : State :=
  let v : Word := e.data.setWidth 64
  let slotOf (q : Option Nat) : Nat :=
    ((q.bind (fun q => (s.ctxOf c x).lq.find? (fun l => l.seq == q))).map (·.id)).getD 0
  match e.op with
  | .global _ | .globalAtomic _ _ => s.sendGlobal c x e
  | .remoteStore => s.sendRemote c x e (Packet.new 0 0x01 0 e.fabric 0 0 0 (rowFlits e.data))
  | .remoteWord => s.sendRemote c x e (Packet.new 0 0x06 0 e.fabric 0 0 0 (amoPayload .swap false v 0))
  | .remoteAtomic op half cmp => s.sendRemote c x e (Packet.new 0 0x06 0 e.fabric 0 0 0 (amoPayload op half v cmp))
  | .multicast set =>
    let p := Packet.new 0 0x01 0 e.fabric 0 0 0 (rowFlits e.data)
    s.sendRemote c x e { p with depth := 1, route := BitVec.ofNat 32 (3 * 2 ^ 20 + set.toNat) :: p.route.tail }
  | .reduce desc ifmt order rows =>
    let p := groupPacket s.pkgId 0x04 (ifmt.toNat + 16 * field desc.toNat 40 37) desc 2 (b2n order) (field desc.toNat 36 34)
      (rows.map rowFlits).flatten
    (s.modCtx c x (fun t => t.dropStore e.seq)).sendPacket c x (slotOf e.lq) true p
      (remoteOp e.seq 2 e.lq none p.dest false none)
  | .barrier desc _ =>
    let p := groupPacket s.pkgId 0x09 0 desc 4 0 0 []
    (s.modCtx c x (fun t => t.dropStore e.seq)).sendPacket c x (slotOf e.lq) true p
      (remoteOp e.seq 4 e.lq none p.dest false none)
  | .inval page desc =>
    (s.modCtx c x (fun t => t.dropStore e.seq)).sendInternal (coreDie c) 15 0 c
      (.inval c x (slotOf e.lq) (e.lq.getD 0) page desc)

/-- STORE_QUEUE_SEND (R235): the next committed entry leaves in issue order. -/
def execStoreQueueSend (c x : Nat) (s : State) : Res :=
  .next (match s.storeReady c x with
    | some e => (s.sendStore c x e).pruneFences c x
    | none => s)

/-! ### Answers (R235, R369, R376) -/

/-- Data, or a fault, for the request of an entry that brings its blocks from `part` on. -/
def LoadEntry.fill (e : LoadEntry) (part : Nat) (bytes : List Byte) (fault : Option Nat) : LoadEntry :=
  let d := match e.word with
    | some w => BitVec.ofNat 2048 (ofBytes ((bytes.drop (8 * w)).take 8))
    | none => e.data ||| BitVec.ofNat 2048 (ofBytes bytes * 2 ^ (512 * part))
  { e with
    missing := e.missing ^^^ (e.missing &&& 2 ^ part)
    data := if fault.isSome then e.data else d
    fault := e.fault.or fault }

/-- An answer enters the load queue of a context; one for a discarded load is dropped. -/
def Context.takeReturn (t : Context) (r : Return) : Context :=
  t.modLoad r.seq (fun e => if e.id = r.id && e.missing ≠ 0 then e.fill r.part r.data r.fault else e)

/-- GLOBAL_LOAD_RETURN (R235): answer i of a core arrives in its load-queue entry. -/
def execGlobalLoadReturn (c i : Nat) (s : State) : Res :=
  .next (match (s.core c).returns[i]? with
    | none => s
    | some r =>
      let s := s.modCore c (fun k => { k with returns := k.returns.eraseIdx i })
      (s.modCtx c r.ctx (fun t => t.takeReturn r)).pruneFences c r.ctx)

/-- The remote operations of a core, with their contexts, in context order. -/
def Core.remoteOps (k : Core) : List (Nat × RemoteOp) :=
  ((List.range 4).map (fun x => (k.ctx x).remote.map (fun r => (x, r)))).flatten

/-- A remote operation past its time-out (R376). -/
def RemoteOp.expired (r : RemoteOp) (cycle : Nat) : Bool := r.cls == 0 && r.sentAt + 2 ^ 24 ≤ cycle

/-- REMOTE_TIMEOUT (R376): remote operation i of a core completes with 0x8C. -/
def execRemoteTimeout (c i : Nat) (s : State) : Res :=
  .next (match (s.core c).remoteOps[i]? with
    | none => s
    | some (x, r) =>
      if r.expired s.cycle then
        s.modCtx c x (fun t =>
          ({ t with remote := t.remote.filter (fun q => q.tag != r.tag || q.cls != r.cls) } : Context).remoteFail
            r.seq 0x8C r.tag r.lq r.sq)
      else s)

end Sys2Proof.Machine
end

