-- ==== Sys2Proof/Machine/Matrix.lean ====
section
/-!
DEFINITION. The matrix array and its sequencer (R256, R265 to R272, R391 to R398): the checks of a command, its timing, the
arithmetic of its cells, and the steps of a macro-operation.
-/
namespace Sys2Proof.Machine
open Sys2Proof

/-! ### Engine commands (R203, R302, R392) -/

/-- The due offset of a command: DM × 4^DE (R302). -/
def Due.offset (d : Due) : Nat := d.dm.toNat * 4 ^ d.de.toNat

/-- The due table has no room for a command that declares a due cycle (R392). -/
def State.dueFull (s : State) (d : Due) : Option Stop :=
  if d.dm ≠ 0 && 32 ≤ s.cx.due.length then some (.fault 0x75) else none

/-- A command issued by the context of the bundle: it takes the next command number, enters the region's commands and,
with DM ≠ 0, the due table; `f` gives it to its engine. -/
def State.issueCommand (s : State) (d : Due) (f : Nat → Core → Core) : State :=
  let n := s.ck.nextCmd
  let s := s.modCk (fun k => f n { k with nextCmd := n + 1 })
  s.modCx (fun t =>
    { t with
      regionCmds := t.regionCmds ++ [n]
      due := if d.dm = 0 then t.due else t.due ++ [⟨n, s.issue.cc + Due.offset d, true, false, none⟩] })

/-- The launch of the issuing context, as a number. -/
def State.launchKey (s : State) : Nat := s.cx.launch.getD 0

/-! ### The shape of a command (R265 to R268) -/

/-- Elements of A per row and cell: p. -/
def packing (fa : Nat) : Nat := if fa < 2 then 1 else if fa < 4 then 2 else 4

/-- What MD0, MD1 and the sparsity word say. -/
structure Shape where
  arow : Nat
  wrow : Nat
  steps : Nat
  tile : Nat
  fa : Nat
  fb : Nat
  kba : Nat
  kbb : Nat
  zero : Bool
  asc : Nat
  wsc : Nat
  n : Nat
  mrow : Nat
  clean : Bool

/-- N of N-of-24 sparsity; 0 is dense (R267). -/
def sparsityN (nsel : Nat) : Nat := if nsel = 1 then 6 else if nsel = 2 then 8 else if nsel = 3 then 12 else 0

/-- The fields of a command; `clean` says that every reserved field is zero. -/
def shapeOf (md0 md1 sw : Nat) : Shape where
  arow := field md0 12 0
  wrow := field md0 26 13
  steps := field md0 38 27
  tile := field md0 43 39
  fa := field md0 46 44
  fb := field md0 49 47
  kba := field md0 52 50
  kbb := field md0 55 53
  zero := md0.testBit 56
  asc := field md1 12 0
  wsc := field md1 26 13
  n := sparsityN (field sw 1 0)
  mrow := field sw 15 2
  clean := field md0 63 57 == 0 && field md1 63 27 == 0 && field sw 31 16 == 0

/-- p. -/
def Shape.p (d : Shape) : Nat := packing d.fa
/-- The reduction length K. -/
def Shape.k (d : Shape) : Nat := d.p * d.steps
/-- G, the groups of 24. -/
def Shape.g (d : Shape) : Nat := d.k / 24
/-- The stored steps SB. -/
def Shape.sb (d : Shape) : Nat := if d.n = 0 then d.steps else ceilDiv (d.n * d.g) d.p
/-- Q, the blocks of 32. -/
def Shape.q (d : Shape) : Nat := ceilDiv d.k 32
/-- MXFP4 operands. -/
def Shape.mx (d : Shape) : Bool := d.fa == 5
/-- The rows of A scales. -/
def Shape.ascRows (d : Shape) : Nat := if d.mx then ceilDiv d.q 2 else 0
/-- The rows of W scales. -/
def Shape.wscRows (d : Shape) : Nat := if d.mx then ceilDiv d.q 4 else 0
/-- The rows of W data. -/
def Shape.wRows (d : Shape) : Nat := ceilDiv d.sb 2
/-- The rows of sparsity metadata. -/
def Shape.maskRows (d : Shape) : Nat := if d.n = 0 then 0 else ceilDiv (3 * d.g) 4
/-- Ts, the stream cycles (R270). -/
def Shape.stream (d : Shape) : Nat := max (d.sb + d.ascRows) (d.wRows + d.maskRows + d.wscRows)

/-- Consecutive rows of a buffer. -/
def rowRun (b : Buf) (r n : Nat) : List (Buf × Nat) := (List.range n).map (fun i => (b, r + i))
/-- The A rows of a command. -/
def Shape.aRun (d : Shape) : List (Buf × Nat) := rowRun .a d.arow d.steps ++ rowRun .a d.asc d.ascRows
/-- The W rows of a command. -/
def Shape.wRun (d : Shape) : List (Buf × Nat) :=
  rowRun .w d.wrow d.wRows ++ rowRun .w d.mrow d.maskRows ++ rowRun .w d.wsc d.wscRows

/-- A run of rows lies in one bank group. -/
def inGroup (b : Buf) (g r n : Nat) : Bool := n == 0 || (r / groupRows b == g && (r + n - 1) / groupRows b == g)

/-- R269, R396: the operands of a command are valid. -/
def Shape.ok (d : Shape) : Bool :=
  let ga := d.arow / 2048
  let gw := d.wrow / 2048
  d.clean && d.fa ≤ 5 && d.fb ≤ 5 && 1 ≤ d.steps && d.steps ≤ 2048 && packing d.fa == packing d.fb
    && (d.fa == 5) == (d.fb == 5) && (d.mx || (d.asc == 0 && d.wsc == 0))
    && (if d.n = 0 then d.mrow == 0 else d.k % 24 == 0)
    && inGroup .a ga d.arow d.steps && inGroup .a ga d.asc d.ascRows
    && inGroup .w gw d.wrow d.wRows && inGroup .w gw d.mrow d.maskRows && inGroup .w gw d.wsc d.wscRows

/-- The shape of an array operation. -/
def ArrayOp.shape : ArrayOp → Option Shape
  | .mm md0 md1 sw _ _ _ => some (shapeOf md0.toNat md1.toNat sw.toNat)
  | .accz _ => none
/-- The tile of an array operation. -/
def ArrayOp.tile : ArrayOp → Nat
  | .mm md0 _ _ _ _ _ => field md0.toNat 43 39
  | .accz t => t
/-- Whether an operation starts from +0 instead of reading its tile. -/
def ArrayOp.fresh : ArrayOp → Bool
  | .mm _ _ _ _ _ z => z
  | .accz _ => true
/-- The stream cycles of an operation. -/
def ArrayOp.stream (o : ArrayOp) : Nat := (o.shape.map Shape.stream).getD 1

/-! ### Arithmetic (R256) -/

/-- The value of an operand code under a format. -/
def operandVal (f : Nat) (kb : BitVec 256) (x : Nat) : Val := if f < 4 then widen (f + 1) x else widen 1 (elem 16 kb.toNat x)

/-- A[m][k] of a step (R266). -/
def Shape.aAt (d : Shape) (s : Streamed) (kb : BitVec 256) (m k : Nat) : Val :=
  operandVal d.fa kb (elem (16 / d.p) (s.a.getD (k / d.p) 0).toNat (d.p * m + k % d.p))

/-- The stored element u of column n (R266, R268). -/
def Shape.bStored (d : Shape) (s : Streamed) (kb : BitVec 256) (n u : Nat) : Val :=
  let j := u / d.p
  let b := 16 / d.p
  operandVal d.fb kb (elem b (s.w.getD (j / 2) 0).toNat (j % 2 * (1024 / b) + d.p * n + u % d.p))

/-- A byte of consecutive rows. -/
def rowsByte (l : List Row) (i : Nat) : Nat := elem 8 (l.getD (i / 256) 0).toNat (i % 256)

/-- The mask of a group and column (R268). -/
def maskOf24 (l : List Row) (g n : Nat) : Nat :=
  let o := 192 * g + 3 * n
  rowsByte l o + rowsByte l (o + 1) * 2 ^ 8 + rowsByte l (o + 2) * 2 ^ 16

/-- The product at k of cell (m, n): an absent weight gives an exact +0. -/
def Shape.product (d : Shape) (s : Streamed) (kba kbb : BitVec 256) (m n k : Nat) : Val :=
  if d.n = 0 then (mulVal (d.aAt s kba m k) (d.bStored s kbb n k)).1
  else
    let mask := maskOf24 s.masks (k / 24) n
    let i := popCount 24 (mask % 2 ^ (k % 24))
    if mask.testBit (k % 24) && i < d.n then
      (mulVal (d.aAt s kba m k) (d.bStored s kbb n (d.n * (k / 24) + i))).1
    else .zero false

/-- A value is +infinity or -infinity. -/
def Val.isInfOf (neg : Bool) (x : Val) : Bool := x == .inf neg

/-- One block of products added to an accumulator code, with the exponent of its scales. -/
def addBlock (c : Nat) (ps : List Val) (scale : Option Int) : Nat :=
  match scale with
  | none => qnan 0
  | some e =>
    if ps.any (· == .nan) || (ps.any (Val.isInfOf false) && ps.any (Val.isInfOf true)) then qnan 0
    else if ps.any (Val.isInfOf false) then (rne 0 (addVal (widen 0 c) (.inf false)).1).1
    else if ps.any (Val.isInfOf true) then (rne 0 (addVal (widen 0 c) (.inf true)).1).1
    else
      let x : Val := match ps with
        | [] => .zero false
        | p :: t => t.foldl (fun a b => (addVal a b).1) p
      (rne 0 (addVal (widen 0 c) (x.scale e)).1).1

/-- The exponent of a block's scales; none when one is 0xFF (R255). -/
def Shape.blockScale (d : Shape) (s : Streamed) (m n q : Nat) : Option Int :=
  if d.mx then
    let ea := rowsByte s.asc (128 * q + m)
    let eb := rowsByte s.wsc (64 * q + n)
    if ea = 0xFF ∨ eb = 0xFF then none else some ((ea : Int) + eb - 254)
  else some 0

/-- One step's products added to cell (m, n). -/
def Shape.cell (d : Shape) (s : Streamed) (kba kbb : BitVec 256) (m n c : Nat) : Nat :=
  (List.range d.q).foldl (fun c q =>
    let ks := (List.range (min 32 (d.k - 32 * q))).map (32 * q + ·)
    addBlock c (ks.map (d.product s kba kbb m n)) (d.blockScale s m n q)) c

/-- One step's effect on row m of the tile. -/
def ArrayOp.row (o : ArrayOp) (s : Streamed) (m : Nat) (c : Row) : Row :=
  match o, o.shape with
  | .mm _ _ _ kba kbb _, some d =>
    BitVec.ofNat 2048 (ofElems 32 ((List.range 64).map (fun n => d.cell s kba kbb m n (elem 32 c.toNat n))))
  | _, _ => 0

/-- Row m of a command's result from the accumulator row read. -/
def ArrayCmd.result (c : ArrayCmd) (m : Nat) : Row :=
  ((c.op :: c.more).zip c.rows).foldl (fun r p => p.1.row p.2 m r) (if c.op.fresh then 0 else c.acc.getD m 0)

/-! ### Timing (R270, R398) -/

/-- The engine-port cycles that queued commands take in a C group. -/
def Core.portBusy (k : Core) (g : Nat) : List Nat :=
  ((k.array.filter (fun c => c.op.tile / 8 == g)).map (fun c => c.reads ++ c.writes)).flatten

/-- The cycles for which a command whose first access of a C group would come in cycle t waits until the accesses of earlier
commands to that group have been served. -/
def portWait (busy : List Nat) (t : Nat) : Nat := (busy.map (· + 1 - t)).foldl max 0

/-- 128 cycles from one on, a row in each. -/
def rowCycles (t : Nat) : List Nat := (List.range 128).map (t + ·)

/-- The accesses of a command: its reads, its writes and its completion, moved back by the cycles it waits. -/
def portCycles (busy : List Nat) (start ts : Nat) (fresh : Bool) : List Nat × List Nat × Nat :=
  let out := start + max ts 128 + 16
  let d := portWait busy (if fresh then out else start)
  (if fresh then [] else rowCycles (start + d), rowCycles (out + d), out + d + 127)

/-- A command placed last in the array queue: its stream starts after that of the command before it, and its accesses come after
those of earlier commands to its C group (R270, R398). -/
def Core.placeCmd (k : Core) (c : ArrayCmd) : Core :=
  let start := max (c.entered + 1) (k.streamEnd + 1)
  let ts := (c.op :: c.more).foldl (fun a o => a + o.stream) 0
  let busy := k.portBusy (c.op.tile / 8)
  let (reads, writes, complete, streamEnd) := match c.op with
    | .accz _ =>
      let t := start + portWait busy start
      ([], rowCycles t, t + 128, start)
    | _ =>
      let (r, w, e) := portCycles busy start ts c.op.fresh
      (r, w, e, start + ts - 1)
  { k with
    array := k.array ++ [{ c with start := start, streamEnd := streamEnd, reads := reads, writes := writes, complete := complete }]
    streamEnd := streamEnd }

/-- A command enters the array queue in a core cycle. -/
def Core.enterArray (k : Core) (cycle cmd ctx launch : Nat) (op : ArrayOp) (more : List ArrayOp) (follow : Option Nat) :
    Core :=
  k.placeCmd ⟨cmd, ctx, launch, op, more, cycle, 0, 0, [], [], 0, false, [], [], follow⟩

/-- The queue entries held in a core cycle (R270). -/
def Core.arrayHeld (k : Core) (cycle : Nat) : Nat := (k.array.filter (fun c => cycle ≤ c.streamEnd)).length

/-! ### Issue (R396, R398) -/

/-- A local write goes to an operand group of a list of rows. -/
def LocalWrite.hits (w : LocalWrite) (l : List (Buf × Nat)) : Bool :=
  l.any (fun p => p.1 == w.buf && p.2 / groupRows p.1 == w.row / groupRows w.buf)

/-- A local write of the core in flight to an operand group (R220). -/
def Core.writeInFlight (k : Core) (l : List (Buf × Nat)) : Bool := k.ctxs.any (fun t => t.localWrites.any (·.hits l))

/-- Each row of a list touched by a matrix command of the bundle's context (R231). -/
def State.touchRows (s : State) (source : Nat) (l : List (Buf × Nat)) : State :=
  s.modCk (fun k => l.foldl (fun k p => k.touch s.issue.ctx source p.1 p.2) k)

/-- The command of MD0, MD1 and a literal word with the codebooks as they stand. -/
def State.mmOp (s : State) (md0 md1 : Word) (sw : BitVec 32) (zero : Bool) : ArrayOp :=
  let d := shapeOf md0.toNat md1.toNat sw.toNat
  .mm md0 md1 sw (vget s.cx.kb d.kba) (vget s.cx.kb d.kbb) zero

/-- mm (R396). -/
def execMm (due : Due) (a b : Sel) (s : State) : Res :=
  .next (s.with2S .x a b (fun md0 md1 s => s.unless .x (s.dueFull due) (fun s =>
    match s.literal s.cx.lpc.toNat with
    | .error c => s.fail .x c
    | .ok sw =>
      let d := shapeOf md0.toNat md1.toNat sw.toNat
      let rows := d.aRun ++ d.wRun
      if !d.ok then s.fail .x 0x75
      else if s.ck.writeInFlight rows then s.fail .x 0x21
      else
        let full := if 4 ≤ s.ck.arrayHeld s.cycle then some (Stop.block 6 .array) else none
        s.unless .x (firstStop (s.watermark rows) full) (fun s =>
          let op := s.mmOp md0 md1 sw d.zero
          let s := (s.touchRows 2 rows).issueCommand due (fun n k =>
            k.enterArray s.cycle n s.issue.ctx s.launchKey op [] none)
          s.modCx (fun t => { t with lpc := t.lpc + 1 })))))

/-- accz (R398). -/
def execAccz (t : BitVec 5) (s : State) : Res :=
  .next (s.unless .x (if 4 ≤ s.ck.arrayHeld s.cycle then some (.block 6 .array) else none) (fun s =>
    s.issueCommand ⟨0, 0⟩ (fun n k => k.enterArray s.cycle n s.issue.ctx s.launchKey (.accz t.toNat) [] none)))

/-! ### Macro-operations (R271, R272, R397) -/

/-- MD0 of step i of a macro. -/
def macroMd0 (md0 : Word) (da dw dc i : Nat) : Word :=
  let x := md0.toNat
  let x := setField x 12 0 (field x 12 0 + i * da)
  let x := setField x 26 13 (field x 26 13 + i * dw)
  BitVec.ofNat 64 (setField x 43 39 (field x 43 39 + i * dc))

/-- The check of step i of a macro (R397): its literal word, or a fault. -/
def State.macroStepCheck (s : State) (md0 md1 : Word) (da dw dc i : Nat) : Except Nat (BitVec 32) :=
  match s.literal (s.cx.lpc.toNat + i) with
  | .error c => .error c
  | .ok sw =>
    let x := md0.toNat
    if 8191 < field x 12 0 + i * da || 16383 < field x 26 13 + i * dw || 31 < field x 43 39 + i * dc then .error 0x75
    else if (shapeOf (macroMd0 md0 da dw dc i).toNat md1.toNat sw.toNat).ok then .ok sw
    else .error 0x75

/-- The checks of every step in ascending order: the literal words, or the first fault. -/
def State.macroChecks (s : State) (md0 md1 : Word) (da dw dc : Nat) : Nat → Nat → Except Nat (List (BitVec 32))
  | 0, _ => .ok []
  | n + 1, i => do
    let w ← s.macroStepCheck md0 md1 da dw dc i
    let l ← s.macroChecks md0 md1 da dw dc n (i + 1)
    return w :: l

/-- Step i of a macro as an array operation; ZERO applies to step 0 only (R271). -/
def MacroRun.op (m : MacroRun) (i : Nat) : ArrayOp :=
  .mm (macroMd0 m.md0 m.da m.dw m.dc i) m.md1 (m.words.getD i 0) m.kba m.kbb (m.md0.getLsbD 56 && i == 0)

/-- The rows of every step of a macro. -/
def MacroRun.rows (m : MacroRun) : List (Buf × Nat) :=
  ((List.range m.nstep).map (fun i => match (m.op i).shape with
    | some d => d.aRun ++ d.wRun
    | none => [])).flatten

/-- seqst as the macros in the sequencer leave it (R272): the macro in the first place, which it holds to the end of the
cycle in which its last step entered the array; an empty sequencer keeps the record of the last one, not ACTIVE. -/
def Core.setSeqst (k : Core) : Core :=
  let show' (m : MacroRun) (queued active : Bool) : Core :=
    { k with seqst := BitVec.ofNat 64 (m.ctx * 2 ^ 46 + b2n queued * 2 ^ 45 + b2n active * 2 ^ 44 + m.nstep * 2 ^ 16 + m.step) }
  match k.macros with
  | m :: t => show' m (!t.isEmpty) true
  | [] => { k with seqst := k.seqst &&& ~~~ BitVec.ofNat 64 (3 * 2 ^ 44) }

/-- mmacro (R397). -/
def execMmacro (due : Due) (a : BitVec 6) (b : Sel) (s : State) : Res :=
  .next (with1 (s.srcS .x a) (fun md0 s => with1 (s.srcS .x (a + 1)) (fun md1 s => s.with1S .x b (fun w s =>
    s.unless .x (s.dueFull due) (fun s =>
      let n := field w.toNat 11 0 + 1
      let da := field w.toNat 24 12
      let dw := field w.toNat 38 25
      let dc := field w.toNat 43 39
      if field w.toNat 63 44 ≠ 0 then s.fail .x 0x75
      else match s.macroChecks md0 md1 da dw dc n 0 with
        | .error c => s.fail .x c
        | .ok words =>
          let d := shapeOf md0.toNat md1.toNat 0
          let m : MacroRun := ⟨0, s.issue.ctx, s.cx.home, s.launchKey, md0, md1, da, dw, dc, n, 0, words,
            vget s.cx.kb d.kba, vget s.cx.kb d.kbb, false, none⟩
          if s.ck.writeInFlight m.rows then s.fail .x 0x21
          else
            let full := if 2 ≤ s.ck.macros.length then some (Stop.block 6 .sequencer) else none
            (s.note (fun r => { r with macroRows := m.rows })).unless .x (firstStop (s.watermark m.rows) full) (fun s =>
              let s := (s.touchRows 2 m.rows).issueCommand due (fun c k =>
                ({ k with macros := k.macros ++ [{ m with cmd := c }] } : Core).setSeqst)
              s.modCx (fun t => { t with lpc := t.lpc + BitVec.ofNat 14 n })))))))

/-- The cycle from which a macro with DC = 0 hands over its next step: its command's start and the streams before. -/
def Core.stepStart (k : Core) (m : MacroRun) : Nat :=
  match k.array.find? (fun c => c.cmd == m.cmd) with
  | some c => c.start + ((List.range m.step).map (fun i => (m.op i).stream)).foldl (· + ·) 0
  | none => 0

/-- The macro that the sequencer serves: the first one whose steps have not all entered the array. -/
def Core.macroNow (k : Core) : Option MacroRun := k.macros.find? (fun m => m.left.isNone)

/-- The sequencer may act in a cycle: hand over a step, or drop a macro that is stopped. -/
def Core.macroReady (k : Core) (cycle : Nat) : Bool :=
  match k.macroNow with
  | none => false
  | some m =>
    m.stopped
      || (k.macros.head?.map (·.cmd) == some m.cmd
        && (if m.dc = 0 && m.step ≠ 0 then k.stepStart m ≤ cycle else k.arrayHeld cycle < 4))

/-- The command of a stopped macro with DC = 0 ends at the step boundary that its stream has reached (R272). -/
def ArrayCmd.truncate (c : ArrayCmd) (steps : Nat) : ArrayCmd :=
  let ops := (c.op :: c.more).take steps
  let ts := ops.foldl (fun a o => a + o.stream) 0
  let delta := c.streamEnd - (c.start + ts - 1)
  let shift := if 128 ≤ ts then delta else delta - (128 - ts)
  { c with more := ops.tail, streamEnd := c.streamEnd - delta, writes := c.writes.map (· - shift), complete := c.complete - shift }

/-- The command of a stopped macro with DC = 0 truncated in the array queue: the commands behind it, none of which has
started, follow its new stream end (R270). -/
def Core.truncateCmd (k : Core) (cmd steps : Nat) : Core :=
  match k.array.span (fun c => c.cmd != cmd) with
  | (before, c :: behind) =>
    let c := c.truncate steps
    behind.foldl Core.placeCmd { k with array := before ++ [c], streamEnd := c.streamEnd }
  | _ => k

/-- MACRO_STEP (R272): the sequencer hands its next step to the array queue, or drops the rest of a stopped macro. -/
def execMacroStep (core : Nat) (s : State) : Res :=
  .next (s.modCore core (fun k =>
    if !k.macroReady s.cycle then k
    else match k.macroNow with
      | none => k
      | some m =>
        let upd (f : MacroRun → MacroRun) (k : Core) : Core :=
          ({ k with macros := k.macros.map (fun q => if q.cmd = m.cmd then f q else q) } : Core).setSeqst
        if m.stopped then
          let k := if m.dc = 0 && m.step ≠ 0 then k.truncateCmd m.cmd m.step else k
          upd (fun q => { q with left := some s.cycle }) k
        else
          let k := if m.dc = 0 then
              if m.step = 0 then
                k.enterArray s.cycle m.cmd m.ctx m.launch (m.op 0) ((List.range (m.nstep - 1)).map (fun i => m.op (i + 1))) none
              else k
            else k.enterArray s.cycle m.cmd m.ctx m.launch (m.op m.step) [] none
          upd (fun q => { q with step := q.step + 1, left := if q.step + 1 = q.nstep then some s.cycle else none }) k))

/-! ### Engine ports (R218, R220) -/

/-- A bank group as one number. -/
def groupKey (b : Buf) (g : Nat) : Nat := bufCode b * 16 + g

/-- The engine port of a row's bank group is free in a core cycle. -/
def Core.portFree (k : Core) (cycle : Nat) (b : Buf) (r : Nat) : Bool :=
  let g := r / groupRows b
  !k.streamed cycle b g && !(b == .c && (k.portBusy g).contains cycle)
    && !(k.portCycle == cycle && k.portUsed.contains (groupKey b g))

/-- A delivery or a landing may use the engine port of a row's bank group: it is free, and the core has not issued in this cycle, so
that the core's own accesses of the cycle come after (R218, R221). -/
def State.portOpen (s : State) (c : Nat) (b : Buf) (r : Nat) : Bool := s.turn ≤ c && (s.core c).portFree s.cycle b r

/-- The engine port of a row's bank group taken for a core cycle. -/
def Core.usePort (k : Core) (cycle : Nat) (b : Buf) (r : Nat) : Core :=
  let key := groupKey b (r / groupRows b)
  if k.portCycle = cycle then { k with portUsed := key :: k.portUsed }
  else { k with portCycle := cycle, portUsed := [key], landCount := 0 }

/-! ### The cells at work (R270, R284) -/

/-- A landing index of a channel's current entry is performed (R228): LANDED advances in the next cycle. -/
def Channel.perform (c : Channel) (uid i cycle : Nat) : Channel :=
  match c.queue with
  | e :: rest =>
    if c.active && !c.err && e.uid = uid then
      let done := setInsert e.done i
      let run := (List.range done.length).foldl (fun n _ => if done.contains n then n + 1 else n) c.landed
      let old := match c.pendingLanded with
        | some (t, o) => if t = cycle then o else c.landed
        | none => c.landed
      { c with
        queue := { e with done := done.filter (fun j => run ≤ j) } :: rest
        landed := run
        pendingLanded := some (cycle, old) }
    else c
  | [] => c

/-- The rows that a step streams, as they stand. -/
def Core.streamRows (k : Core) (o : ArrayOp) : Streamed :=
  match o.shape with
  | none => ⟨[], [], [], [], []⟩
  | some d =>
    let get (b : Buf) (r n : Nat) : List Row := (List.range n).map (fun i => k.row b (r + i))
    ⟨get .a d.arow d.steps, get .a d.asc d.ascRows, get .w d.wrow d.wRows, get .w d.mrow d.maskRows,
      get .w d.wsc d.wscRows⟩

/-- MATRIX_COMMAND_START (R270): the first queued command whose start has come reads what it streams. -/
def execMatrixCommandStart (core : Nat) (s : State) : Res :=
  .next (s.modCore core (fun k =>
    match k.array.findIdx? (fun c => !c.started) with
    | none => k
    | some i => match k.array[i]? with
      | none => k
      | some c =>
        if c.start ≤ s.cycle then
          { k with array := k.array.set i { c with started := true, rows := (c.op :: c.more).map k.streamRows } }
        else k))

/-- MATRIX_COMMAND_COMPLETE (R270): the first command that has written its tile and reached its completion leaves. -/
def execMatrixCommandComplete (core : Nat) (s : State) : Res :=
  .next (s.modCore core (fun k =>
    match k.array.findIdx? (fun c => c.started && c.writes.isEmpty && c.complete ≤ s.cycle) with
    | none => k
    | some i => { k with array := k.array.eraseIdx i }))

/-- The accumulator reads of a core cycle, after its writes. -/
def Core.matrixReads (k : Core) (cycle : Nat) : Core :=
  { k with array := k.array.map (fun c => match c.reads with
    | t :: rest =>
      if t ≤ cycle && c.started then
        { c with reads := rest, acc := c.acc ++ [k.row .c (128 * c.op.tile + c.acc.length)] }
      else c
    | [] => c) }

/-- A clear needs no operands: it writes from its start on, whether or not its start has been taken (R398). -/
def ArrayCmd.writing (c : ArrayCmd) : Bool :=
  c.started || (match c.op with
    | .accz _ => true
    | .mm _ _ _ _ _ _ => false)

/-- The row writes of one command in a core cycle, each on its group's engine port (R218). -/
def Core.matrixWrite (k : Core) (cycle i : Nat) : Core :=
  match k.array[i]? with
  | none => k
  | some c => match c.writes with
    | [] => k
    | t :: rest =>
      if t ≤ cycle && c.writing then
        let m := 128 - c.writes.length
        let k := (k.usePort cycle .c (128 * c.op.tile + m)).setRow .c (128 * c.op.tile + m) (c.result m)
        let k := { k with array := k.array.set i { c with writes := rest } }
        match c.follow with
        | some ch => k.modChan ch (fun q => match q.queue with
            | e :: _ => if e.followCmd = some c.cmd then q.perform e.uid (e.rows + m) cycle else q
            | [] => q)
        | none => k
      else k

/-- The row writes of a core cycle, command by command. -/
def Core.matrixWrites (k : Core) (cycle : Nat) : Core :=
  (List.range k.array.length).foldl (fun k i => k.matrixWrite cycle i) k

/-- A macro's place is free in a cycle: its last step entered the array, or it was dropped, in an earlier one. -/
def MacroRun.gone (m : MacroRun) (cycle : Nat) : Bool := match m.left with
  | some t => t < cycle
  | none => false

/-- Macros whose places are free from a cycle on leave the sequencer, and seqst shows the one then first (R272). -/
def Core.freePlaces (k : Core) (cycle : Nat) : Core :=
  if k.macros.any (fun m => m.gone cycle) then
    ({ k with macros := k.macros.filter (fun m => !m.gone cycle) } : Core).setSeqst
  else k

end Sys2Proof.Machine
end

