-- ==== Sys2Proof/Machine/Flags.lean ====
section
/-!
DEFINITION. Results and flags of the element operations (R244, R252, R347, R349): each gives the element's code and the
flags it raises (NV 16, DZ 8, OF 4, UF 2, NX 1).
-/
namespace Sys2Proof.Machine
open Sys2Proof

/-- NV for a signalling NaN among the operands (R244). -/
def snanFlag (f : Nat) (l : List Nat) : Nat := if l.any (isSnan f) then 16 else 0

/-- An exact result rounded once with rne, with the flags of its computation. -/
def roundOnce (f : Nat) (l : List Nat) (x : Val × Nat) : Nat × Nat :=
  let (r, g) := rne f x.1
  (r, snanFlag f l ||| x.2 ||| g)

/-- x + y. -/
def fAdd (f x y : Nat) : Nat × Nat := roundOnce f [x, y] (addVal (widen f x) (widen f y))
/-- x - y. -/
def fSub (f x y : Nat) : Nat × Nat := roundOnce f [x, y] (addVal (widen f x) (widen f y).negate)
/-- x × y. -/
def fMul (f x y : Nat) : Nat × Nat := roundOnce f [x, y] (mulVal (widen f x) (widen f y))
/-- x × y + d, rounded once; with `neg`, d - x × y. -/
def fFma (f : Nat) (neg : Bool) (x y d : Nat) : Nat × Nat :=
  let (p, g) := mulVal (widen f x) (widen f y)
  let (r, h) := addVal (if neg then p.negate else p) (widen f d)
  roundOnce f [x, y, d] (r, g ||| h)
/-- smaller(x, y). -/
def fMin (f x y : Nat) : Nat × Nat := (smallerOf f x y, snanFlag f [x, y])
/-- larger(x, y). -/
def fMax (f x y : Nat) : Nat × Nat := (largerOf f x y, snanFlag f [x, y])
/-- x with its sign cleared. -/
def fAbs (f x : Nat) : Nat × Nat := if isNan f x then (qnan f, snanFlag f [x]) else (magBits f x, 0)
/-- x with its sign inverted. -/
def fNeg (f x : Nat) : Nat × Nat :=
  if isNan f x then (qnan f, snanFlag f [x]) else (withSign f (!signBit f x) (magBits f x), 0)

/-- The conditions of the vector compares (R349). -/
inductive VCond where
  | eq | lt | le | ne | ltn
  deriving DecidableEq, Repr

/-- A compare of two elements, and its flags: lt and le raise NV for any NaN, eq and ne for a signalling one. -/
def compareElem (f : Nat) (c : VCond) (x y : Nat) : Bool × Nat :=
  if isFloat f then
    let nan := isNan f x || isNan f y
    let o := cmpVal (widen f x) (widen f y)
    match c with
    | .eq => (!nan && o == .eq, snanFlag f [x, y])
    | .ne => (nan || o != .eq, snanFlag f [x, y])
    | .lt | .ltn => (!nan && o == .lt, if nan then 16 else 0)
    | .le => (!nan && o != .gt, if nan then 16 else 0)
  else
    let sx := signed (fmtBits f) x
    let sy := signed (fmtBits f) y
    (match c with
    | .eq => x == y
    | .ne => x != y
    | .lt => sx < sy
    | .le => sx ≤ sy
    | .ltn => x < y, 0)

/-- An element-wise operation of R347 by format: the floating one, or the integer one wrapped to the width. -/
def byFormat (f : Nat) (fl : Nat → Nat → Nat × Nat) (int : Int → Int → Int) (x y : Nat) : Nat × Nat :=
  if isFloat f then fl x y else (wrap (fmtBits f) (int (signed (fmtBits f) x) (signed (fmtBits f) y)), 0)

end Sys2Proof.Machine
end

