-- ==== Sys2Proof/Machine/Vector.lean ====
section
/-!
DEFINITION. The vector operations (R340 to R356).
-/
namespace Sys2Proof.Machine
open Sys2Proof

/-- The result of an operation whose element i is g of the old destination and i, b bits wide, written under R343: `useD`
says that g uses the destination, `zero` selects the zeroing form. -/
def State.vout (s : State) (k : Slot) (p w : Bool) (dst : BitVec 6) (lat b : Nat) (useD zero : Bool)
    (g : Nat → Nat → Nat × Nat) : State :=
  s.withPred k p (fun m s =>
    with1 (if useD || (p && !zero) then s.readReg k .v dst else (some 0, s)) (fun d s =>
      let (r, fl) := lanes b (2048 / b) m.toNat (if zero then 0 else d.toNat) (g d.toNat)
      (s.noteFlags k fl).write k (.v dst) lat r w))

/-- An element-wise operation with two sources: g of the elements of a, b and the destination (R347, R348). -/
def vector2 (f : VF) (lat b : Nat) (useD : Bool) (g : Nat → Nat → Nat → Nat × Nat) (s : State) : State :=
  s.with2V f.slot f.a f.b (fun x y s =>
    s.vout f.slot f.p f.w f.dst lat b useD false (fun d i => g (elem b x.toNat i) (elem b y.toNat i) (elem b d i)))

/-- An operation with one source whose element i is g of the source row and i. -/
def vector1 (f : VU) (lat b : Nat) (zero : Bool) (g : Nat → Nat → Nat × Nat) (s : State) : State :=
  s.with1V f.slot f.a (fun x s => s.vout f.slot f.p f.w f.dst lat b false zero (fun _ i => g x.toNat i))

/-- An operation with one source and an immediate. -/
def vectorImm (f : VI) (lat b : Nat) (g : Nat → Nat → Nat × Nat) (s : State) : State :=
  s.with1V f.slot f.a (fun x s => s.vout f.slot f.p f.w f.dst lat b false false (fun _ i => g x.toNat i))

/-- The width in bits of an element of a format. -/
def eb (f : Fmt) : Nat := fmtBits f.code

/-- A value with no flags. -/
def quiet (x : Nat) : Nat × Nat := (x, 0)

/-- A signed element. -/
def sgn (f : Fmt) (x : Nat) : Int := signed (eb f) x

/-- An element-wise operation of a floating and an integer form (R347). -/
def arith (f : VF) (lat : Nat) (fl : Nat → Nat → Nat → Nat × Nat) (int : Int → Int → Int) (s : State) : State :=
  vector2 f lat (eb f.fmt) false (fun x y _ => byFormat f.fmt.code (fl f.fmt.code) int x y) s

/-- x clamped between lo and hi. -/
def clamp (lo hi x : Int) : Int := max lo (min hi x)

/-- A saturating signed operation (R348). -/
def saturating (f : VF) (op : Int → Int → Int) (s : State) : State :=
  vector2 f 2 (eb f.fmt) false (fun x y _ =>
    quiet (wrap (eb f.fmt) (clamp (minInt f.fmt.code) (maxInt f.fmt.code) (op (sgn f.fmt x) (sgn f.fmt y))))) s

/-- x shifted left by u in b bits, zero from u = b (R348). -/
def shlElem (b x u : Nat) : Nat := if u < b then x * 2 ^ u % 2 ^ b else 0
/-- x shifted right by u, unsigned. -/
def shrElem (b x u : Nat) : Nat := if u < b then x / 2 ^ u else 0
/-- x shifted right by u, signed. -/
def sraElem (b x u : Nat) : Nat := wrap b (signed b x / (2 ^ min u (b - 1) : Nat))

/-! ### Shape (R340, R341) -/

/-- An operation that samples the shape, as it samples a source register (R342): 0x23 when the pending check is on and a vshp is
in flight (R230). -/
def State.withShape (s : State) (k : Slot) (f : State → State) : State :=
  if s.cx.pendChk && s.cx.pending .shp then s.fail k 0x23 else f s

/-- The columns of the shape for a format. -/
def State.cols (s : State) (f : Fmt) : Nat := 2 ^ s.cx.shp.toNat * (32 / (eb f))
/-- The rows of the shape. -/
def State.rows (s : State) : Nat := 64 / 2 ^ s.cx.shp.toNat

/-! ### Compares and predicates (R349 to R351) -/

/-- A mask of 64 bits. -/
def maskOf (f : Nat → Bool) : Nat := (List.range 64).foldl (fun a k => a + b2n (f k) * 2 ^ k) 0

/-- The old value of the predicate destination, read when a predicate may keep some of it. -/
def State.oldQ (s : State) (k : Slot) (p : Bool) (dst : BitVec 3) : Option Word × State :=
  if p then s.readQ k dst else (some 0, s)

/-- A vector compare (R349): a lane's bit is 1 when every element of the lane satisfies the condition. -/
def vcompare (f : VC) (c : VCond) (s : State) : State :=
  s.with2V f.slot f.a f.b (fun x y s => s.withPred f.slot f.p (fun m s => with1 (s.oldQ f.slot f.p f.dst) (fun d s =>
    let b := (eb f.fmt)
    let g := 32 / b
    let on (k : Nat) := m.toNat.testBit k
    let cmp (i : Nat) := compareElem f.fmt.code c (elem b x.toNat i) (elem b y.toNat i)
    let hold (k : Nat) := (List.range g).all (fun j => (cmp (g * k + j)).1)
    let fl := (List.range 64).foldl (fun a k =>
      if on k then (List.range g).foldl (fun a j => a ||| (cmp (g * k + j)).2) a else a) 0
    let r := maskOf (fun k => if on k then hold k else d.toNat.testBit k)
    (s.noteFlags f.slot fl).write f.slot (.q f.dst) 2 (BitVec.ofNat 2048 r) f.w)))

/-- Predicate logic (R351). -/
def predicate2 (f : QL) (r : Word → Word → Word) (s : State) : State :=
  with1 (s.readQ f.slot f.a) (fun x s => with1 (s.readQ f.slot f.b) (fun y s =>
    s.write f.slot (.q f.dst) 2 ((r x y).setWidth 2048) f.w))

/-! ### Conversion (R352) and stochastic draws (R248) -/

/-- One step of the stochastic generator. -/
def srStep (g : BitVec 32) : BitVec 32 := if g.getLsbD 0 then g >>> 1 ^^^ 0x80200003#32 else g >>> 1

/-- n draws: the values drawn in order, and the generator after them. -/
def srDraws : Nat → BitVec 32 → List Nat × BitVec 32
  | 0, g => ([], g)
  | n + 1, g =>
    let g' := srStep g
    let (l, h) := srDraws n g'
    (g'.toNat :: l, h)

/-- The source format of a conversion: natural for an i32 or i16 source with a natural target. -/
def cvtSource (f : Fmt) (t : Nat) : Nat :=
  if 8 ≤ t && (f.code == 5 || f.code == 6) then f.code + 3 else f.code

/-- An element of a conversion's source as an exact value: an integer zero has no sign of its own, so under down it has
sign −, as every exact zero has (R245). -/
def cvtValue (src : Nat) (rm : Rm) (e : Nat) : Val :=
  let v := widen src e
  if rm = .down && !isFloat src && v == .zero false then .zero true else v

/-- vcvt and vcvts. -/
def convert (f : VV) (sat : Bool) (s : State) : State :=
  s.with1V f.slot f.a (fun x s =>
    let t := f.target.toNat
    let src := cvtSource f.fmt t
    let bs := fmtBits src
    let bt := fmtBits t
    let (draws, g) := if f.rm = .sr then srDraws (2048 / bt) s.cx.g else ([], s.cx.g)
    let s := s.modCx (fun c => { c with g := g })
    s.vout f.slot f.p f.w f.dst 2 bt false false (fun _ i =>
      if i < min (2048 / bs) (2048 / bt) then
        let e := elem bs x.toNat i
        let (r, fl) := roundTo t sat f.rm (draws.getD i 0) (cvtValue src f.rm e)
        (r, fl ||| snanFlag src [e])
      else quiet 0))

/-! ### MX dequantisation (R353) -/

/-- Element i of a dequantisation: code c under a codebook register with a scale. -/
def dequant (fmt : Nat) (kb : BitVec 256) (c e : Nat) : Nat × Nat :=
  if e = 0xFF then (qnan fmt, 0)
  else
    let w := elem 16 kb.toNat c
    let (r, fl) := rne fmt ((widen 1 w).scale ((e : Int) - 127))
    (r, fl ||| snanFlag 1 [w])

/-! ### Reductions (R356) -/

/-- The kinds of reduction. -/
inductive RedKind where
  | sum | max | min
  deriving DecidableEq, Repr

/-- One pair step on codes: f32 codes for a floating sum, codes of the format otherwise. -/
def redStep (f : Nat) (k : RedKind) (x y : Nat) : Nat × Nat :=
  match k with
  | .sum => if isFloat f then f32add x y else ((x + y) % 2 ^ fmtBits f, 0)
  | .max => if isFloat f then fMax f x y else (if signed (fmtBits f) x < signed (fmtBits f) y then y else x, 0)
  | .min => if isFloat f then fMin f x y else (if signed (fmtBits f) y < signed (fmtBits f) x then y else x, 0)

/-- The identity of a reduction (R356). -/
def redIdentity (f : Nat) (k : RedKind) : Nat :=
  match k with
  | .sum => 0
  | .max => if isFloat f then withSign f true (infCode f) else wrap (fmtBits f) (minInt f)
  | .min => if isFloat f then infCode f else wrap (fmtBits f) (maxInt f)

/-- The reduction of a list of inputs, EMPTY ones as none: its value and flags. -/
def reduceElems (f : Nat) (k : RedKind) (l : List (Option Nat)) : Nat × Nat :=
  let ins := l.filterMap id
  let nv := snanFlag f ins
  let widened := l.map (fun o => o.map (fun x => if k = .sum && isFloat f then (rne 0 (widen f x)).1 else x))
  match pairing (redStep f k) 9 widened with
  | (none, _) => (redIdentity f k, 0)
  | (some x, fl) =>
    if isFloat f then
      if k = .sum then
        let (r, g) := rne f (widen 0 x)
        (r, nv ||| fl ||| g)
      else (if isNan f x then qnan f else x, nv ||| fl)
    else (x, fl)

/-- A row or column reduction: the result is broadcast along the reduced dimension. -/
def reduction (f : VU) (byRow : Bool) (k : RedKind) (s : State) : State :=
  s.withShape f.slot fun s => s.with1V f.slot f.a (fun x s => s.withPred f.slot f.p (fun m s =>
    let b := (eb f.fmt)
    let c := s.cols f.fmt
    let r := s.rows
    let input (i : Nat) : Option Nat := if m.toNat.testBit (i / (32 / b)) then some (elem b x.toNat i) else none
    let groups := if byRow then (List.range r).map (fun i => (List.range c).map (fun j => input (i * c + j)))
      else (List.range c).map (fun j => (List.range r).map (fun i => input (i * c + j)))
    let res := groups.map (reduceElems f.fmt.code k)
    s.vout f.slot f.p f.w f.dst 6 b false false (fun _ i => res.getD (if byRow then i / c else i % c) (0, 0))))

/-- vadd (R347). -/
def execVadd (f : VF) (s : State) : Res :=
  .next (arith f 2 fAdd (fun x y => x + y) s)

/-- vsub (R347). -/
def execVsub (f : VF) (s : State) : Res :=
  .next (arith f 2 fSub (fun x y => x - y) s)

/-- vmul (R347). -/
def execVmul (f : VF) (s : State) : Res :=
  .next (arith f 3 fMul (fun x y => x * y) s)

/-- vfma: x × y + d, rounded once (R347). -/
def execVfma (f : VF) (s : State) : Res :=
  .next (vector2 f 4 (eb f.fmt) true (fun x y d => fFma f.fmt.code false x y d) s)

/-- vfms: d - x × y, rounded once (R347). -/
def execVfms (f : VF) (s : State) : Res :=
  .next (vector2 f 4 (eb f.fmt) true (fun x y d => fFma f.fmt.code true x y d) s)

/-- vmin (R347). -/
def execVmin (f : VF) (s : State) : Res :=
  .next (arith f 2 fMin (fun x y => min x y) s)

/-- vmax (R347). -/
def execVmax (f : VF) (s : State) : Res :=
  .next (arith f 2 fMax (fun x y => max x y) s)

/-- vabs (R347). -/
def execVabs (f : VU) (s : State) : Res :=
  .next (vector1 f 2 (eb f.fmt) false (fun x i =>
    let e := elem (eb f.fmt) x i
    if f.fmt.isFloat then fAbs f.fmt.code e else quiet (wrap (eb f.fmt) ((sgn f.fmt e).natAbs : Int))) s)

/-- vneg (R347). -/
def execVneg (f : VU) (s : State) : Res :=
  .next (vector1 f 2 (eb f.fmt) false (fun x i =>
    let e := elem (eb f.fmt) x i
    if f.fmt.isFloat then fNeg f.fmt.code e else quiet (wrap (eb f.fmt) (-(sgn f.fmt e)))) s)

/-- vadds (R348). -/
def execVadds (f : VF) (s : State) : Res :=
  .next (saturating f (fun x y => x + y) s)

/-- vsubs (R348). -/
def execVsubs (f : VF) (s : State) : Res :=
  .next (saturating f (fun x y => x - y) s)

/-- vaddsn: the unsigned values saturate at 2^b - 1 (R348). -/
def execVaddsn (f : VF) (s : State) : Res :=
  .next (vector2 f 2 (eb f.fmt) false (fun x y _ => quiet (min (2 ^ (eb f.fmt) - 1) (x + y))) s)

/-- vand (R348). -/
def execVand (f : VF) (s : State) : Res :=
  .next (vector2 f 2 32 false (fun x y _ => quiet (x &&& y)) s)

/-- vor (R348). -/
def execVor (f : VF) (s : State) : Res :=
  .next (vector2 f 2 32 false (fun x y _ => quiet (x ||| y)) s)

/-- vxor (R348). -/
def execVxor (f : VF) (s : State) : Res :=
  .next (vector2 f 2 32 false (fun x y _ => quiet (x ^^^ y)) s)

/-- vshl (R348). -/
def execVshl (f : VF) (s : State) : Res :=
  .next (vector2 f 2 (eb f.fmt) false (fun x y _ => quiet (shlElem (eb f.fmt) x y)) s)

/-- vshr (R348). -/
def execVshr (f : VF) (s : State) : Res :=
  .next (vector2 f 2 (eb f.fmt) false (fun x y _ => quiet (shrElem (eb f.fmt) x y)) s)

/-- vsra (R348). -/
def execVsra (f : VF) (s : State) : Res :=
  .next (vector2 f 2 (eb f.fmt) false (fun x y _ => quiet (sraElem (eb f.fmt) x y)) s)

/-- vshli (R348). -/
def execVshli (f : VI) (s : State) : Res :=
  .next (vectorImm f 2 (eb f.fmt) (fun x i => quiet (shlElem (eb f.fmt) (elem (eb f.fmt) x i) f.k.toNat)) s)

/-- vcmp.eq (R349). -/
def execVcmpEq (f : VC) (s : State) : Res :=
  .next (vcompare f .eq s)

/-- vcmp.lt (R349). -/
def execVcmpLt (f : VC) (s : State) : Res :=
  .next (vcompare f .lt s)

/-- vcmp.le (R349). -/
def execVcmpLe (f : VC) (s : State) : Res :=
  .next (vcompare f .le s)

/-- vcmp.ne (R349). -/
def execVcmpNe (f : VC) (s : State) : Res :=
  .next (vcompare f .ne s)

/-- vcmp.ltn (R349). -/
def execVcmpLtn (f : VC) (s : State) : Res :=
  .next (vcompare f .ltn s)

/-- vcvt (R352). -/
def execVcvt (f : VV) (s : State) : Res :=
  .next (convert f false s)

/-- vcvts (R352). -/
def execVcvts (f : VV) (s : State) : Res :=
  .next (convert f true s)

/-- vsel: elements of a where the governing bit is 1, of b elsewhere (R354). -/
def execVsel (f : VF) (s : State) : Res :=
  .next (s.with2V f.slot f.a f.b (fun x y s => s.withPred f.slot f.p (fun m s =>
    let b := (eb f.fmt)
    let r := ofElems b ((List.range (2048 / b)).map (fun i =>
      if m.toNat.testBit (i / (32 / b)) then elem b x.toNat i else elem b y.toNat i))
    s.write f.slot (.v f.dst) 2 (BitVec.ofNat 2048 r) f.w)))

/-- vmov (R354). -/
def execVmov (f : VU) (s : State) : Res :=
  .next (vector1 f 2 (eb f.fmt) false (fun x i => quiet (elem (eb f.fmt) x i)) s)

/-- vbcast: element k everywhere (R354). -/
def execVbcast (f : VI) (s : State) : Res :=
  .next (vectorImm f 3 (eb f.fmt) (fun x _ => quiet (elem (eb f.fmt) x f.k.toNat)) s)

/-- vperm: element i is element u_i mod n of a (R354). -/
def execVperm (f : VF) (s : State) : Res :=
  .next (s.with2V f.slot f.a f.b (fun x y s => s.vout f.slot f.p f.w f.dst 3 (eb f.fmt) false false (fun _ i =>
    quiet (elem (eb f.fmt) x.toNat (elem (eb f.fmt) y.toNat i % f.fmt.elems)))))

/-- vtrans: the transpose within the shape sampled at issue (R355). -/
def execVtrans (f : VU) (s : State) : Res :=
  .next (s.withShape f.slot fun s =>
    let r := s.rows
    let c := s.cols f.fmt
    vector1 f 4 (eb f.fmt) false (fun x i => quiet (elem (eb f.fmt) x (i % r * c + i / r))) s)

/-- vrsum: row sums (R356). -/
def execVrsum (f : VU) (s : State) : Res :=
  .next (reduction f true .sum s)

/-- vcsum: column sums (R356). -/
def execVcsum (f : VU) (s : State) : Res :=
  .next (reduction f false .sum s)

/-- vrmax: row maxima (R356). -/
def execVrmax (f : VU) (s : State) : Res :=
  .next (reduction f true .max s)

/-- vcmax: column maxima (R356). -/
def execVcmax (f : VU) (s : State) : Res :=
  .next (reduction f false .max s)

/-- vrmin: row minima (R356). -/
def execVrmin (f : VU) (s : State) : Res :=
  .next (reduction f true .min s)

/-- vcmin: column minima (R356). -/
def execVcmin (f : VU) (s : State) : Res :=
  .next (reduction f false .min s)

/-- vshp: the shape code, with latency 2 (R342). -/
def execVshp (k : Slot) (_h : Bool) (code : BitVec 3) (s : State) : Res :=
  .next (s.write k .shp 2 (code.setWidth 2048))

/-- vmovz: lanes predicated off take 0 (R354). -/
def execVmovz (f : VU) (s : State) : Res :=
  .next (vector1 f 2 (eb f.fmt) true (fun x i => quiet (elem (eb f.fmt) x i)) s)

/-- vpfx: the first min(c, 64) bits, the others 0 (R350). -/
def execVpfx (k : Slot) (_h p w : Bool) (dst : BitVec 3) (a : Sel) (s : State) : Res :=
  .next (s.with1S k a (fun c s => s.withPred k p (fun m s => with1 (s.oldQ k p dst) (fun d s =>
    let r := maskOf (fun i => if m.toNat.testBit i then i < min c.toNat 64 else d.toNat.testBit i)
    s.write k (.q dst) 2 (BitVec.ofNat 2048 r) w))))

/-- qand (R351). -/
def execQand (f : QL) (s : State) : Res :=
  .next (predicate2 f (fun x y => x &&& y) s)

/-- qor (R351). -/
def execQor (f : QL) (s : State) : Res :=
  .next (predicate2 f (fun x y => x ||| y) s)

/-- qxor (R351). -/
def execQxor (f : QL) (s : State) : Res :=
  .next (predicate2 f (fun x y => x ^^^ y) s)

/-- qnot (R351). -/
def execQnot (k : Slot) (_h w : Bool) (dst a : BitVec 3) (s : State) : Res :=
  .next (with1 (s.readQ k a) (fun x s => s.write k (.q dst) 2 ((~~~x).setWidth 2048) w))

/-- A scale register that a dequantisation reads is written by a result in flight (R230). -/
def Context.scalePending (t : Context) (first n : Nat) : Bool :=
  (List.range n).any (fun j => t.pending (.sc (BitVec.ofNat 4 (first + j))))

/-- vdq (R353): k[6:4] names the codebook register and k[3:0] the first scale register, which are read at issue like any
source. -/
def execVdq (f : VI) (s : State) : Res :=
  .next (
    let kb := vget s.cx.kb (f.k.toNat / 16)
    let sc := s.cx.sc
    if s.cx.pendChk && s.cx.scalePending (f.k.toNat % 16) (f.fmt.elems / 32) then s.fail f.slot 0x23
    else vectorImm f 3 (eb f.fmt) (fun x i =>
      dequant f.fmt.code kb (elem 4 x i) (vget sc (f.k.toNat % 16 + i / 32)).toNat) s)

/-- vmac: d + x × y, wrapping (R347). -/
def execVmac (f : VF) (s : State) : Res :=
  .next (vector2 f 4 (eb f.fmt) true (fun x y d => quiet ((d + x * y) % 2 ^ (eb f.fmt))) s)

/-- vrot: element i is element (i + k) mod n (R354). -/
def execVrot (f : VI) (s : State) : Res :=
  .next (vectorImm f 3 (eb f.fmt) (fun x i => quiet (elem (eb f.fmt) x ((i + f.k.toNat) % f.fmt.elems))) s)

/-- vsplat: the low element of a scalar everywhere (R354). -/
def execVsplat (f : VU) (s : State) : Res :=
  .next (s.with1S f.slot f.a (fun x s =>
    s.vout f.slot f.p f.w f.dst 3 (eb f.fmt) false false (fun _ _ => quiet (x.toNat % 2 ^ (eb f.fmt)))))

end Sys2Proof.Machine
end

