-- ==== Sys2Proof/Machine/Rotator.lean ====
section
/-!
DEFINITION. The rotator array (R258 to R264, R274 to R278, R399 to R404).
-/
namespace Sys2Proof.Machine
open Sys2Proof

/-! ### Significands (R258, R259, R262) -/

/-- m × 2^-n rounded with rne. -/
def rneShift (m : Int) (n : Nat) : Int := (roundInt .rne 0 (m < 0) m.natAbs (-(n : Int))).1

/-- KINV as a 40-bit fraction (R262). -/
def kinv : Int := 0x9B74EDA843

/-- comp(m) (R262). -/
def compensate (m : Int) : Int := rneShift (m * kinv) 40

/-- norm(m, E) and its flags (R259). -/
def normSig (m e : Int) : (Int × Int) × Nat :=
  if m = 0 then ((0, 0), 0)
  else
    let n := bitLen m.natAbs
    let (m, e) : Int × Int :=
      if n ≤ 36 then (m * 2 ^ (36 - n), e - (36 - n : Nat)) else (rneShift m (n - 36), e + (n - 36 : Nat))
    let (m, e) : Int × Int := if m.natAbs = 2 ^ 36 then (m / 2, e + 1) else (m, e)
    if 511 < e then ((if 0 < m then 2 ^ 36 - 1 else -(2 ^ 36 - 1), 511), 5)
    else if e < -512 then ((0, 0), 3)
    else ((m, e), 0)

/-- The alignment of two operands: their significands under the larger exponent (R259). -/
def alignSig (ma ea mb eb : Int) : Int × Int × Int :=
  let ea' := if ma = 0 then (if mb = 0 then 0 else eb) else ea
  let eb' := if mb = 0 then (if ma = 0 then 0 else ea) else eb
  let e := max ea' eb'
  let sh (m x : Int) : Int := if 41 ≤ (e - x) then 0 else rneShift m (e - x).toNat
  (sh ma ea', sh mb eb', e)

/-- ⌊log2 |x|⌋ of a finite nonzero value. -/
def floorLog (x : Val) : Int :=
  match x with
  | .fin _ m e => e + (bitLen m : Int) - 1
  | _ => 0

/-- to_rowblock (R258): INVALID, E and the significands. -/
def toRowblock (l : List Nat) : Bool × Int × List Int :=
  let vs := l.map (widen 0)
  if vs.any (fun v => match v with | .nan | .inf _ => true | _ => false) then (true, 0, l.map (fun _ => 0))
  else
    let nz := vs.filter (fun v => match v with | .fin _ _ _ => true | _ => false)
    match nz.map floorLog with
    | [] => (false, 0, l.map (fun _ => 0))
    | x :: t =>
      let e := t.foldl max x
      (false, e, vs.map (fun v => match v with
        | .fin n m g => (roundInt .rne 0 n m (g + 35 - e)).1
        | _ => 0))

/-! ### Micro-rotations (R261) -/

/-- quad (R261). -/
def quad (x y : Int) (qd : Nat) : Int × Int :=
  if qd = 0 then (x, y) else if qd = 1 then (-y, x) else if qd = 2 then (-x, -y) else (y, -x)

/-- One micro-rotation with direction d; >> rounds toward minus infinity (R10). -/
def microRotate (i : Nat) (d : Bool) (p : Int × Int) : Int × Int :=
  let (x, y) := p
  let s : Int := 2 ^ i
  if d then (x + y / s, y - x / s) else (x - y / s, y + x / s)

/-- cordic_rotate (R261). -/
def cordicRotate (x y : Int) (sig : Nat) : Int × Int :=
  (List.range 32).foldl (fun p i => microRotate i (sig.testBit i) p) (quad x y (field sig 33 32))

/-- cordic_vector (R261): x and the sigma angle. -/
def cordicVector (x y : Int) : Int × Nat :=
  let qd := if 0 ≤ x then 0 else if y < 0 then 1 else 3
  let r := (List.range 32).foldl (fun (a : (Int × Int) × Nat) i =>
    let d := decide (0 ≤ a.1.2)
    (microRotate i d a.1, a.2 + b2n d * 2 ^ i)) (quad x y qd, qd * 2 ^ 32)
  (r.1.1, r.2)

/-- The table ATAN of R264. -/
def atanTable : List Int :=
  [0x20000000, 0x12E4051E, 0x9FB385B, 0x51111D4, 0x28B0D43, 0x145D7E1, 0xA2F61E, 0x517C55, 0x28BE53, 0x145F2F, 0xA2F98] ++
  [0x517CC, 0x28BE6, 0x145F3, 0xA2FA, 0x517D, 0x28BE, 0x145F, 0xA30, 0x518, 0x28C, 0x146, 0xA3, 0x51, 0x29, 0x14, 0xA] ++
  [0x5, 0x3, 0x1, 0x1, 0x0]

/-- turn_to_sigma (R264). -/
def turnToSigma (t : Nat) : Nat :=
  let r := (List.range 32).foldl (fun (a : Int × Nat) i =>
    let at' := atanTable.getD i 0
    if 0 ≤ a.1 then (a.1 - at', a.2) else (a.1 + at', a.2 + 2 ^ i)) (((t % 2 ^ 30 : Nat) : Int), field t 31 30 * 2 ^ 32)
  r.2

/-! ### Triangular registers (R259, R274) -/

/-- idx(i, j) (R274). -/
def triIdx (i j : Nat) : Nat := 32 * i - i * (i - 1) / 2 + (j - i)

/-- A cleared register. -/
def Tri.zero : Tri := ⟨0, 0, false, 0⟩

/-- A triangular register with every write in progress done. -/
def Core.triLast (k : Core) (i : Nat) : Tri :=
  match (k.triPending.filter (fun p => p.2.1 == i)).getLast? with
  | some p => p.2.2
  | none => Assoc.get k.tri i Tri.zero

/-- A triangular register as it stands in a core cycle. -/
def Core.triAt (k : Core) (cycle i : Nat) : Tri :=
  match (k.triPending.filter (fun p => p.2.1 == i && p.1 ≤ cycle)).getLast? with
  | some p => p.2.2
  | none => Assoc.get k.tri i Tri.zero

/-- A write of a triangular register that is visible from a core cycle on. -/
def Core.triWrite (k : Core) (visible i : Nat) (x : Tri) : Core := { k with triPending := k.triPending ++ [(visible, i, x)] }

/-- The writes visible by a core cycle take their places. -/
def Core.triTick (k : Core) (cycle : Nat) : Core :=
  let now := k.triPending.filter (fun p => p.1 ≤ cycle)
  { k with
    tri := now.foldl (fun t p => Assoc.put t p.2.1 p.2.2) k.tri
    triPending := k.triPending.filter (fun p => !(p.1 ≤ cycle)) }

/-! ### The cells (R275) -/

/-- An element on its way: significand, exponent, INVALID. -/
structure Elem where
  m : Int
  e : Int
  inv : Bool

/-- What a boundary cell forwards. -/
inductive Forward where
  | pass
  | sig (x : Nat)
  | invalid

/-- The boundary cell (i, i): its register, what it forwards, and flags. -/
def boundaryCell (r : Tri) (x : Elem) : Option Tri × Forward × Nat :=
  if r.invalid || x.inv then (some { r with invalid := true }, .invalid, 0)
  else
    let (a, b, e) := alignSig r.m r.e x.m x.e
    if a = 0 ∧ b = 0 then (none, .pass, 0)
    else
      let (v, s) := cordicVector a b
      let ((m, e), f) := normSig (compensate v) e
      (some { r with m := m, e := e }, .sig s, f)

/-- The inner cell (i, j): its register, the element it passes down, and flags. -/
def innerCell (r : Tri) (x : Elem) (w : Forward) : Option Tri × Elem × Nat :=
  match w with
  | .pass => (none, x, 0)
  | .invalid => (some { r with invalid := true }, { x with inv := true }, 0)
  | .sig s =>
    if r.invalid || x.inv then (some { r with invalid := true }, { x with inv := true }, 0)
    else
      let (a, b, e) := alignSig r.m r.e x.m x.e
      let (u, v) := cordicRotate a b s
      let ((m, e1), f) := normSig (compensate u) e
      let ((n, e2), g) := normSig (compensate v) e
      (some { r with m := m, e := e1 }, ⟨n, e2, false⟩, f ||| g)

/-- A cell's write of its register. -/
def Core.cellWrite (k : Core) (start i j : Nat) (t : Option Tri) : Core :=
  match t with
  | some t => k.triWrite (start + 4 * (i + j) + 5) (triIdx i j) t
  | none => k

/-- The inner cells of row i from column j on: the core, the elements that go down, and flags. -/
def rowCells (start i : Nat) (w : Forward) : List Elem → Nat → Core → Nat → Core × List Elem × Nat
  | [], _, k, f => (k, [], f)
  | x :: t, j, k, f =>
    let (r, y, g) := innerCell (k.triLast (triIdx i j)) x w
    let (k, l, f) := rowCells start i w t (j + 1) (k.cellWrite start i j r) (f ||| g)
    (k, y :: l, f)

/-- The rows of cells from row i on, each with the elements that reach it. -/
def cellRows (start : Nat) : Nat → Nat → List Elem → Core → Nat → Core × Nat
  | 0, _, _, k, f => (k, f)
  | _, _, [], k, f => (k, f)
  | n + 1, i, x :: t, k, f =>
    let (r, w, g) := boundaryCell (k.triLast (triIdx i i)) x
    let (k, l, f) := rowCells start i w t (i + 1) (k.cellWrite start i i r) (f ||| g)
    cellRows start n (i + 1) l k f

/-- One pair of a rap (R400): both registers and flags. -/
def rotatePair (inPlace deferred : Bool) (k : Core) (i : Nat) (x y sig : Nat) : Tri × Tri × Nat :=
  let a := k.triLast i
  let b := k.triLast (i + 1)
  let (inv, mx, my, e, f) : Bool × Int × Int × Int × Nat :=
    if inPlace then
      let (p, q, e) := alignSig a.m a.e b.m b.e
      (a.invalid || b.invalid, p, q, e, 0)
    else
      let (inv, e, ms) := toRowblock [x, y]
      (inv, ms.getD 0 0, ms.getD 1 0, e, if inv then 16 else 0)
  let count (c : Nat) : Nat × Nat :=
    let n := if inPlace then c + b2n deferred else b2n deferred
    (min n 65535, if 65535 < n then 4 else 0)
  let (ca, fa) := count a.cnt
  let (cb, fb) := count b.cnt
  if inv then (⟨0, 0, true, ca⟩, ⟨0, 0, true, cb⟩, f ||| fa ||| fb)
  else
    let (u, v) := cordicRotate mx my sig
    let (u, v) := if deferred then (u, v) else (compensate u, compensate v)
    let ((m, e1), g) := normSig u e
    let ((n, e2), h) := normSig v e
    (⟨m, e1, false, ca⟩, ⟨n, e2, false, cb⟩, f ||| g ||| h ||| fa ||| fb)

/-! ### The queue (R276, R278, R399 to R401, R404) -/

/-- The queue entries held in a core cycle. -/
def Core.rotHeld (k : Core) (cycle : Nat) : Nat := (k.rot.filter (fun c => cycle < c.start)).length

/-- A command enters the rotator queue in a core cycle. -/
def Core.enterRotator (k : Core) (cycle cmd home launch pc : Nat) (op : RotOp) : Core :=
  let isRqr : Bool := match op with
    | .rqr _ _ => true
    | _ => false
  let start := if isRqr && k.rotRqr then max (cycle + 1) (k.rotStart + 4) else max (cycle + 1) (k.rotDone + 1)
  let complete := match op with
    | .rqr w _ => start + 8 * (w - 1) + 4
    | .rap _ _ _ _ _ => start + 8
    | .rcl => start
  { k with
    rot := k.rot ++ [⟨cmd, home, launch, pc, op, start, complete, false, 0⟩]
    rotRqr := isRqr
    rotStart := start
    rotDone := max k.rotDone complete
    rotOwner := k.rotOwner.or (some launch) }

/-- A rotator owned by another launch (R278). -/
def State.rotOwned (s : State) : Option Stop :=
  match s.ck.rotOwner with
  | some l => if some l = s.cx.launch then none else some (.fault 0x75)
  | none => none

/-- The checks that every rotator-queue command shares, after those of its operands. -/
def State.rotStop (s : State) : Option Stop :=
  firstStop s.rotOwned (if 8 ≤ s.ck.rotHeld s.cycle then some (.block 6 .rotator) else none)

/-- A rotator-queue command of the issuing context. -/
def State.issueRotator (s : State) (d : Due) (op : RotOp) : State :=
  s.issueCommand d (fun n k => k.enterRotator s.cycle n s.cx.home s.launchKey s.issue.pc op)

/-- rqr (R399). -/
def execRqr (due : Due) (deferred : Bool) (a b : Sel) (s : State) : Res :=
  .next (match s.opV .x a with
    | (x, s) => match s.opS .x b, x with
      | (some w, s), some x =>
        if deferred || w.toNat < 1 || 32 < w.toNat then s.fail .x 0x75
        else s.unless .x (firstStop (s.dueFull due) s.rotStop) (fun s =>
          (s.issueRotator due (.rqr w.toNat x)).commitsAfter)
      | (_, s), _ => s)

/-- rap (R400). -/
def execRap (due : Due) (deferred : Bool) (a : BitVec 6) (b : Sel) (s : State) : Res :=
  .next (with1 (s.readReg .x .v a) (fun x s => with1 (s.readReg .x .v (a + 1)) (fun angles s =>
    s.with1S .x b (fun y s =>
      let y := y.toNat
      let bad := (List.range 32).any (fun k => 2 ^ 34 ≤ elem 64 angles.toNat k)
      if 2 ^ 11 ≤ y || 464 < field y 9 0 || bad then s.fail .x 0x75
      else s.unless .x (firstStop (s.dueFull due) s.rotStop) (fun s =>
        let s := s.issueRotator due (.rap (field y 9 0) (y.testBit 10) deferred x angles)
        if y.testBit 10 then s.commitsAfter else s)))))

/-- rcl (R401): a launch that does not own the rotator, an unowned one included, raises 0x75. -/
def execRcl (due : Due) (s : State) : Res :=
  let unowned : Option Stop := if s.ck.rotOwner.isNone then some (.fault 0x75) else none
  .next (s.unless .x (firstStop (s.dueFull due) (firstStop unowned s.rotStop)) (fun s => (s.issueRotator due .rcl).commitsAfter))

/-- The lane of rrd for a register as sampled: its deferred compensations, then one f32 rounding (R402). -/
def triLane (t : Tri) : Nat × Nat :=
  if t.invalid then (qnan 0, 0)
  else
    let (m, e) := (List.range t.cnt).foldl (fun (p : Int × Int) _ => (normSig (compensate p.1) p.2).1) (t.m, t.e)
    rne 0 (.ofScaled m (e - 35) false)

/-- rrd (R402). -/
def execRrd (_h p w : Bool) (dst : BitVec 6) (a : Sel) (s : State) : Res :=
  .next (s.with1S .x a (fun t0 s =>
    if 464 < t0.toNat then s.fail .x 0x75
    else s.unless .x s.rotOwned (fun s =>
      let k := s.ck
      let s := s.modCk (fun k => { k with rotOwner := k.rotOwner.or s.cx.launch })
      s.vout .x p w dst 8 32 false false (fun _ i => triLane (k.triAt (s.cycle + 1) (t0.toNat + i))))))

/-- rang (R403). -/
def execRang (_h p w : Bool) (dst : BitVec 6) (a : Sel) (half : Bool) (s : State) : Res :=
  .next (s.with1V .x a (fun x s =>
    s.vout .x p w dst 8 32 false false (fun _ i =>
      quiet (field (turnToSigma (elem 32 x.toNat (32 * b2n half + i / 2))) (32 * (i % 2) + 31) (32 * (i % 2))))))

/-- What a command does to the triangular registers when it starts, and its flags. -/
def Core.runRotator (k : Core) (c : RotCmd) : Core × Nat :=
  match c.op with
  | .rqr w row =>
    let (inv, e, ms) := toRowblock (elems 32 w row.toNat)
    let (k, f) := cellRows c.start w 0 (ms.map (fun m => ⟨m, e, inv⟩)) k 0
    (k, f ||| (if inv then 16 else 0))
  | .rap t0 inPlace deferred pairs angles =>
    (List.range 32).foldl (fun (a : Core × Nat) i =>
      let (x, y, f) := rotatePair inPlace deferred a.1 (t0 + 2 * i) (elem 32 pairs.toNat (2 * i))
        (elem 32 pairs.toNat (2 * i + 1)) (elem 64 angles.toNat i)
      ((a.1.triWrite (c.start + 9) (t0 + 2 * i) x).triWrite (c.start + 9) (t0 + 2 * i + 1) y, a.2 ||| f)) (k, 0)
  | .rcl => ({ k with tri := [], triPending := [] }, 0)

/-- ROTATOR_COMMAND_START (R276, R404): the first queued command whose start has come acts. -/
def execRotatorCommandStart (core : Nat) (s : State) : Res :=
  .next (s.modCore core (fun k =>
    match k.rot.findIdx? (fun c => !c.started) with
    | none => k
    | some i => match k.rot[i]? with
      | none => k
      | some c =>
        if c.start ≤ s.cycle then
          let (k, f) := (k.triTick s.cycle).runRotator c
          { k with rot := k.rot.set i { c with started := true, flags := f } }
        else k))

/-- ROTATOR_COMMAND_COMPLETE (R276, R395, R401): the first completed command leaves; its flags wait for its context's next
committed bundle, and an rcl leaves the rotator to the next command's launch. -/
def execRotatorCommandComplete (core : Nat) (s : State) : Res :=
  .next (s.modCore core (fun k =>
    match k.rot.findIdx? (fun c => c.started && c.complete ≤ s.cycle) with
    | none => k
    | some i => match k.rot[i]? with
      | none => k
      | some c =>
        let rest := k.rot.eraseIdx i
        let k := { k with rot := rest, rotOwner := if c.op = .rcl then rest.head?.map (·.launch) else k.rotOwner }
        if c.flags = 0 then k
        else k.modHome c.launch c.home (fun t => { t with rotFlags := t.rotFlags ++ [(c.flags, c.pc)] })))

end Sys2Proof.Machine
end

