-- ==== Sys2Proof/Machine/Copy.lean ====
section
/-!
DEFINITION. The copy engine (R112, R218, R228, R279 to R286, R405 to R409): the probe of an entry, its issue, the requests
of its rows, their landing, and the end of an entry.
-/
namespace Sys2Proof.Machine
open Sys2Proof

/-! ### The probe (R283) -/

/-- Why an entry's probe does not pass: a fault, a missed translation, or a malformed descriptor. -/
inductive ProbeStop where
  | fault (code : Nat)
  | miss (m : Miss)
  | malformed

/-- The lowest-numbered valid window of a list that holds an address. -/
def windowIn (wins : List Nat) (a : Nat) : Option (Nat × Nat) :=
  ((List.range wins.length).map (fun i => (i, wins.getD i 0))).find?
    (fun p => p.2 % 2 == 1 && winBase p.2 ≤ a && a < winBase p.2 + winSize p.2)

/-- The windows of a context. -/
def Context.windows (t : Context) : List Nat := t.w.toList.map (·.toNat)

/-- A global address of a row probed: its page, where it is not in a window. -/
def State.probeGlobal (s : State) (wins : List Nat) (a : Nat) (k : AccessKind) : Except ProbeStop (List Pin) :=
  match windowIn wins a with
  | some (i, w) =>
    match windowAccess i w a 256 k with
    | .error c => .error (.fault c)
    | .ok _ => .ok []
  | none =>
    match s.translate s.issue.core s.asid a k with
    | .fault c => .error (.fault c)
    | .miss => .error (.miss ⟨s.asid, a / 4096, k⟩)
    | .ok pa key _ =>
      match s.tlbHit (.core s.issue.core) s.asid a with
      | some e => .ok [⟨e.va, e.size, e.pa, e.key⟩]
      | none => .ok [⟨a / 4096 * 4096, 4096, pa / 4096 * 4096, key⟩]

/-- Pins without repeats. -/
def addPins (l m : List Pin) : List Pin := m.foldl (fun l p => if l.contains p then l else l ++ [p]) l

/-- Row i of an entry probed. -/
def State.probeRow (s : State) (wins : List Nat) (e : Nat) (table : List Nat) (conv i : Nat) : Except ProbeStop (List Pin) := do
  let src ← match shotPlace e table conv i false with
    | .global a => s.probeGlobal wins a .load
    | .outside => .error (.fault 0x22)
    | _ => .ok []
  let dst ← match shotPlace e table conv i true with
    | .global a => s.probeGlobal wins a .store
    | .outside => .error (.fault 0x22)
    | .row b r => if s.ck.liveRow b r then .error (.fault 0x31) else .ok []
    | .pad _ => .ok []
  return src ++ dst

/-- Bytes at an address that lie outside the package: free values (log 21). -/
def State.probeFree (s : State) (a n : Nat) : List Byte := (List.range n).map (fun j => Config.probeByte (s.free + (a + j)))

/-- The bytes that a probe reads through a window at a fabric address, as a remote load of their row would (R60, R114): those of a
core's buffer; a free value on another package (log 21); and 0x86 on the Z die, whose rings refuse a load of one row (R85). -/
def State.probeRemote (s : State) (f a n : Nat) : Except ProbeStop (List Byte) :=
  let c := faCore f
  if !s.reach (coreDie s.issue.core) 14 then .error (.fault 0x8F)
  else if faPkg f ≠ s.pkgId then .ok (s.probeFree a n)
  else if c < 320 && !s.reach 14 (coreDie c) then .error (.fault 0x8F)
  else if s.badPlace c f then .error (.fault 0x86)
  else .ok (Memory.read ((s.core c).buf (bufOfCode (faBuf f))) (faOff f) n)

/-- The bytes of an entry's table or descriptor, with their pages: read through the page tables or a window; what lies outside the
package is a free value (log 21). -/
def State.probeRead (s : State) (wins : List Nat) (a n : Nat) : Except ProbeStop (List Byte × List Pin) :=
  (blockPieces (n + 1) a n).foldlM (fun (acc : List Byte × List Pin) p =>
    match windowIn wins p.1 with
    | some (i, w) =>
      match windowAccess i w p.1 p.2 .load with
      | .error c => .error (.fault c)
      | .ok (_, f) => (s.probeRemote f p.1 p.2).map (fun d => (acc.1 ++ d, acc.2))
    | none =>
      match s.translate s.issue.core s.asid p.1 .load with
      | .fault c => .error (.fault c)
      | .miss => .error (.miss ⟨s.asid, p.1 / 4096, .load⟩)
      | .ok pa key t =>
        let pin : List Pin := match s.tlbHit (.core s.issue.core) s.asid p.1 with
          | some e => [⟨e.va, e.size, e.pa, e.key⟩]
          | none => []
        match (s.servedAt (s.dieVersion (coreDie s.issue.core)) pa).getD t with
        | .outbound _ =>
          if s.reach (coreDie s.issue.core) 15 then .ok (acc.1 ++ s.probeFree p.1 p.2, addPins acc.2 pin) else .error (.fault 0x8F)
        | .memory u ua =>
          match s.unitFault (coreDie s.issue.core) u with
          | some c => .error (.fault c)
          | none =>
            if s.lost u ua then .error (.fault 0x2E)
            else .ok (acc.1 ++ ((s.blockRead u ua pa key).drop (ua % 64)).take p.2, addPins acc.2 pin))
    ([], [])

/-- The n32 words of a run of bytes. -/
def words32 : List Byte → List Nat
  | a :: b :: c :: d :: t => ofBytes [a, b, c, d] :: words32 t
  | _ => []

/-- A kind-6 entry whose global side is a staging ring (R281). -/
def ringSide (wins : List Nat) (e : Nat) : Option Nat :=
  let a := shotBase' e (shotLocal e false)
  match windowIn wins a with
  | some (_, w) =>
    let f := field w 109 64 + (a - winBase w)
    if shotKind e = 6 ∧ faCore f = 511 ∧ faBuf f = 2 then some f else none
  | none => none

/-- What R280, R281 and R283 make malformed in an entry of a shot list, apart from its convolution descriptor. -/
def State.shotMalformed (s : State) (index e : Nat) : Bool :=
  let wins := s.cx.windows
  let l := s.cl
  let count := (l.map (·.shotCount s.issue.core)).getD 0
  let base := (l.map Launch.shotBase).getD 0
  let next := (Assoc.get s.ck.shots (index + 1) 0).toNat
  !shotOk e || (shotFollow e && !(index + 1 < base + count && shotDescriptor next))
    || (shotKind e == 6 && (List.range (shotRows e * shotN1 e)).any (fun i =>
      (windowIn wins (wrap 64 (shotBase' e (shotLocal e false) + (256 * i : Nat)))).isNone))
    || (match ringSide wins e with
        | some f => faOff f % 1024 != 0 || shotRows e * shotN1 e % 4 != 0
        | none => false)
    || (shotMcast e && !((ringSide wins e).isSome && shotLocal e false))

/-- The physical addresses of the blocks that the probe of an entry reads: those of its table and of its descriptor. -/
def State.probeBlocks (s : State) (e : Nat) : List Nat :=
  let wins := s.cx.windows
  let (first, n) := shotTableSpan e
  let pieces := blockPieces (4 * n + 1) (shotTable e + 4 * first) (4 * n)
    ++ (if shotKind e = 4 then blockPieces 65 (shotTable e) 64 else [])
  pieces.filterMap (fun p =>
    if (windowIn wins p.1).isSome then none
    else match s.translate s.issue.core s.asid p.1 .load with
      | .ok pa _ _ => some pa
      | _ => none)

/-- The copy entry of a shot-list index with what its probe reads: R283 for the entry and its follow-on, whose literal word
is `lit`. -/
def State.probeEntry (s : State) (index e lit : Nat) : Except ProbeStop CopyEntry := do
  let t := s.cx
  let wins := t.windows
  let (first, n) := shotTableSpan e
  let (tb, p1) ← if n = 0 then .ok ([], []) else s.probeRead wins (shotTable e + 4 * first) (4 * n)
  let (cb, p2) ← if shotKind e = 4 then s.probeRead wins (shotTable e) 64 else .ok ([], [])
  let table := words32 tb
  let conv := ofBytes cb
  if shotKind e = 4 ∧ !convOk conv e then .error .malformed
  else
    let pins ← (List.range (shotCount' e)).foldlM (fun l i => do
      let p ← s.probeRow wins e table conv i
      return addPins l p) (addPins p1 p2)
    let follow ← if shotFollow e then
        let d := (Assoc.get s.ck.shots (index + 1) 0).toNat
        let md0 : Word := BitVec.ofNat 64 (shotField d 1 63 0)
        let md1 : Word := BitVec.ofNat 64 (shotField d 2 63 0)
        match s.literal lit with
        | .error c => .error (.fault c)
        | .ok sw =>
          let sh := shapeOf md0.toNat md1.toNat sw.toNat
          if sh.ok then .ok (some (md0, md1, sw, vget t.kb sh.kba, vget t.kb sh.kbb)) else .error (.fault 0x75)
      else .ok none
    return ⟨0, 0, t.seq, s.issue.cc + 3, s.issue.ctx, t.home, s.launchKey, index, BitVec.ofNat 512 e, table, BitVec.ofNat 512 conv, wins,
      pins, follow, 0, 0, [], [], [], none, none⟩

/-! ### Channel errors (R285) -/

/-- A channel enters error in a core cycle: its other wm fields freeze and its entries are abandoned. -/
def Channel.fail (c : Channel) (cycle code : Nat) : Channel :=
  if c.err then { c with abandoned := c.abandoned ++ c.queue, queue := [] }
  else { c with err := true, errAt := cycle, code := code, abandoned := c.abandoned ++ c.queue, queue := [] }

/-- A channel of a core enters error (R285): the event goes to the context that issued its current entry, or, with none, to
the context given. -/
def Core.failChannel (k : Core) (cycle ch code launch home : Nat) : Core :=
  let (l, h) := match (k.chan ch).queue.head? with
    | some e => (e.launch, e.home)
    | none => (launch, home)
  (k.modChan ch (·.fail cycle code)).modHome l h (fun t => t.uEvent ch code 0)

/-! ### cp and cpadv (R405, R406) -/

/-- An entry of a stage as its issue finds it: refused as malformed, or probed. -/
inductive Candidate where
  | refused (index e : Nat)
  | probed (c : CopyEntry)

/-- The channel of a candidate. -/
def Candidate.ch : Candidate → Nat
  | .refused _ e => shotCh e
  | .probed c => shotCh c.entry.toNat

/-- The entries of a list probed in ascending index; each follow-on takes the next literal word. -/
def State.candidates (s : State) : List Nat → Nat → Except ProbeStop (List Candidate)
  | [], _ => .ok []
  | i :: t, lit => do
    let e := (Assoc.get s.ck.shots i 0).toNat
    if s.shotMalformed i e then
      let rest ← s.candidates t lit
      return .refused i e :: rest
    else
      match s.probeEntry i e lit with
      | .ok c =>
        let rest ← s.candidates t (lit + b2n (shotFollow e))
        return .probed c :: rest
      | .error .malformed =>
        let rest ← s.candidates t lit
        return .refused i e :: rest
      | .error x => .error x

/-- A channel that was in error before a core cycle: in the cycle in which it enters error it still accepts entries
(R409). -/
def Channel.refuses (c : Channel) (cycle : Nat) : Bool := c.err && c.errAt != cycle

/-- Checks 5 and 6 of R405 over the entries of an instruction. -/
def State.channelsStop (s : State) (l : List Candidate) : Option Stop :=
  match l.find? (fun c => (s.ck.chan c.ch).refuses s.cycle) with
  | some c => some (s.channelStop c.ch)
  | none =>
    let need (ch : Nat) : Nat := (l.filter (fun c => c.ch == ch && (match c with
      | .probed _ => true
      | _ => false))).length
    match l.find? (fun c => 8 < (s.ck.chan c.ch).queue.length + need c.ch) with
    | some c => some (.block 6 (.channel c.ch (need c.ch)))
    | none => none

/-- One candidate issued as part of command n (R405): a refused one puts its channel into error with 0x73. -/
def Core.issueEntry (k : Core) (cycle n launch home : Nat) (c : Candidate) : Core :=
  match c with
  | .refused _ _ => k.failChannel cycle c.ch 0x73 launch home
  | .probed e =>
    let k' := { k with nextCmd := k.nextCmd + 1 }
    let e := { e with uid := k.nextCmd, cmd := n }
    k'.modChan c.ch (fun q => if q.err then { q with abandoned := q.abandoned ++ [e] } else { q with queue := q.queue ++ [e] })

/-- The entries of an instruction issued together, their follow-ons consuming literal words. -/
def State.issueEntries (s : State) (due : Due) (l : List Candidate) : State :=
  let follows := (l.filter (fun c => match c with
    | .probed e => e.follow.isSome
    | _ => false)).length
  let home := s.cx.home
  let launch := s.launchKey
  let s := s.keepChans.issueCommand due (fun n k => l.foldl (fun k c => k.issueEntry s.cycle n launch home c) k)
  (s.modCx (fun t => { t with lpc := t.lpc + BitVec.ofNat 14 follows, seq := t.seq + 1 })).commitsAfter

/-- R405 and R406 from check 3 on, for the shot-list indices of an instruction; `f` is what a cpadv adds. -/
def State.issueShots (s : State) (due : Due) (l : List Nat) (f : State → State) : State :=
  if l.any (fun i => !(s.chmask.testBit (shotCh (Assoc.get s.ck.shots i 0).toNat))) then s.fail .x 0x74
  else
    let entries := (l.filter (fun i => !s.shotMalformed i (Assoc.get s.ck.shots i 0).toNat)).map (fun i =>
      (Assoc.get s.ck.shots i 0).toNat)
    let s' := s.note (fun r => { r with reads := r.reads ++ (entries.map s.probeBlocks).flatten })
    match s.candidates l s.cx.lpc.toNat with
    | .error (.fault c) => s'.fail .x c
    | .error (.miss m) => s.tlbMiss m
    | .error .malformed => s
    | .ok cs => s'.unless .x (s.channelsStop cs) (fun s => f (s.issueEntries due cs))

/-- The first shot-list entry of the launch and the number that its core has. -/
def State.shotRange (s : State) : Nat × Nat :=
  match s.cl with
  | some l => (l.shotBase, l.shotCount s.issue.core)
  | none => (0, 0)

/-- cp (R405). -/
def execCp (due : Due) (a : Sel) (s : State) : Res :=
  .next (s.with1S .x a (fun x s =>
    let (base, count) := s.shotRange
    let i := base + x.toNat
    if count ≤ x.toNat || shotKind (Assoc.get s.ck.shots i 0).toNat == 15 then s.fail .x 0x75
    else s.unless .x (s.dueFull due) (fun s => s.issueShots due [i] id)))

/-- cpadv (R406): the stage slate + 1 of the launch's range. -/
def execCpadv (due : Due) (s : State) : Res :=
  .next (s.unless .x (s.dueFull due) (fun s =>
    let (base, count) := s.shotRange
    let stage := ((s.ck.slate s.cx.launch).toNat + 1) % 2 ^ 16
    let l := ((List.range count).map (base + ·)).filter (fun i =>
      let e := (Assoc.get s.ck.shots i 0).toNat
      shotKind e != 15 && shotStage e == stage)
    s.issueShots due l (fun s =>
      s.modCk (fun k => { k with slates := Assoc.put k.slates s.launchKey (BitVec.ofNat 16 stage) }))))

/-- wmwait (R407). -/
def execWmwait (a b : Sel) (s : State) : Res :=
  .next (s.with2S .x a b (fun x y s =>
    let c := x.toNat
    if 15 < c then s.fail .x 0x75
    else if !s.chmask.testBit c then s.fail .x 0x74
    else
      let ch := s.ck.chan c
      if ch.err then s.stop .x (s.channelStop c)
      else if !ch.activeAt s.cycle || y.toNat ≤ ch.landedAt s.cycle then s
      else s.blockOn 3 (.count c y.toNat)))

/-- cpreset (R408): the channel's entries are discarded and wm and chst are cleared. -/
def execCpreset (a : Sel) (s : State) : Res :=
  .next (s.with1S .x a (fun x s =>
    let c := x.toNat
    if 15 < c then s.fail .x 0x75
    else if !s.chmask.testBit c then s.fail .x 0x74
    else (s.keepChans.modCk (fun k => k.modChan c (fun _ => Channel.reset))).commitsAfter))

/-! ### The rows of the current entry (R281, R284) -/

/-- The route of a global address of an entry. -/
inductive CopyRoute where
  | remote (fabric : Nat) (binding : Nat × Nat)
  | pinned (pa key : Nat)
  | none

/-- Where a global address of an entry goes: a window as it stood, or a pinned page. -/
def CopyEntry.route (e : CopyEntry) (a : Nat) : CopyRoute :=
  match windowIn e.wins a with
  | some (i, w) => .remote (field w 109 64 + (a - winBase w)) (i, winVer w)
  | none =>
    match e.pins.find? (fun p => p.va ≤ a && a < p.va + p.size) with
    | some p => .pinned (p.pa + (a - p.va)) p.key
    | none => .none

/-- The entry moves ring slots of four rows (R281). -/
def CopyEntry.ring (e : CopyEntry) : Bool := (ringSide e.wins e.entry.toNat).isSome

/-- The hardware context that an entry's packets name and that its limits count: where its issuer runs now, or ran. -/
def Core.copyCtx (k : Core) (e : CopyEntry) : Nat :=
  ((List.range 4).find? (fun x => (k.ctx x).launch == some e.launch && (k.ctx x).home == e.home)).getD e.ctx

/-- The context that issued an entry, where it runs now or as it is saved (R163). -/
def Core.issuer (k : Core) (e : CopyEntry) : Option Context :=
  (k.ctxs.toList ++ k.saved.map (·.ctx)).find? (fun t => t.launch == some e.launch && t.home == e.home)

/-- An access of an entry waits for a clap or a fence of its issuer (R238). -/
def State.copyGated (s : State) (core : Nat) (e : CopyEntry) (read write : Bool) : Bool :=
  ((s.core core).issuer e).any (fun t => s.gatedOf core t e.seq read write)

/-- Row i has its source data. -/
def CopyEntry.srcReady (e : CopyEntry) (i : Nat) : Bool :=
  match e.place i false with
  | .pad _ => true
  | _ => (List.range 4).all (e.has i)

/-- The data of row i. -/
def CopyEntry.srcData (e : CopyEntry) (i : Nat) : Row :=
  match e.place i false with
  | .pad _ => BitVec.ofNat 2048 (ofElems 32 (List.replicate 64 (shotPad e.entry.toNat)))
  | _ => BitVec.ofNat 2048 (ofElems 512 ((List.range 4).map (fun p =>
      ((e.arrived.find? (fun x => x.1 == i && x.2.1 == p)).map (fun x => x.2.2.toNat)).getD 0)))

/-- A touch of a row by an entry, recorded against the context that issued it (R231). -/
def Core.touchCopy (k : Core) (e : CopyEntry) (b : Buf) (r : Nat) : Core :=
  if k.guard.contains (rowKey b r) then
    k.modHome e.launch e.home (fun t => if t.guardChk then t.touch 1 b r else t)
  else k

/-- The write point of the bundle that issued an entry has passed (R221, R238): its context has gone past it, or has been
drained. -/
def Core.pointPassed (k : Core) (e : CopyEntry) : Bool :=
  (k.issuer e).all (fun t => t.mode != .issuing || e.point < t.cc)

/-- Local source row (b, r) of an entry may be read in a core cycle: the write point of its bundle has passed and no local write to
the row is in flight (R238), and its engine port is free (R218). -/
def Core.sourceFree (k : Core) (e : CopyEntry) (cycle : Nat) (b : Buf) (r : Nat) : Bool :=
  k.pointPassed e && !k.ctxs.any (fun t => t.rowPending b r) && k.portFree cycle b r

/-- The current entry of a channel changed. -/
def Channel.modHead (c : Channel) (f : CopyEntry → CopyEntry) : Channel :=
  match c.queue with
  | e :: t => { c with queue := f e :: t }
  | [] => c

/-- Row i read from its local source row on its engine port. -/
def Core.readSource (k : Core) (e : CopyEntry) (cycle ch i : Nat) (b : Buf) (r : Nat) : Core :=
  let x := (k.row b r).toNat
  let k := { (k.usePort cycle b r).touchCopy e b r with readTurn := (ch + 1) % 16 }
  k.modChan ch (·.modHead (fun e => { e with
    issuedTo := i + 1
    arrived := e.arrived ++ (List.range 4).map (fun p => (i, p, BitVec.ofNat 512 (elem 512 x p))) }))

/-- The state with the current entry of a channel changed. -/
def State.modEntry (s : State) (core ch : Nat) (f : CopyEntry → CopyEntry) : State :=
  s.modCore core (fun k => k.modChan ch (·.modHead f))

/-- A bulk packet of a copy entry leaves the core for row i (R281, R374). Its TAG names load-queue place 32 + ch, which no
load has (log 22). -/
def State.sendBulk (s : State) (core ch : Nat) (e : CopyEntry) (i opc oparg f : Nat) (payload : List Flit) (write : Bool) :
    State :=
  let x := (s.core core).copyCtx e
  let p := Packet.new 3 opc oparg f 0 0 0 payload
  let p := if shotMcast e.entry.toNat && write then
      { p with depth := 1, route := BitVec.ofNat 32 (3 * 2 ^ 20 + shotFan e.entry.toNat) :: p.route.tail }
    else p
  s.sendPacket core x (32 + ch) true p (remoteOp e.seq 3 none none f write (some (ch, e.uid, i)))

/-- A remote access of a copy entry whose window has changed (R115) ends with 0x15; the windows of a context that has left its
launch are those that its hardware context holds. -/
def State.copyStale (s : State) (core ch : Nat) (e : CopyEntry) (b : Nat × Nat) : Option State :=
  let k := s.core core
  if ((k.issuer e).getD (k.ctx e.home)).stale (some b) then
    some (s.modEntry core ch (fun e => { e with bad := e.bad.or (some 0x15) }))
  else none

/-- The rows that one destination packet of an entry carries, from row i on: a ring slot, or one row. -/
def CopyEntry.pushRows (e : CopyEntry) (i : Nat) : List Nat := if e.ring then (List.range 4).map (i + ·) else [i]

/-- Whether a side of row i lies behind a window. -/
def CopyEntry.isRemote (e : CopyEntry) (i : Nat) (dst : Bool) : Bool :=
  match e.place i dst with
  | .global a => (match e.route a with
    | .remote _ _ => true
    | _ => false)
  | _ => false

/-- An entry whose next bulk packet waits for nothing but the limit of R376. -/
def State.bulkWaits (s : State) (core : Nat) (e : CopyEntry) : Bool :=
  e.bad.isNone
    && ((e.issuedTo < e.rows && e.isRemote e.issuedTo false && !s.copyGated core e true false)
      || (e.pushedTo < min e.rows e.issuedTo && e.isRemote e.pushedTo true && (e.pushRows e.pushedTo).all e.srcReady
        && !s.copyGated core e false true))

/-- A bulk packet of an entry may leave (R376): its context has fewer than 64 outstanding, and no entry that the context issued
earlier waits with one. -/
def State.bulkFree (s : State) (core : Nat) (e : CopyEntry) : Bool :=
  let k := s.core core
  ((k.ctx (k.copyCtx e)).inFlight 3 < 64)
    && !k.chans.toList.any (fun c => c.active && !c.err && (c.queue.head?).any (fun f =>
      f.home == e.home && f.launch == e.launch && f.seq < e.seq && s.bulkWaits core f))

/-- Row i is read from its local source, or its source requests leave (R284), if they may: memory blocks, outbound reads or
remote reads. -/
def State.copyFetch (s : State) (core ch : Nat) (e : CopyEntry) (i : Nat) : Option State :=
  let step (n : Nat) (s : State) : State := s.modEntry core ch (fun e => { e with issuedTo := i + n })
  match e.place i false with
  | .global a =>
    if s.copyGated core e true false then none
    else match e.route a with
      | .remote f b =>
        match s.copyStale core ch e b with
        | some s => some s
        | none =>
          if !s.bulkFree core e then none
          else if e.ring then some (step 4 (s.sendBulk core ch e i 0x0F 4 (f - f % 1024) [] false))
          else some (step 1 (s.sendBulk core ch e i 0x0F 1 f [] false))
      | .pinned pa key =>
        let die := coreDie core
        let who (p : Nat) : Requester := .copySrc core ch e.uid i p
        match s.resolve (s.dieVersion die) pa with
        | some (.memory u ua) =>
          some (step 1 ((List.range 4).foldl (fun s p => s.requestMemory die (chanUnit core ch)
            ⟨who p, .read 64, u, ua + 64 * p, pa + 64 * p, key, s.dieVersion die, false⟩) s))
        | some (.outbound o) =>
          if s.busMaster then
            some (step 1 ((outboundParts s.readSize o 256).foldl (fun s p => s.sendInternal die 15 0 (chanUnit core ch)
              (.outbound ⟨who ((p.1 - o) / 64), p.1, p.2, none, false, 0⟩)) s))
          else some (s.modEntry core ch (fun e => { e with bad := e.bad.or (some 0x93) }))
        | none => some (s.modEntry core ch (fun e => { e with bad := e.bad.or (some 0x17) }))
      | .none => some (s.modEntry core ch (fun e => { e with bad := e.bad.or (some 0x17) }))
  | .row b r =>
    if s.copyGated core e true false || !(s.core core).sourceFree e s.cycle b r then none
    else some (s.modCore core (fun k => k.readSource e s.cycle ch i b r))
  | _ => some (step 1 s)

/-- The destination writes of row i leave, if they may: memory blocks, outbound writes or remote writes. -/
def State.copyPush (s : State) (core ch : Nat) (e : CopyEntry) (i : Nat) : Option State :=
  let rows := e.pushRows i
  let step (s : State) : State := s.modEntry core ch (fun e => { e with pushedTo := i + rows.length })
  match e.place i true with
  | .global a =>
    if !(rows.all e.srcReady) || s.copyGated core e false true then none
    else
      let data := rows.map e.srcData
      match e.route a with
      | .remote f b =>
        match s.copyStale core ch e b with
        | some s => some s
        | none =>
          if !s.bulkFree core e then none
          else
            some (step (s.sendBulk core ch e i 0x0E 0 (if e.ring then f - f % 1024 else f) (data.map rowFlits).flatten true))
      | .pinned pa key =>
        let die := coreDie core
        let bytes := bytesOf 256 ((data.headD 0).toNat)
        match s.resolve (s.dieVersion die) pa with
        | some (.memory u ua) =>
          some (step ((List.range 4).foldl (fun s p => s.requestMemory die (chanUnit core ch)
            ⟨.copyDst core ch e.uid i p, .write ((bytes.drop (64 * p)).take 64), u, ua + 64 * p, pa + 64 * p, key,
              s.dieVersion die, false⟩) s))
        | some (.outbound o) =>
          if s.busMaster then
            some (step ((outboundParts s.writeSize o 256).foldl (fun s p =>
              s.sendInternal die 15 0 (chanUnit core ch) (.outbound
                ⟨.copyDst core ch e.uid i ((p.1 - o) / 64), p.1, p.2, some ((bytes.drop (p.1 - o)).take p.2), false, 0⟩)) s))
          else some (s.modEntry core ch (fun e => { e with bad := e.bad.or (some 0x93) }))
        | none => some (s.modEntry core ch (fun e => { e with bad := e.bad.or (some 0x17) }))
      | .none => some (s.modEntry core ch (fun e => { e with bad := e.bad.or (some 0x17) }))
  | _ => some (step s)

/-- The next request of a channel's current entry leaves, if one may: a source read, or a destination write. -/
def State.copyFeed (s : State) (core ch : Nat) : Option State :=
  let c := (s.core core).chan ch
  match c.queue.head? with
  | none => none
  | some e =>
    if !c.active || c.err || e.bad.isSome then none
    else
      let fetch := if e.issuedTo < e.rows then s.copyFetch core ch e e.issuedTo else none
      match fetch with
      | some s => some s
      | none => if e.pushedTo < min e.rows e.issuedTo then s.copyPush core ch e e.pushedTo else none

/-- The blocks of row i are all performed at a destination outside the core. -/
def CopyEntry.dstDone (e : CopyEntry) (i : Nat) : Bool :=
  (List.range 4).all (fun p => e.written.any (fun w => w == (i, p)))

/-- Row i of a channel's current entry may land in this cycle. -/
def State.rowReady (s : State) (core ch i : Nat) : Bool :=
  let k := s.core core
  let c := k.chan ch
  match c.queue.head? with
  | none => false
  | some e =>
    c.active && !c.err && e.bad.isNone && i < e.rows && c.landed ≤ i && !e.done.contains i && i < e.issuedTo
      && (match e.place i true with
        | .row b r => e.srcReady i && s.portOpen core b r && (k.portCycle != s.cycle || k.landCount < 2)
            && !s.copyGated core e false true
        | .global _ => e.dstDone i
        | _ => false)

/-- Row i of a channel's entry written whole into its buffer on its engine port: its tag filled with TAGFILL, and a guarded
row touched. -/
def Core.landRow (k : Core) (e : CopyEntry) (cycle ch i : Nat) : Core :=
  match e.place i true with
  | .row b r =>
    let k := (k.usePort cycle b r).setRow b r (e.srcData i)
    let k := { k with landCount := k.landCount + 1, copyTurn := (ch + 1) % 16 }
    (if b = .a ∧ shotTagFill e.entry.toNat then k.setTag r true else k).touchCopy e b r
  | _ => k

/-- COPY_ROW_LAND (R228, R284, R286): row i lands, LANDED advances over the leading landed rows in the next cycle, and a pad
past the batch counts in OVERRUN. -/
def execCopyRowLand (core ch row : Nat) (s : State) : Res :=
  .next (
    if !s.rowReady core ch row then s
    else s.modCore core (fun k => match (k.chan ch).queue.head? with
      | none => k
      | some e =>
        let past := match e.place row false with
          | .pad p => p && row % shotRows e.entry.toNat == 0
          | _ => false
        (k.landRow e s.cycle ch row).modChan ch (fun c =>
          let c := c.perform e.uid row s.cycle
          { c with overrun := if past then satInc 0xFFFF c.overrun else c.overrun })))

/-- The next row that may land, if any. -/
def State.nextRow (s : State) (core ch : Nat) : Option Nat :=
  match ((s.core core).chan ch).queue.head? with
  | none => none
  | some e => (List.range e.issuedTo).find? (fun i => s.rowReady core ch i)

/-! ### Start and end of an entry (R228, R284, R285) -/

/-- A channel may start its next entry. -/
def Channel.mayStart (c : Channel) (cycle : Nat) : Bool := !c.active && !c.err && !c.queue.isEmpty && c.idleUntil < cycle

/-- COPY_ENTRY_START (R228). -/
def execCopyEntryStart (core ch : Nat) (s : State) : Res :=
  .next (s.modCore core (fun k => k.modChan ch (fun c =>
    if c.mayStart s.cycle then
      { c with
        active := true, shot := ((c.queue.head?.map (·.shot)).getD 0) % 1024, landed := 0, pendingLanded := none
        ended := none }
    else c)))

/-- The follow-on of a channel's current entry may enter the array queue (R284). -/
def State.followReady (s : State) (core ch : Nat) : Bool :=
  let k := s.core core
  let c := k.chan ch
  match c.queue.head? with
  | none => false
  | some e =>
    c.active && !c.err && e.follow.isSome && e.followCmd.isNone && e.rows ≤ c.landedAt s.cycle && k.arrayHeld s.cycle < 4

/-- FOLLOW_ON_ENQUEUE (R284): its operand groups are streamed from now on. -/
def execFollowOnEnqueue (core ch : Nat) (s : State) : Res :=
  .next (
    if !s.followReady core ch then s
    else s.modCore core (fun k => match (k.chan ch).queue.head? with
      | none => k
      | some e => match e.follow with
        | none => k
        | some (md0, md1, sw, kba, kbb) =>
          let n := k.nextCmd
          let d := shapeOf md0.toNat md1.toNat sw.toNat
          let k := { k with nextCmd := n + 1 }
          let k := k.enterArray s.cycle n e.ctx e.launch (.mm md0 md1 sw kba kbb d.zero) [] (some ch)
          let k := (d.aRun ++ d.wRun).foldl (fun k p =>
            if k.guard.contains (rowKey p.1 p.2) then
              k.modHome e.launch e.home (fun t => if t.guardChk then t.touch 2 p.1 p.2 else t)
            else k) k
          k.modChan ch (·.modHead (fun e => { e with followCmd := some n }))))

/-- The current entry of a channel has completed. -/
def State.entryDone (s : State) (core ch : Nat) : Bool :=
  let k := s.core core
  let c := k.chan ch
  match c.queue.head? with
  | none => false
  | some e =>
    c.active && !c.err && c.landed == e.landings && (match e.follow, e.followCmd with
      | none, _ => true
      | some _, some n => !k.array.any (fun a => a.cmd == n)
      | some _, none => false)

/-- COPY_ENTRY_COMPLETE (R228, R284): the entry leaves, its pins are released, and ACTIVE reads 0 from the next cycle. -/
def execCopyEntryComplete (core ch : Nat) (s : State) : Res :=
  .next (
    if !s.entryDone core ch then s
    else s.modCore core (fun k => k.modChan ch (fun c =>
      { c with queue := c.queue.tail, active := false, idleUntil := s.cycle + 1, ended := c.queue.head? })))

/-- COPY_CHANNEL_ERROR (R285): the first error of the current entry ends the channel's work. -/
def execCopyChannelError (core ch : Nat) (s : State) : Res :=
  .next (match ((s.core core).chan ch).queue.head? with
    | none => s
    | some e => match e.bad with
      | none => s
      | some code => s.modCore core (fun k => k.failChannel s.cycle ch code e.launch e.home))

/-! ### Completion of commands (R392) -/

/-- A command has completed: no engine still holds it. -/
def Core.commandDone (k : Core) (n : Nat) : Bool :=
  !k.array.any (fun c => c.cmd == n) && !k.macros.any (fun m => m.cmd == n && m.left.isNone)
    && !k.rot.any (fun c => c.cmd == n) && !k.chans.any (fun c => c.queue.any (fun e => e.cmd == n))

end Sys2Proof.Machine
end

