-- ==== Sys2Proof/Machine/Mgmt.lean ====
section
/-!
DEFINITION. What the management block shares: MSI-X vectors, MGMTERR and the package-health events (R20, R119, R125,
R126).
-/
namespace Sys2Proof.Machine
open Sys2Proof

/-- The state with the management block changed. -/
def State.modMgmt (s : State) (f : Mgmt → Mgmt) : State := { s with mgmt := f s.mgmt }

/-! ### MSI-X (R125, R126) -/

/-- The key of a function's vector. -/
def vectorKey (func v : Nat) : Nat := 64 * func + v
/-- A vector; at reset it is masked. -/
def Mgmt.vector (m : Mgmt) (func v : Nat) : Msix := Assoc.get m.msix (vectorKey func v) ⟨0, 0x100000000#64, false⟩
/-- The management block with a vector replaced. -/
def Mgmt.setVector (m : Mgmt) (func v : Nat) (x : Msix) : Mgmt := { m with msix := Assoc.put m.msix (vectorKey func v) x }
/-- A message of a vector sent. -/
def Mgmt.sendVector (m : Mgmt) (func v : Nat) : Mgmt :=
  { m.setVector func v { m.vector func v with pending := false } with
    msgs := Assoc.put m.msgs (vectorKey func v) (Assoc.get m.msgs (vectorKey func v) 0 + 1) }

/-- An event of a vector (R126): a message, or its pending bit while the vector is masked or MSI-X is not enabled. -/
def State.fireVector (s : State) (func v : Nat) : State :=
  s.modMgmt (fun m =>
    if (m.vector func v).data.getLsbD 32 || !m.msixOn.contains func then
      m.setVector func v { m.vector func v with pending := true }
    else m.sendVector func v)

/-- The pending message of a vector is sent, if it may be. -/
def State.releaseVector (s : State) (func v : Nat) : State :=
  s.modMgmt (fun m =>
    let x := m.vector func v
    if x.pending && !x.data.getLsbD 32 && m.msixOn.contains func then m.sendVector func v else m)

/-! ### MGMTERR (R119) -/

/-- MGMTERR with bits set: its transition from zero raises vector 2. -/
def State.mgmtErr (s : State) (cfg clamp : Bool) : State :=
  let fire := !s.mgmt.cfgErr && !s.mgmt.clamp
  let s := s.modMgmt (fun m => { m with cfgErr := m.cfgErr || cfg, clamp := m.clamp || clamp })
  if fire then s.fireVector 0 2 else s

/-- A configuration write ignored or refused. -/
def State.refuseCfg (s : State) : State := s.mgmtErr true false
/-- A write clamped to its limit. -/
def State.clamped (s : State) : State := s.mgmtErr false true

/-- A read of a management register returns a value. -/
def State.returnRead (s : State) (x : Nat) : State := s.modMgmt (fun m => { m with readData := BitVec.ofNat 64 x })

/-! ### Package health (R20, R29, R38) -/

/-- An event of the package: an entry of the event log and vector 0. -/
def State.health (s : State) (die code arg : Nat) : State := (s.logEvent die code arg).fireVector 0 0

/-- A core leaves service (R38): its id enters the event log and its CORESAVAIL bit is cleared. -/
def State.removeCore (s : State) (c : Nat) : State :=
  let s := s.health (coreDie c) 0x27 c
  { s with coresAvail := s.coresAvail &&& ~~~ BitVec.ofNat 320 (2 ^ c) }

/-! ### Lost dies (R20, R166) -/

/-- The cores of a C die. -/
def dieCores (die : Nat) : List Nat := (List.range 40).map (40 * die + ·)

/-- A waiting launch that names a core of a lost die ends with REJECT_CORE_UNAVAILABLE (R166). -/
def State.rejectWaiting (s : State) (key : Nat) : State :=
  s.modLaunch key (fun l => { l with status := if l.status = 0 then 7 else l.status })

/-- The contexts of a launch on a lost die run no further: they are neither counted nor recorded (R166). -/
def Core.loseContexts (k : Core) (key : Nat) : Core :=
  let k := (List.range 4).foldl (fun k x => if (k.ctx x).launch = some key then k.setCtx x (k.ctx x).dropHeld.dead else k) k
  { k with
    saved := k.saved.filter (fun v => v.ctx.launch != some key)
    cur := k.cur.filter (fun x => (k.ctx x).mode != .killed) }

/-- The contexts of a launch on other dies are killed with 0x8F, which their records do not hold (R208), and it ends with
DIE_LOST (R166). -/
def State.loseLaunch (s : State) (key die : Nat) : State :=
  match s.launch? (some key) with
  | none => s
  | some l =>
    if l.state = .retired ∨ l.state = .waiting then s
    else
      let s := s.modLaunch key (fun l => { l with status := l.endStatus 8 })
      let s := s.killRest key 0x8F (fun c => coreDie c != die)
      let s : State := { s with cores := s.cores.map (fun (p : Nat × Core) =>
        (p.1, if coreDie p.1 = die then p.2.loseContexts key else p.2)) }
      s.modLaunch key (fun l => { l with
        state := .draining, enumerated := true, heldPoints := [], stepSlots := [], cancelled := true })

/-- A path between two neighbouring dies goes down (R20): the die is logged, and a lost C die takes its cores and the
launches on them with it (R166). DESIGN CHOICE (log 70): of a path between a C and an N die, the N die is the one logged, and the
C die, which the Z die still reaches, is not lost. -/
def State.losePath (s : State) (a b : Nat) : State :=
  if s.unreachable.contains (min a b, max a b) then s
  else
    let die := if b = 14 then a else if a = 14 then b else max a b
    let s : State := { s with unreachable := s.unreachable ++ [(min a b, max a b)] }
    let s := s.health die 0x8F die
    if 8 ≤ die then s
    else
      let cores := dieCores die
      let s : State := { s with coresAvail := cores.foldl (fun m c => m &&& ~~~ BitVec.ofNat 320 (2 ^ c)) s.coresAvail }
      let hit := s.launches.filter (fun p => p.2.place.any cores.contains)
      hit.foldl (fun s p => if p.2.state = .waiting then s.rejectWaiting p.1 else s.loseLaunch p.1 die) s

end Sys2Proof.Machine
end

