-- ==== Sys2Proof/Machine/Link.lean ====
section
/-!
DEFINITION. Die-to-die modules (R15 to R25): transmission under permits, replay, retraining, and the acceptance of internal
messages.
-/
namespace Sys2Proof.Machine
open Sys2Proof

/-! ### Transmission (R17, R23, R24) -/

/-- The priority of the classes (R24). -/
def classOrder : List Nat := [5, 4, 1, 2, 0, 3]

/-- A permit of class c is held or shared. -/
def mayTake (held : List Nat) (shared c : Nat) : Bool := 0 < shared || 0 < held.getD c 0

/-- One permit of class c taken: from the shared remainder, else from the class's own count (R23). -/
def takePermit (held : List Nat) (shared c : Nat) : List Nat × Nat :=
  if 0 < shared then (held, shared - 1) else (listSet held c (held.getD c 0 - 1), shared)

/-- One permit of class c returned: the class's own count up to its configured value, then the shared remainder; what
exceeds a lowered reservation goes to the remainder too (R23, R25). -/
def returnPermit (config held : List Nat) (shared c : Nat) : List Nat × Nat :=
  let n := held.getD c 0 + 1
  let keep := min n (config.getD c 0)
  (listSet held c keep, shared + (n - keep))

/-- The next of the streams of a class that wait, served round-robin: the lowest above the last served, else the lowest. -/
def nextStream (l : List Nat) (last : Nat) : Option Nat :=
  let least (l : List Nat) : Option Nat := l.foldl (fun m x => match m with
    | none => some x
    | some y => some (min x y)) none
  (least (l.filter (last < ·))).or (least l)

/-- The waiting message that a transmitter takes next, with the first of its flits to be sent (R23, R24). -/
def LinkDir.choose (l : LinkDir) : Option (IMsg × Nat) :=
  classOrder.findSome? (fun c =>
    let ms := l.queue.filter (fun m => m.1.cls == c)
    if ms.isEmpty || !mayTake l.held l.shared c then none
    else (nextStream (ms.map (·.1.stream)) (l.served.getD c 0)).bind (fun k => ms.find? (fun m => m.1.stream == k)))

/-- The message of the next new flit, with its flit: the rest of a message follows without a gap (R432), when a permit of its
class is there. -/
def LinkDir.nextPart (l : LinkDir) : Option (IMsg × Nat) :=
  match l.current with
  | some (m, i) => if mayTake l.held l.shared m.cls then some (m, i) else none
  | none => l.choose

/-- A transmitter sends its next flit: one to be resent, or a new one while the replay buffer has room. -/
def LinkDir.transmit (l : LinkDir) : Option LinkDir :=
  if l.sent < l.replay.length then
    (l.replay[l.sent]?).map (fun f => { l with wire := l.wire ++ [f], sent := l.sent + 1 })
  else if 64 ≤ l.replay.length then none
  else l.nextPart.map (fun p =>
    let (held, shared) := takePermit l.held l.shared p.1.cls
    let f : LinkFlit := ⟨l.nextSeq, p.1, p.2⟩
    { l with
      queue := if l.current.isSome then l.queue else l.queue.erase p
      current := if p.2 + 1 < p.1.flits then some (p.1, p.2 + 1) else none
      replay := l.replay ++ [f]
      wire := l.wire ++ [f]
      sent := l.sent + 1
      nextSeq := (l.nextSeq + 1) % 1024
      held := held
      shared := shared
      served := listSet l.served p.1.cls p.1.stream })

/-- A module carries flits: it is up and not retraining. -/
def Module.live (x : Module) : Bool := !x.down && x.retraining.isNone

/-- The flit that a module's transmitter would send leaves, if it may. -/
def State.moduleTransmit (s : State) (m d : Nat) : Option State :=
  if (s.mod m).live then ((s.mod m).dir d).transmit.map (fun l => s.modModule m (fun x => x.setDir d (fun _ => l))) else none

/-! ### Retraining (R17, R18, R21) -/

/-- A direction whose flits on the wire are lost and will be resent. -/
def LinkDir.rewind (l : LinkDir) : LinkDir := { l with wire := [], sent := 0, nak := none, failCount := 0, rxBad := [] }

/-- A module starts to retrain. -/
def State.startRetrain (s : State) (m : Nat) : State :=
  s.modModule m (fun x =>
    if x.retraining.isSome then x
    else { x with
      retraining := some s.cycle, retrains := satInc 0xFF x.retrains, d0 := x.d0.rewind, d1 := x.d1.rewind })

/-- What a lost transmitter still has to send, oldest first: the messages of its unacknowledged flits, each from the first
such flit, the rest of the message being sent when none of its flits is unacknowledged, and the waiting messages. -/
def LinkDir.pending (l : LinkDir) : List (IMsg × Nat) :=
  let open' := l.replay.foldl (fun r f =>
    if (r.getLast?).any (fun p => p.1 == f.msg && p.2 < f.part) then r else r ++ [(f.msg, f.part)]) ([] : List (IMsg × Nat))
  let rest := match l.current with
    | some p => if (open'.getLast?).any (fun q => q.1 == p.1) then [] else [p]
    | none => []
  open' ++ rest ++ l.queue

/-- A direction of a module that went down: nothing is held or in flight, every permit is back, the configured reservation and the
bad-class log stay. -/
def LinkDir.lost (l : LinkDir) (permits : List Nat) : LinkDir :=
  { LinkDir.reset with held := permits, shared := 1024 - permits.foldl (· + ·) 0, badClass := l.badClass }

/-- A module goes down (R19, R20): its flits move, ahead of newer ones, to the lowest-numbered module of its path that is not
down, and its streams are mapped anew; when every module is down, each originating request completes with 0x8F. -/
def State.moduleDown (s : State) (m : Nat) : State :=
  let x := s.mod m
  let (a, b) := modDies m
  let s := s.modModule m (fun x => { Module.reset with
    d0 := x.d0.lost x.permits, d1 := x.d1.lost x.permits
    down := true, crcErr := x.crcErr, retrains := x.retrains, permits := x.permits, spread := false })
  let s : State := { s with streamMap := s.streamMap.filter (fun p => p.2 != m) }
  match (pathMods a b).find? (fun k => !(s.mod k).down) with
  | some k => s.modModule k (fun y => { y with
      d0 := { y.d0 with queue := x.d0.pending ++ y.d0.queue }, d1 := { y.d1 with queue := x.d1.pending ++ y.d1.queue } })
  | none => (x.d0.pending ++ x.d1.pending).foldl (fun s f => s.lose f.1) (s.losePath a b)

/-- The failed lanes of a half. -/
def halfFailed (lanes : BitVec 64) (half : Nat) : Nat := popCount 32 (lanes.toNat / 2 ^ (32 * half))

/-- MODULE_RETRAIN_END (R17, R18, R21): lanes are repaired, the module degrades to its good half, goes down, or returns to
full width when system software asked for it. -/
def execModuleRetrainEnd (m : Nat) (failed0 failed1 : BitVec 64) (s : State) : Res :=
  .next (
    let x := s.mod m
    if x.retraining.isNone then s
    else
      let lanes := failed0 ||| failed1
      let lo := halfFailed lanes 0
      let hi := halfFailed lanes 1
      let badLo := 2 < lo
      let badHi := 2 < hi
      if badLo && badHi then
        if x.down then s.modModule m (fun x => { x with retraining := none, request := false }) else s.moduleDown m
      else
        let widen := x.request || !x.width
        let both := !badLo && !badHi
        let s := s.modModule m (fun x => { x with
          retraining := none
          request := false
          repaired := (if badLo then 0 else lo) + (if badHi then 0 else hi)
          width := if both then !widen else true
          half := if both then (if widen then false else x.half) else badLo
          spread := x.spread && !x.down
          down := false
          d0 := x.d0.rewind
          d1 := x.d1.rewind })
        let (a, b) := modDies m
        { s with unreachable := s.unreachable.filter (· != (min a b, max a b)) })

/-- CRC_RATE_RETRAIN (R18): more than 16 CRC failures within 2^20 received flits. -/
def LinkDir.tooManyErrors (l : LinkDir) : Bool := 16 < (l.rxBad.filter (fun n => l.rxFlits < n + 2 ^ 20)).length

/-- CRC_RATE_RETRAIN (R18). -/
def execCrcRateRetrain (m dir : Nat) (s : State) : Res :=
  .next (if (s.mod m).live && ((s.mod m).dir dir).tooManyErrors then s.startRetrain m else s)

/-- D2DSTAT_RETRAIN (R21): a write of 1 to RETRAIN; a module that is down attempts a full retrain. -/
def execD2dstatRetrain (m : Nat) (s : State) : Res :=
  .next ((s.startRetrain m).modModule m (fun x => { x with request := true }))

/-! ### Reception (R17, R22) -/

/-- A message accepted at the end of a module: at its destination it waits for acceptance; the Z die sends it on. -/
def State.arrive (s : State) (die : Nat) (m : IMsg) : State :=
  if m.dst = die then { s with transit := s.transit ++ [m] } else s.hop die m

/-- The receiver's record of a CRC failure of sequence number q. -/
def LinkDir.fail (l : LinkDir) (q : Nat) : LinkDir :=
  { l with
    rxBad := (l.rxBad ++ [l.rxFlits]).drop ((l.rxBad.length + 1) - 17)
    nak := some l.expect
    failCount := if l.failSeq = q then l.failCount + 1 else 1
    failSeq := q }

/-- UCIE_FLIT_RECEIVE (R17, R22, R432): the oldest flit on the wire arrives. After a failed flit every later one is discarded
unchecked until the resent flit arrives; a message arrives with its last flit, and one of a reserved class is discarded and
counted. -/
def execUcieFlitReceive (m dir : Nat) (crcOk : Bool) (s : State) : Res :=
  .next (
    if !(s.mod m).live then s
    else
      let l := (s.mod m).dir dir
      match l.wire with
      | [] => s
      | f :: rest =>
        if f.seq ≠ l.expect then s.modModule m (fun x => x.setDir dir (fun l => { l with wire := rest }))
        else
          let l := { l with wire := rest, rxFlits := l.rxFlits + 1 }
          if !crcOk then
            s.modModule m (fun x => { x.setDir dir (fun _ => l.fail f.seq) with crcErr := satInc 0xFFFF x.crcErr })
          else
            let last := f.part + 1 == f.msg.flits
            let bad := 5 < f.msg.cls
            let l := { l with
              expect := (f.seq + 1) % 1024, ack := some f.seq, failCount := 0, badClass := l.badClass + b2n (bad && last) }
            let s := s.modModule m (fun x => x.setDir dir (fun _ => l))
            if bad || !last then s
            else s.arrive (if dir = 0 then (modDies m).2 else (modDies m).1) f.msg)

/-- A transmitter frees the n oldest flits of its replay buffer, with their permits. DEDUCED (log 33): a module's permits return
with the acknowledgement of their flits. -/
def LinkDir.free (l : LinkDir) (config : List Nat) (n : Nat) : LinkDir :=
  let (held, shared) := (l.replay.take n).foldl (fun p f => returnPermit config p.1 p.2 f.msg.cls) (l.held, l.shared)
  { l with replay := l.replay.drop n, sent := l.sent - n, held := held, shared := shared }

/-- A transmitter frees the flits up to an acknowledged number. -/
def LinkDir.acknowledge (l : LinkDir) (config : List Nat) (q : Nat) : LinkDir :=
  match l.replay.findIdx? (fun f => f.seq == q) with
  | none => { l with ack := none }
  | some i => { l.free config (i + 1) with ack := none }

/-- A negative acknowledgement of a number (R17, R432): every flit before it is acknowledged, and the transmitter goes back
to it. -/
def LinkDir.goBack (l : LinkDir) (config : List Nat) (q : Nat) : LinkDir :=
  match l.replay.findIdx? (fun f => f.seq == q) with
  | none => { l with nak := none }
  | some i => { l.free config i with nak := none, ack := none, wire := [], sent := 0 }

/-- UCIE_NAK (R17, R432): the transmitter goes back to the failed flit; a third failure of one number starts a retrain. -/
def execUcieNak (m dir : Nat) (s : State) : Res :=
  .next (
    let l := (s.mod m).dir dir
    match l.nak with
    | none => s
    | some q =>
      let s := s.modModule m (fun x => x.setDir dir (fun l => l.goBack x.permits q))
      if 3 ≤ l.failCount then s.startRetrain m else s)

/-- UCIE_ACKNOWLEDGEMENT (R17, R23). -/
def execUcieAcknowledgement (m dir : Nat) (s : State) : Res :=
  .next (match ((s.mod m).dir dir).ack with
    | none => s
    | some q => s.modModule m (fun x => x.setDir dir (fun l => l.acknowledge x.permits q)))

/-! ### Acceptance (R19) -/

/-- A stream number newer than the last accepted. -/
def newerNum (seen : Option Nat) (n : Nat) : Bool :=
  match seen with
  | none => true
  | some k => 1 ≤ (n + 2 ^ 16 - k) % 2 ^ 16 && (n + 2 ^ 16 - k) % 2 ^ 16 < 2 ^ 15

/-- A Forip-format packet carries no stream number (R19). -/
def IMsg.isPacket (m : IMsg) : Bool :=
  match m.payload with
  | .packet _ | .deliver _ _ _ => true
  | _ => false

/-- INTERNAL_MESSAGE_RECEIVE (R19): the destination die accepts message i of those that wait, the first of its stream; one
whose number is not newer is discarded and counted. -/
def execInternalMessageReceive (die i : Nat) (s : State) : Res :=
  .next (match s.transit[i]? with
    | none => s
    | some m =>
      if m.dst ≠ die || (s.transit.take i).any (fun q => q.stream == m.stream) then s
      else
        let s := { s with transit := s.transit.eraseIdx i }
        if m.isPacket then s.accept m
        else if newerNum (Assoc.find s.streamSeen m.stream) m.num then
          State.accept { s with streamSeen := Assoc.put s.streamSeen m.stream m.num } m
        else s.dieDrop die)

/-! ### Status, epochs and permits (R21, R25) -/

/-- D2DSTAT of a module (R21). -/
def Module.stat (x : Module) : Nat :=
  x.crcErr * 2 ^ 48 + x.repaired * 2 ^ 40 + x.retrains * 2 ^ 32 + 8 * b2n x.request + 4 * b2n x.half + 2 * b2n x.width
    + b2n x.down

/-- D2DSTAT_READ (R21): the register is returned and its counts are cleared. -/
def execD2dstatRead (m : Nat) (s : State) : Res :=
  .next ((s.returnRead (s.mod m).stat).modModule m (fun x => { x with crcErr := 0, retrains := 0 }))

/-- STREAM_MAPPING_EPOCH (R21): every 2^20 cycles, the streams with no flit in flight are spread again. -/
def execStreamMappingEpoch (s : State) : Res :=
  .next (
    if s.cycle < s.epochAt + 2 ^ 20 then s
    else { s with
      epochAt := s.cycle
      mods := s.mods.map (fun p => (p.1, { p.2 with spread := !p.2.down }))
      streamMap := s.streamMap.filter (fun p => (s.mod p.2).carries (p.1 / 16)) })

/-- The reserved counts of a PERMITCFG write, by class (R25). -/
def permitFields (v : Word) : List Nat := (List.range 6).map (fun c => field v.toNat (8 * c + 7) (8 * c))

/-- A PERMITCFG write that R25 accepts. -/
def permitsOk (v : Word) : Bool := (permitFields v).all (fun n => 4 ≤ n) && (permitFields v).foldl (· + ·) 0 ≤ 1024

end Sys2Proof.Machine
end

