-- ==== Sys2Proof/Machine/FabricOps.lean ====
section
/-!
DEFINITION. The operations of the Z die that its packets share: ports, discards, route selection, the hand-over to a port, a
core or a Z-die resource, and fan-out with its acknowledgements (R42 to R56, R60).
-/
namespace Sys2Proof.Machine
open Sys2Proof

/-- The state with the fabric changed. -/
def State.modFab (s : State) (f : Fabric → Fabric) : State := { s with fab := f s.fab }

/-! ### Ports -/

/-- The escape permits of a class for one stage (R54). -/
def escapeSize : Nat → Nat
  | 0 | 1 | 3 => 65
  | 4 => 2
  | _ => 17

/-- A port at reset (R23, R45, R54). -/
def Port.reset : Port where
  st := .down
  peerPkg := 0
  peerPort := 0
  identSent := none
  oneLane := false
  lane := 0
  request := false
  retraining := none
  crcErr := 0
  retrains := 0
  badClass := 0
  permits := List.replicate 6 32
  out := []
  cur := 0
  kept := []
  serial := 0
  replay := []
  sent := 0
  nextSeq := 0
  held := List.replicate 6 32
  shared := 832
  escape := (List.range 6).map (fun c => List.replicate 7 (escapeSize c))
  served := List.replicate 6 0
  ret := List.replicate 6 0
  unit := none
  expect := 0
  nak := false
  failSeq := 0
  failCount := 0
  received := 0
  bad := []
  partPkt := none
  freed := List.replicate 6 0
  sinceControl := 0
  controlAt := 0

/-- A Forip port. -/
def State.port (s : State) (p : Nat) : Port := Assoc.get s.fab.ports p Port.reset
/-- The state with a port changed. -/
def State.modPort (s : State) (p : Nat) (f : Port → Port) : State :=
  s.modFab (fun x => { x with ports := Assoc.put x.ports p (f (s.port p)) })
/-- A port is in state UP. -/
def State.portUp (s : State) (p : Nat) : Bool := (s.port p).st == .up

/-- A packet joins the packets that wait at a port's transmitter. -/
def State.enqueue (s : State) (p : Nat) (z : ZPacket) (copy : Bool) : State :=
  s.modPort p (fun x => { x with out := x.out ++ [⟨x.serial, z, copy⟩], serial := x.serial + 1 })

/-- The buffer space of a packet that leaves the receiver is free again: its permits are counted in RET (R42). -/
def State.freePermits (s : State) (z : ZPacket) : State :=
  match z.port, z.space with
  | some p, true => s.modPort p (fun x => { x with
      freed := listSet x.freed z.pkt.cls ((x.freed.getD z.pkt.cls 0 + z.pkt.payload.length + 1) % 4096) })
  | _, _ => s

/-- Packet i leaves the packets that wait for routing. -/
def State.takeZ (s : State) (i : Nat) : State :=
  match s.zin[i]? with
  | none => s
  | some z => { s with zin := s.zin.eraseIdx i }.freePermits z

/-! ### Route entries (R49) -/

/-- PORT of a route entry. -/
def rtPort (e : BitVec 32) : Nat := field e.toNat 31 25
/-- OP of a route entry. -/
def rtOp (e : BitVec 32) : Nat := field e.toNat 24 20
/-- ARG of a route entry. -/
def rtArg (e : BitVec 32) : Nat := field e.toNat 19 0
/-- A route entry of an operation with an argument. -/
def rtEntry (op arg : Nat) : BitVec 32 := BitVec.ofNat 32 (op * 2 ^ 20 + arg)

/-! ### Header checks (R22, R50) -/

/-- The header is invalid (R50). A packet that ends with a poison last flit may be short; its destination discards it. -/
def ZPacket.invalid (z : ZPacket) : Bool :=
  let p := z.pkt
  (z.port.isSome && p.depth == 0) || 8 < p.depth || 8 < p.hops || 8 < p.hops + p.depth || 64 < p.len || !p.shapeOk
    || p.rsvd != 0 || (!z.poison && p.payload.length != p.len)

/-! ### Fan-out (R55) -/

/-- A fan-out set; its NEXT resets to 0xFFF. -/
def State.fanSet (s : State) (set : Nat) : Nat := (Assoc.get s.fab.fanSets set (BitVec.ofNat 512 (0xFFF * 2 ^ 448))).toNat

/-- The Z die as originator. -/
def State.zSrc (s : State) : Nat := srcOf s.pkgId 511 0

/-- A node at reset. -/
def Node.reset : Node := ⟨[], none, [], none, false, [], false, none⟩
/-- The node of a group. -/
def State.node (s : State) (g : Nat) : Node := Assoc.get s.fab.nodes g Node.reset
/-- The state with a node changed. -/
def State.modNode (s : State) (g : Nat) (f : Node → Node) : State :=
  s.modFab (fun x => { x with nodes := Assoc.put x.nodes g (f (s.node g)) })

/-- An active half with VALID = 1. -/
def State.group (s : State) (g : Nat) : Option GroupHalf :=
  match Assoc.find s.fab.active g with
  | some h => if h.ctl.getLsbD 0 then some h else none
  | none => none

/-- A field of a half. -/
def GroupHalf.f (h : GroupHalf) (hi lo : Nat) : Nat := field h.ctl.toNat hi lo
/-- An input of a node is a core of its own package: the node is a leaf (R63). -/
def GroupHalf.isLeaf (h : GroupHalf) : Bool :=
  (List.range (h.f 64 56)).any (fun i => !(Assoc.get h.map i 0).getLsbD 15)

/-- Sequence y is newer than x (R70). -/
def newer (y x : Nat) : Bool := 1 ≤ (y + 16384 - x) % 16384 && (y + 16384 - x) % 16384 ≤ 8191

/-- The half under which a sequence runs: for one older than a boundary, the half that the boundary ended (R79). -/
def State.halfFor (s : State) (g : Nat) (h : GroupHalf) (x : Nat) : GroupHalf :=
  (((s.node g).old.find? (fun p => newer p.1 x)).map (·.2)).getD h

/-- What a slot is when nothing has opened it (R70). -/
def RSlot.reset : RSlot :=
  ⟨.free, 0, 16383, 0, false, 0, 0, 0, false, 0, 0, false, false, [], [], none, [], [], []⟩

/-! ### Route selection (R51, R56) -/

/-- Alternative a of a package: its entries. -/
def State.alternative (s : State) (pkg a : Nat) : List (BitVec 32) :=
  let x := (Assoc.get s.fab.routes (4 * pkg + a) 0).toNat
  (List.range (field x 194 192)).map (fun i => BitVec.ofNat 32 (x / 2 ^ (32 * i)))

/-- The stack that R51 selects for a packet; none when no alternative is live. -/
def State.selectRoute (s : State) (p : Packet) : Option (List (BitVec 32)) :=
  let d := faPkg p.dest
  let live := ((List.range 4).map (s.alternative d)).filter (fun l =>
    1 ≤ l.length && l.length ≤ 6 && s.portUp (rtPort (l.headD 0)))
  let h := crc16 0x1021 (bytesOf 5 (p.src + 2 ^ 24 * p.cls + 2 ^ 27 * d))
  if live.isEmpty then none else live[h % live.length]?

/-- The stack of a fan-out point's acknowledgement from arrival port p to a package, p's own entry left out: an alternative that
begins with p, else the neighbour as destination. DESIGN CHOICE (log 65): it returns up the tree by the port that brought the
packet, in whose neighbour a fan-out point of the tree takes it, and which else passes it on. -/
def State.returnStack (s : State) (pkg p : Nat) : List (BitVec 32) :=
  match ((List.range 4).map (s.alternative pkg)).find? (fun l =>
    2 ≤ l.length && l.length ≤ 6 && rtOp (l.headD 0) == 0 && rtPort (l.headD 0) == p) with
  | some l => l.tail
  | none => [rtEntry 1 0]

/-- An acknowledgement of a packet sent toward its SRC, by the port that brought the packet (R55). DESIGN CHOICE (log 65):
where that port is down it waits there. -/
def State.ackToward (s : State) (p : Packet) (port : Option Nat) (status : Nat) : State :=
  let ack := p.respond s.zSrc 0x08 status []
  match port with
  | none => { s with zin := s.zin ++ [⟨none, none, false, false, ack⟩] }
  | some q => s.enqueue q ⟨none, none, false, false, { ack.withStack (s.returnStack (srcPkg p.src) q) with hops := 1 }⟩ false

/-- The acknowledgements of a fan-out point have all come (R55, R76, R79): its own goes toward the sender, or to the group's
node. -/
def State.fanDone (s : State) (f : Fan) : State :=
  let st := if f.lost then 0x82 else f.status
  match f.owner with
  | .sender => s.ackToward f.pkt f.port st
  | .data g k x => s.modNode g (fun n => { n with deliveries := n.deliveries.map (fun d =>
      if d.slot = k ∧ d.x = x then { d with acked := true, unreach := st != 0 } else d) })
  | .status g k x => s.modNode g (fun n => { n with
      deliveries := n.deliveries.filter (fun d => !(d.slot == k && d.x == x))
      slots := match Assoc.find n.slots k with
        | some r => if r.stage = .wait ∧ r.x = x ∧ !((s.group g).any (fun h => (s.halfFor g h x).isLeaf)) then
            Assoc.put n.slots k { RSlot.reset with last := r.last } else n.slots
        | none => n.slots })
  | .commit g => if st = 0 then s else s.logEvent 14 st g
  | .agree _ => s

/-- A fan-out point changed; when no copy is left, it is done. -/
def State.settleFan (s : State) (id : Nat) (f : Fan → Fan) : State :=
  match s.fab.fans.find? (fun x => x.id == id) with
  | none => s
  | some x =>
    let x := f x
    if x.copies.isEmpty then (s.modFab (fun b => { b with fans := b.fans.filter (fun y => y.id != id) })).fanDone x
    else s.modFab (fun b => { b with fans := b.fans.map (fun y => if y.id = id then x else y) })

/-- A copy acknowledged: the first nonzero status is kept (R55). -/
def State.fanAck (s : State) (id place status : Nat) : State :=
  s.settleFan id (fun f => { f with
    copies := f.copies.filter (fun c => c.1 != place), status := if f.status = 0 then status else f.status })

/-- A copy lost (R55). -/
def State.fanLose (s : State) (id place : Nat) : State :=
  s.settleFan id (fun f => { f with copies := f.copies.filter (fun c => c.1 != place), lost := true })

/-! ### Discards (R50) -/

/-- A packet discarded with a fault (R50): a poisoned one silently, a fan-out copy as its acknowledgement. -/
def State.discard (s : State) (z : ZPacket) (code : Nat) : State :=
  if z.poison then s
  else match z.fan with
    | some (id, place) => (s.countDrop z.port).fanAck id place code
    | none => (s.errorFor z.pkt code).countDrop z.port

/-! ### Rerouting (R52) -/

/-- A packet whose port is down takes a new selection (R52), or is discarded. -/
def State.reroute (s : State) (z : ZPacket) (front : Bool) : State :=
  match s.selectRoute z.pkt with
  | none => s.discard z 0x82
  | some l =>
    if 8 < z.pkt.hops + l.length then s.discard z 0x82
    else
      let z' := { z with pkt := z.pkt.withStack l }
      { s with zin := if front then z' :: s.zin else s.zin ++ [z'] }

/-! ### Delivery (R49, R60) -/

/-- A packet handed to a Z-die resource. -/
def State.hand (s : State) (z : ZPacket) : State := s.modFab (fun f => { f with handed := f.handed ++ [z] })

/-- A packet delivered to a core over its die's path (R60, R61), which is looked at first, as for a local issuer; a MGMT
packet is taken by the die (R48). DESIGN CHOICE (log 64): a core takes none of the Z die's operations, so such a packet has an
invalid address. -/
def State.deliverCore (s : State) (z : ZPacket) (core : Nat) : State :=
  if core ≤ 319 && !s.reach 14 (coreDie core) then s.discard z 0x8F
  else if s.badPlace core z.pkt.dest || [0x04, 0x05, 0x09, 0x0A, 0x0B].contains z.pkt.opc then s.discard z 0x86
  else if z.pkt.opc = 0x0D then s.hand z
  else s.sendInternal 14 (coreDie core) z.pkt.cls (fixedUnit 14 (z.pkt.src % 32)) (.deliver core z.pkt z.port)

/-- A packet delivered to the Z die's own resources (R60, R68, R70). -/
def State.deliverZ (s : State) (z : ZPacket) : State :=
  let p := z.pkt
  if p.opc = 0x0C then s.logEvent 14 p.status p.group
  else if faBuf p.dest = 0 ∧ [0x04, 0x05, 0x09, 0x0A, 0x0B].contains p.opc then s.hand z
  else if faBuf p.dest = 2 ∧ [0x01, 0x02, 0x0E, 0x0F].contains p.opc then s.hand z
  else s.discard z 0x86

/-- A packet whose end has been reached: its ECRC checked (R47), then delivered. -/
def State.deliver (s : State) (z : ZPacket) (core : Nat) : State :=
  if z.poison then s
  else if z.pkt.ecrc ≠ z.pkt.crc then s.discard z 0x84
  else if core = 511 then s.deliverZ z
  else s.deliverCore z core

/-- A packet fanned out over a set (R55): copies to the ports of the set that are up, and the local copies. -/
def State.fanOut (s : State) (p : Packet) (set : Nat) (port : Option Nat) (owner : FanOwner) : State :=
  let f := s.fanSet set
  let id := s.fab.nextFan
  let next := field f 459 448
  let copy : Packet := p.withStack [if next = 0xFFF then rtEntry 1 0 else rtEntry 3 next]
  let masked := setBits 128 (field f 127 0)
  let ups := masked.filter s.portUp
  let atZ := f.testBit 460 && faCore p.dest == 511 && (faBuf p.dest == 0 || !f.testBit 461)
  let cores : List Nat :=
    if !f.testBit 460 || atZ then []
    else if f.testBit 461 then setBits 320 (field f 447 128) else [faCore p.dest]
  let places := ups ++ cores.map (128 + ·) ++ (if atZ then [639] else [])
  let fan : Fan := ⟨id, set, p, port, owner, places.map (·, s.cycle), ups.length != masked.length, 0⟩
  let s := s.modFab (fun b => { b with nextFan := id + 1, fans := b.fans ++ [fan] })
  let s := ups.foldl (fun s q => s.enqueue q ⟨port, some (id, q), false, false, copy⟩ true) s
  let s := cores.foldl (fun s c => s.deliver ⟨port, some (id, 128 + c), false, false, p⟩ c) s
  let s := if atZ then s.deliver ⟨port, some (id, 639), false, false, p⟩ 511 else s
  s.settleFan id (fun x => x)

/-- The fan-out point and the place that a response acknowledges, if it does (R55). -/
def State.fanOf (s : State) (z : ZPacket) : Option (Nat × Nat) :=
  let p := z.pkt
  if p.opc ≠ 0x08 ∧ p.opc ≠ 0x0C then none
  else
    let place := match z.port with
      | some q => q
      | none => 128 + srcCore p.src
    (s.fab.fans.find? (fun f =>
      replyDest f.pkt.src == p.dest && f.pkt.seq == p.seq && f.pkt.tag == p.tag && f.pkt.group == p.group
        && f.copies.any (fun c => c.1 == place))).map (fun f => (f.id, place))

end Sys2Proof.Machine
end

