-- ==== Sys2Proof/Machine/Deliver.lean ====
section
/-!
DEFINITION. Packets at a core (R62, R218, R226, R239, R374 to R379): the sequence table, the packets it performs, and the
responses to its own.
-/
namespace Sys2Proof.Machine
open Sys2Proof

/-! ### The sequence table (R378) -/

/-- How a packet is classified. -/
inductive Verdict where
  | accept | duplicate | stale | full
  deriving DecidableEq, Repr

/-- R378: the verdict of a packet, and the table after it. -/
def classify (t : List SeqEntry) (src cls s cycle : Nat) : Verdict × List SeqEntry :=
  match t.find? (fun e => e.src == src && e.cls == cls) with
  | none =>
    if 4096 ≤ t.length then (.full, t)
    else (.accept, t ++ [⟨src, cls, BitVec.ofNat 32 s, 1, [], cycle⟩])
  | some e =>
    let put (f : SeqEntry) : List SeqEntry := t.map (fun x => if x.src = src ∧ x.cls = cls then f else x)
    let e := { e with lastSeen := cycle }
    let d := (s + 2 ^ 32 - e.high.toNat) % 2 ^ 32
    if 1 ≤ d ∧ d < 2 ^ 31 then
      (.accept, put { e with high := BitVec.ofNat 32 s, map := BitVec.ofNat 64 (e.map.toNat * 2 ^ min d 64 + 1) })
    else
      let k := (e.high.toNat + 2 ^ 32 - s) % 2 ^ 32
      if 64 ≤ k then (.stale, put e)
      else if e.map.getLsbD k then (.duplicate, put e)
      else (.accept, put { e with map := e.map ||| BitVec.ofNat 64 (2 ^ k) })

/-- RES of an entry with the old value of an AMO (R378). -/
def recordRes (t : List SeqEntry) (src cls s : Nat) (old : Word) : List SeqEntry :=
  t.map (fun e =>
    if e.src = src ∧ e.cls = cls then
      { e with res := e.res.filter (fun r => r.1 != s % 16) ++ [(s % 16, BitVec.ofNat 32 s, old)] }
    else e)

/-- The old value that RES holds for an AMO (R379). -/
def resOf (t : List SeqEntry) (src cls s : Nat) : Option Word :=
  match t.find? (fun e => e.src == src && e.cls == cls) with
  | none => none
  | some e => (e.res.find? (fun r => r.1 == s % 16 && r.2.1 == BitVec.ofNat 32 s)).map (·.2.2)

/-- Entry i of a sequence table has seen no arrival for 2^25 cycles. -/
def seqExpired (t : List SeqEntry) (cycle i : Nat) : Bool := (t[i]?).any (fun e => e.lastSeen + 2 ^ 25 ≤ cycle)

/-- SEQ_ENTRY_EXPIRE (R378): an entry of a core's table is freed; core 511 is the Z die. -/
def execSeqEntryExpire (c i : Nat) (s : State) : Res :=
  .next (
    if c = 511 then
      if seqExpired s.fab.seqTable s.cycle i then s.modFab (fun f => { f with seqTable := f.seqTable.eraseIdx i }) else s
    else if seqExpired (s.core c).seqTable s.cycle i then
      s.modCore c (fun k => { k with seqTable := k.seqTable.eraseIdx i })
    else s)

/-! ### Packets that a core performs (R226, R239, R379) -/

/-- Packets that read or write the core's buffers are performed in arrival order (R239). -/
def Packet.performs (p : Packet) : Bool := [0x01, 0x02, 0x06, 0x0E, 0x0F].contains p.opc

/-- What a delivery reads or writes in the core's buffers is performed in arrival order (R239). -/
def RxItem.performs : RxItem → Bool
  | .packet _ p => Packet.performs p
  | .rows _ => true

/-- The Forip port by which a packet entered the package. -/
def RxItem.port : RxItem → Option Nat
  | .packet port _ => port
  | .rows _ => none

/-- A packet leaves the packets that wait at a core. -/
def State.dropRx (s : State) (c i : Nat) : State :=
  s.modCore c (fun k => { k with rx := k.rx.eraseIdx i, rxWork := none })

/-- A response leaves a core for the Z die. -/
def State.sendResponse (s : State) (c : Nat) (p : Packet) (opc status : Nat) (payload : List Flit) : State :=
  s.sendInternal (coreDie c) 14 1 c (.packet (p.respond (srcOf s.pkgId c 0) opc status payload))

/-- A packet discarded at a core with a fault, and counted where it entered the package (R50, R226). -/
def State.refuseRx (s : State) (c i : Nat) (p : Packet) (code : Nat) : State :=
  ((s.dropRx c i).countDrop (((s.core c).rx[i]?).bind RxItem.port)).sendResponse c p 0x0C code []

/-- The buffer and rows that a packet names: its first row and how many. -/
def Packet.rowsOf (p : Packet) : Buf × Nat × Nat :=
  (bufOfCode (faBuf p.dest), faOff p.dest / 256,
    if p.opc = 0x01 ∨ p.opc = 0x0E then p.len / 4 else if p.opc = 0x06 then 1 else p.oparg)

/-- An AMO's operand, compare value, operation code and width (R374). -/
structure AmoFields where
  v : Word
  c : Word
  op : Nat
  half : Bool

/-- The fields of an AMO's payload, if its other bytes are zero. -/
def Packet.amo (p : Packet) : Option AmoFields :=
  let x := (p.payload.getD 0 0).toNat
  if field x 135 132 ≠ 0 ∨ field x 143 137 ≠ 0 ∨ field x 511 144 ≠ 0 then none
  else some ⟨BitVec.ofNat 64 x, BitVec.ofNat 64 (x / 2 ^ 64), field x 131 128, x.testBit 136⟩

/-- The operation of a code (R305). -/
def amoOfCode (n : Nat) : Option AmoOp :=
  [AmoOp.add, .and, .or, .xor, .min, .max, .swap, .cas, .fadd, .cadd].find? (fun op => amoCode op == n)

/-- Why a packet is discarded at its target (R60, R219, R226, R374). -/
def Core.rxFault (k : Core) (p : Packet) : Option Nat :=
  let (b, r, n) := Packet.rowsOf p
  if n = 0 ∨ 16 < n then some 0x81
  else if bufRows b < r + n then some 0x86
  else if p.opc = 0x06 ∧ b ≠ .a then some 0x86
  else if p.opc = 0x06 ∧ !(Packet.amo p).any (fun f => (amoOfCode f.op).any (fun op => !f.half || op == .add)) then some 0x81
  else if (p.opc = 0x01 ∨ p.opc = 0x06 ∨ p.opc = 0x0E) ∧ (List.range n).any (fun j => k.liveRow b (r + j)) then some 0x8D
  else none

/-- The engine port of row j of a packet is free in this cycle (R218, R220). -/
def State.rxPort (s : State) (c : Nat) (p : Packet) (j : Nat) : Bool :=
  let (b, r, _) := Packet.rowsOf p
  s.portOpen c b (r + j)

/-- R378, R379: a packet so classified is performed; a load is served whatever its class. -/
def Packet.served (p : Packet) (v : Verdict) : Bool :=
  match v with
  | .full => false
  | .accept => true
  | _ => p.opc == 0x02 || p.opc == 0x0F

/-- A packet waits for the engine port of its next row (R218): one that is answered without a row access never does. -/
def State.rxWaits (s : State) (c : Nat) (p : Packet) : Bool :=
  let k := s.core c
  match k.rxWork with
  | some (j, _) => !s.rxPort c p j
  | none => Packet.served p (classify k.seqTable p.src p.cls p.seq s.cycle).1 && (k.rxFault p).isNone && !s.rxPort c p 0

/-- Packet i of a core, of one of the operations given, when no earlier one must be performed first and it need not wait for
an engine port. -/
def State.rxAt (s : State) (c i : Nat) (ops : List Nat) : Option Packet :=
  match (s.core c).rx[i]? with
  | none => none
  | some (.rows _) => none
  | some (.packet _ p) =>
    if !ops.contains p.opc then none
    else if Packet.performs p && (((s.core c).rx.take i).any RxItem.performs || s.rxWaits c p) then none
    else some p

/-- The first step of a packet that a core performs: its classification (R378), then, where it is to be performed, its checks;
it goes on with f. -/
def State.beginRx (s : State) (c i : Nat) (p : Packet) (f : Verdict → State → State) : State :=
  let (v, t) := classify (s.core c).seqTable p.src p.cls p.seq s.cycle
  let s := s.modCore c (fun k => { k with seqTable := t })
  match v, (s.core c).rxFault p with
  | .full, _ => s.refuseRx c i p 0x8C
  | v, some code => if Packet.served p v then s.refuseRx c i p code else f v s
  | v, none => f v s

/-- The next row of a store is written; after the last one it is acknowledged (R62). -/
def State.storeRow (s : State) (c i : Nat) (p : Packet) : State :=
  match (s.core c).rxWork with
  | none => s
  | some (j, _) =>
    let (b, r, n) := Packet.rowsOf p
    if (s.core c).liveRow b (r + j) then s.refuseRx c i p 0x8D
    else
      let s := s.modCore c (fun k => { (k.usePort s.cycle b (r + j)).setRow b (r + j) (p.rowAt j) with rxWork := some (j + 1, []) })
      if j + 1 = n then (s.dropRx c i).sendResponse c p 0x08 0 [] else s

/-- A STORE or BULK_WRITE at a core: classified first, then row by row (R379). -/
def State.performStore (s : State) (c i : Nat) (p : Packet) : State :=
  match (s.core c).rxWork with
  | some _ => s.storeRow c i p
  | none =>
    s.beginRx c i p (fun v s => match v with
      | .accept => (s.modCore c (fun k => { k with rxWork := some (0, []) })).storeRow c i p
      | .duplicate => (s.dropRx c i).sendResponse c p 0x08 0 []
      | _ => s.dropRx c i)

/-- The next row of a load is read, as it stands after the cycle's writes to it (R221); after the last one the rows are
returned. -/
def State.loadRow (s : State) (c i : Nat) (p : Packet) (rsp : Nat) : State :=
  match (s.core c).rxWork with
  | none => s
  | some (j, l) =>
    let (b, r, n) := Packet.rowsOf p
    if (s.core c).badRows.contains (rowKey b (r + j)) then s.refuseRx c i p 0x26
    else
      let l := l ++ rowFlits ((s.coreAfter c).row b (r + j))
      let s := s.modCore c (fun k => { k.usePort s.cycle b (r + j) with rxWork := some (j + 1, l) })
      if j + 1 = n then (s.dropRx c i).sendResponse c p rsp 0 l else s

/-- A LOAD_REQ or BULK_READ_REQ at a core: served again when repeated (R379). -/
def State.performLoad (s : State) (c i : Nat) (p : Packet) (rsp : Nat) : State :=
  match (s.core c).rxWork with
  | some _ => s.loadRow c i p rsp
  | none => s.beginRx c i p (fun _ s => (s.modCore c (fun k => { k with rxWork := some (0, []) })).loadRow c i p rsp)

/-- STORE (R379). -/
def execStore (c i : Nat) (s : State) : Res :=
  .next (match s.rxAt c i [0x01] with
    | some p => s.performStore c i p
    | none => s)

/-- BULK_WRITE (R379). -/
def execBulkWrite (c i : Nat) (s : State) : Res :=
  .next (match s.rxAt c i [0x0E] with
    | some p => s.performStore c i p
    | none => s)

/-- LOAD_REQ (R379). -/
def execLoadReq (c i : Nat) (s : State) : Res :=
  .next (match s.rxAt c i [0x02] with
    | some p => s.performLoad c i p 0x03
    | none => s)

/-- BULK_READ_REQ (R379). -/
def execBulkReadReq (c i : Nat) (s : State) : Res :=
  .next (match s.rxAt c i [0x0F] with
    | some p => s.performLoad c i p 0x10
    | none => s)

/-- An atomic on a word of an A row, or on a 32-bit half of it (R371, R372): the old value, and the row after it. -/
def amoRow (f : AmoFields) (op : AmoOp) (off row : Nat) : Word × Nat :=
  if f.half then
    let i := off / 4 % 64
    let old := elem 32 row i
    (BitVec.ofInt 64 (signed 32 old), setField row (32 * i + 31) (32 * i) ((old + f.v.toNat) % 2 ^ 32))
  else
    let i := off / 8 % 32
    let old := BitVec.ofNat 64 (elem 64 row i)
    (old, setField row (64 * i + 63) (64 * i) (amoApply op old f.v f.c).1.toNat)

/-- The payload of an AMO_RSP. -/
def amoReply (old : Word) : List Flit := [old.setWidth 512]

/-- AMO (R379): performed once on a word of the A buffer, or answered from RES. -/
def execAmo (c i : Nat) (s : State) : Res :=
  .next (match s.rxAt c i [0x06] with
    | none => s
    | some p => s.beginRx c i p (fun v s => match v, Packet.amo p with
        | .accept, some f => match amoOfCode f.op with
          | none => s
          | some op =>
            let r := faOff p.dest / 256
            let (old, row) := amoRow f op (faOff p.dest) ((s.core c).row .a r).toNat
            let s := s.modCore c (fun k =>
              { (k.usePort s.cycle .a r).setRow .a r (BitVec.ofNat 2048 row) with
                seqTable := recordRes k.seqTable p.src p.cls p.seq old })
            (s.dropRx c i).sendResponse c p 0x07 0 (amoReply old)
        | .duplicate, _ => match resOf (s.core c).seqTable p.src p.cls p.seq with
          | some old => (s.dropRx c i).sendResponse c p 0x07 0 (amoReply old)
          | none => s.dropRx c i
        | _, _ => s.dropRx c i))

/-! ### Responses to a core's own packets (R376) -/

/-- The operation that response i of a core answers, with its context. -/
def State.answered (s : State) (c : Nat) (p : Packet) : Option (Nat × RemoteOp) :=
  let x := faOff p.dest % 4
  ((s.ctxOf c x).remote.find? (fun r => r.tag == p.tag)).map (fun r => (x, r))

/-- A response taken: f for the operation it answers; a further response is discarded (R379). -/
def State.takeResponse (s : State) (c i opc : Nat) (f : Nat → RemoteOp → Packet → State → State) : State :=
  match s.rxAt c i [opc] with
  | none => s
  | some p =>
    let s := s.modCore c (fun k => { k with rx := k.rx.eraseIdx i })
    match s.answered c p with
    | none => s
    | some (x, r) =>
      let s := s.modCtx c x (fun t => { t with remote := t.remote.filter (fun q => q.tag != r.tag) })
      (f x r p s).pruneFences c x

/-- An operation's load-queue entry filled and its store-queue entry released. -/
def Context.completeOp (t : Context) (r : RemoteOp) (bytes : List Byte) : Context :=
  let t := match r.lq with
    | some q => t.modLoad q (fun e => e.fill 0 bytes none)
    | none => t
  match r.sq with
  | some q => t.dropStore q
  | none => t

/-- The rows that a copy packet moves: four for a ring slot, else one. -/
def State.copyRows (s : State) (c ch uid row : Nat) : List Nat :=
  let q := ((s.core c).chan ch).queue.find? (fun e => e.uid == uid)
  if q.any CopyEntry.ring then (List.range 4).map (row + ·) else [row]

/-- An operation ends with a fault: a copy entry's row, or a queue entry (R285, R376). -/
def State.failOp (s : State) (c x : Nat) (r : RemoteOp) (code : Nat) : State :=
  match r.copy with
  | some (ch, uid, row) => s.copyAnswer c ch uid row 0 r.write (.err code)
  | none => s.modCtx c x (fun t => t.remoteFail r.seq code r.tag r.lq r.sq)

/-- LOAD_RSP (R376). -/
def execLoadRsp (c i : Nat) (s : State) : Res :=
  .next (s.takeResponse c i 0x03 (fun x r p s => s.modCtx c x (fun t => t.completeOp r (bytesOf 256 (p.rowAt 0).toNat))))

/-- AMO_RSP (R376). -/
def execAmoRsp (c i : Nat) (s : State) : Res :=
  .next (s.takeResponse c i 0x07 (fun x r p s =>
    s.modCtx c x (fun t => t.completeOp r (bytesOf 8 (p.payload.getD 0 0).toNat))))

/-- ACK (R376). -/
def execAck (c i : Nat) (s : State) : Res :=
  .next (s.takeResponse c i 0x08 (fun x r p s =>
    if p.status ≠ 0 then s.failOp c x r p.status
    else match r.copy with
      | some (ch, uid, row) => (s.copyRows c ch uid row).foldl (fun s j =>
          (List.range 4).foldl (fun s q => s.copyAnswer c ch uid j q true (.ok [])) s) s
      | none => s.modCtx c x (fun t => t.completeOp r [])))

/-- ERROR (R376). -/
def execError (c i : Nat) (s : State) : Res :=
  .next (s.takeResponse c i 0x0C (fun x r p s => s.failOp c x r p.status))

/-- BULK_READ_RSP (R376). -/
def execBulkReadRsp (c i : Nat) (s : State) : Res :=
  .next (s.takeResponse c i 0x10 (fun _ r p s => match r.copy with
    | none => s
    | some (ch, uid, row) => (List.range (p.len / 4)).foldl (fun s j =>
        s.copyAnswer c ch uid (row + j) 0 false (.ok (bytesOf 256 (p.rowAt j).toNat))) s))

/-! ### Rows that the Z die writes (R75, R76, R226, R239, R382) -/

/-- A row written to a core's buffer by the Z die; one that holds a live barrier word is counted as a drop (R226). -/
def State.writeRow (s : State) (c : Nat) (b : Buf) (r : Nat) (bytes : List Byte) : State :=
  if (s.core c).liveRow b r then s.zDrop
  else s.modCore c (fun k => (k.usePort s.cycle b r).setRow b r (BitVec.ofNat 2048 (ofBytes bytes)))

/-- The waiting entries of a core for a group and a sequence complete with the first 8 bytes of a status row (R382). -/
def Core.completeStatus (k : Core) (g x : Nat) (bytes : List Byte) : Core :=
  let data : Row := BitVec.ofNat 2048 (ofBytes (bytes.take 8))
  { k with ctxs := k.ctxs.map (fun t =>
      let hit (e : LoadEntry) : Bool := e.kind == .status g x && e.missing != 0
      let seqs := (t.lq.filter hit).map (·.seq)
      { t with
        lq := t.lq.map (fun e => if hit e then e.done data else e)
        remote := t.remote.filter (fun r => !(r.lq.any seqs.contains)) }) }

/-- A packet handed over by a fan-out point, or by a DELIVER entry, is acknowledged with a status (R55). -/
def State.ackHanded (s : State) (z : ZPacket) (status : Nat) : State :=
  match z.fan with
  | some (id, place) => s.fanAck id place status
  | none => s.ackToward z.pkt z.port status

/-- Core c has its rows of a result; with the last core the result is acknowledged. -/
def State.endBatch (s : State) (c id : Nat) : State :=
  match s.fab.results.find? (fun b => b.id == id) with
  | none => s
  | some b =>
    let left := b.cores.filter (· != c)
    if left.isEmpty then
      (s.modFab (fun f => { f with results := f.results.filter (fun b => b.id != id) })).ackHanded b.z b.status
    else s.modFab (fun f => { f with results := f.results.map (fun b => if b.id = id then { b with cores := left } else b) })

/-- The last row of a result is written: the entries that wait for a status complete, and the result may be acknowledged. -/
def State.endRows (s : State) (c i : Nat) (r : ResultRows) : State :=
  let s := s.dropRx c i
  let s := match r.status with
    | some (g, x, bytes) => s.modCore c (·.completeStatus g x bytes)
    | none => s
  match r.batch with
  | some id => s.endBatch c id
  | none => s

/-- Item i of a core, rows of a result: the next of them is written when its turn has come and its engine port is free (R218,
R239). -/
def State.writeResult (s : State) (c i : Nat) (r : ResultRows) : Option State :=
  if ((s.core c).rx.take i).any RxItem.performs then none
  else match r.rows with
    | [] => some (s.endRows c i r)
    | (j, bytes) :: t =>
      if !s.portOpen c r.buf j then none
      else
        let s := s.writeRow c r.buf j bytes
        if t.isEmpty then some (s.endRows c i r)
        else some (s.modCore c (fun k => { k with rx := listSet k.rx i (.rows { r with rows := t }) }))

/-! ### The next packet of a core -/

/-- The step that takes packet i of a core. -/
def rxStep (c i : Nat) (p : Packet) : State → Res :=
  if p.opc = 0x01 then execStore c i
  else if p.opc = 0x02 then execLoadReq c i
  else if p.opc = 0x03 then execLoadRsp c i
  else if p.opc = 0x06 then execAmo c i
  else if p.opc = 0x07 then execAmoRsp c i
  else if p.opc = 0x08 then execAck c i
  else if p.opc = 0x0C then execError c i
  else if p.opc = 0x0E then execBulkWrite c i
  else if p.opc = 0x0F then execBulkReadReq c i
  else execBulkReadRsp c i

/-- The step of a core's packets that is due: a response at once, another when it is its turn and its row's port is free; or the
next row of a result. -/
def State.dueRx (s : State) (c : Nat) : Option (State → Res) :=
  ((List.range (s.core c).rx.length).zip (s.core c).rx).findSome? (fun q =>
    match q.2 with
    | .packet _ p => (s.rxAt c q.1 [p.opc]).map (rxStep c q.1)
    | .rows r => (s.writeResult c q.1 r).map (fun t _ => .next t))

end Sys2Proof.Machine
end

