-- ==== Sys2Proof/Machine/Route.lean ====
section
/-!
DEFINITION. Routing on the Z die (R49 to R56): the fill of a stack, the pops, fan-out acknowledgements and the route table.
-/
namespace Sys2Proof.Machine
open Sys2Proof

/-- The fabric stream of a packet (R53). -/
def Packet.flow (p : Packet) : Nat × Nat × Nat := (p.src, p.cls, faPkg p.dest)

/-- Packet i of those that wait for routing, when no earlier one is of its stream. -/
def State.zAt (s : State) (i : Nat) : Option ZPacket :=
  match s.zin[i]? with
  | none => none
  | some z => if (s.zin.take i).any (fun y => Packet.flow y.pkt == Packet.flow z.pkt) then none else some z

/-- What a packet that waits for routing needs next. -/
inductive ZStage where
  | bad | ack | fill | fwd | deliver | combine | fanout
  deriving DecidableEq, Repr

/-- The stage of a packet: an invalid header or operation, an acknowledgement of a copy, an empty stack, or its top entry. -/
def State.zStage (s : State) (z : ZPacket) : ZStage :=
  if z.invalid then .bad
  else if (s.fanOf z).isSome then .ack
  else if z.pkt.depth = 0 then .fill
  else match rtOp z.pkt.top with
    | 0 => .fwd
    | 1 => .deliver
    | 2 => .combine
    | 3 => .fanout
    | _ => .bad

/-- The group-form DEST of the node's own operations (R68). -/
def Packet.toNode (p : Packet) : Bool := faCore p.dest == 511 && faBuf p.dest == 0 && (p.cls == 2 || p.cls == 4)

/-- PACKET_ROUTE_FILL (R51, R68): a packet of this package with an empty stack is handed to its node, takes a DELIVER, or a
live alternative of the route table. -/
def execPacketRouteFill (i : Nat) (s : State) : Res :=
  .next (match s.zAt i with
    | none => s
    | some z =>
      let stack (l : List (BitVec 32)) : State :=
        { s with zin := listSet s.zin i { z with pkt := { z.pkt.withStack l with hops := 0 } } }
      if s.zStage z ≠ .fill then s
      else if faPkg z.pkt.dest = s.pkgId then
        if Packet.toNode z.pkt then
          if z.pkt.ecrc ≠ z.pkt.crc then (s.takeZ i).discard z 0x84 else (s.takeZ i).hand z
        else stack [rtEntry 1 0]
      else match s.selectRoute z.pkt with
        | some l => stack l
        | none => (s.takeZ i).discard z 0x82)

/-- ROUTE_FWD (R49, R50, R52). -/
def execRouteFwd (i : Nat) (s : State) : Res :=
  .next (match s.zAt i with
    | none => s
    | some z =>
      let z' := { z with pkt := z.pkt.pop, space := false }
      match s.zStage z with
      | .bad => (s.takeZ i).discard z 0x81
      | .fwd =>
        if rtArg z.pkt.top ≠ 0 then (s.takeZ i).discard z 0x81
        else if s.portUp (rtPort z.pkt.top) then
          if z'.pkt.hops = 8 then (s.takeZ i).discard z 0x81
          else (s.takeZ i).enqueue (rtPort z.pkt.top) z' false
        else (s.takeZ i).reroute z' true
      | _ => s)

/-- ROUTE_DELIVER (R49, R50, R60). -/
def execRouteDeliver (i : Nat) (s : State) : Res :=
  .next (match s.zAt i with
    | none => s
    | some z =>
      let z' := { z with pkt := z.pkt.pop }
      if s.zStage z ≠ .deliver then s
      else if rtPort z.pkt.top ≠ 0 ∨ rtArg z.pkt.top ≠ 0 ∨ faPkg z.pkt.dest ≠ s.pkgId ∨ z'.pkt.depth ≠ 0 then
        (s.takeZ i).discard z 0x81
      else (s.takeZ i).deliver z' (faCore z.pkt.dest))

/-- ROUTE_COMBINE (R49, R68). -/
def execRouteCombine (i : Nat) (s : State) : Res :=
  .next (match s.zAt i with
    | none => s
    | some z =>
      let z' := { z with pkt := z.pkt.pop }
      let arg := rtArg z.pkt.top
      if s.zStage z ≠ .combine then s
      else
        let s := s.takeZ i
        if rtPort z.pkt.top ≠ 0 ∨ 2 ^ 14 ≤ arg then s.discard z 0x81
        else if z.poison then s
        else if z.pkt.ecrc ≠ z.pkt.crc then s.discard z 0x84
        else match s.group z.pkt.group with
          | none => s.discard z 0x87
          | some h => if h.f 101 88 = arg ∧ Packet.toNode z.pkt then s.hand z' else s.discard z 0x87)

/-- ROUTE_FANOUT (R49, R50, R55). DESIGN CHOICE (log 70): the fan-out point is the destination at which a poisoned packet is
discarded. -/
def execRouteFanout (i : Nat) (s : State) : Res :=
  .next (match s.zAt i with
    | none => s
    | some z =>
      let p := z.pkt.pop
      let arg := rtArg z.pkt.top
      if s.zStage z ≠ .fanout then s
      else if rtPort z.pkt.top ≠ 0 ∨ 2 ^ 12 ≤ arg then (s.takeZ i).discard z 0x81
      else if p.hops = 8 ∧ (setBits 128 (field (s.fanSet arg) 127 0)).any s.portUp then (s.takeZ i).discard z 0x81
      else if z.poison then s.takeZ i
      else (s.takeZ i).fanOut p arg z.port .sender)

/-- FANOUT_ACK (R55): an acknowledgement of a copy reaches its fan-out point. -/
def execFanoutAck (i : Nat) (s : State) : Res :=
  .next (match s.zAt i with
    | none => s
    | some z => match s.fanOf z with
      | none => s
      | some (id, place) =>
        let s := s.takeZ i
        if z.invalid then s.discard z 0x81
        else if z.pkt.ecrc ≠ z.pkt.crc then s.discard z 0x84
        else s.fanAck id place z.pkt.status)

/-- The copies of a fan-out point that have waited too long. -/
def State.lateCopies (s : State) (f : Fan) : List Nat :=
  (f.copies.filter (fun c => c.2 + 2 ^ s.mcwait ≤ s.cycle)).map (·.1)

/-- FANOUT_ACK_TIMEOUT (R55, R57). -/
def execFanoutAckTimeout (fan : Nat) (s : State) : Res :=
  .next (match s.fab.fans.find? (fun f => f.id == fan) with
    | none => s
    | some f => (s.lateCopies f).foldl (fun s p => s.fanLose fan p) s)

/-! ### The route table (R56) -/

/-- The alternative and the word of a route-table offset. -/
def routeWord (offset : Nat) : Option (Nat × Nat) :=
  if 0x1000000 ≤ offset ∧ offset < 0x1000000 + 128 * 8192 ∧ offset % 8 = 0 then
    some ((offset - 0x1000000) / 32, (offset - 0x1000000) / 8 % 4)
  else none

/-- ROUTE_TABLE_STAGE_WRITE (R56): the registers at +0, +8 and +16 go to the staging copy. -/
def execRouteTableStageWrite (offset : Nat) (v : Word) (s : State) : Res :=
  .next (match routeWord offset with
    | none => s
    | some (k, w) =>
      if w = 3 then s
      else
        let x := setField (Assoc.get s.fab.staging k 0).toNat (64 * w + 63) (64 * w) v.toNat
        s.modFab (fun f => { f with staging := Assoc.put f.staging k (BitVec.ofNat 192 x) }))

/-- ROUTE_TABLE_PUBLISH (R56): the register at +24 publishes the staging copy with its LEN. -/
def execRouteTablePublish (offset : Nat) (v : Word) (s : State) : Res :=
  .next (match routeWord offset with
    | none => s
    | some (k, w) =>
      if w ≠ 3 then s
      else
        let len := v.toNat % 8
        let bad := len == 7
        let x := (Assoc.get s.fab.staging k 0).toNat + (if bad then 0 else len) * 2 ^ 192
        let s := s.modFab (fun f => { f with routes := Assoc.put f.routes k (BitVec.ofNat 256 x) })
        if bad then s.refuseCfg else s)

/-! ### The next packet to be routed -/

/-- The step that routes a packet. -/
def State.routeStep (s : State) (i : Nat) (z : ZPacket) : State → Res :=
  match s.zStage z with
  | .bad => execRouteFwd i
  | .ack => execFanoutAck i
  | .fill => execPacketRouteFill i
  | .fwd => execRouteFwd i
  | .deliver => execRouteDeliver i
  | .combine => execRouteCombine i
  | .fanout => execRouteFanout i

end Sys2Proof.Machine
end

