-- ==== Sys2Proof/Machine/Forip.lean ====
section
/-!
DEFINITION. Forip ports (R39 to R45, R52, R54, R57): wire units, replay, link control, retraining, training and status; and
the transmission of flits and the permit pools of every link.
-/
namespace Sys2Proof.Machine
open Sys2Proof

/-! ### Wire units (R41) -/

/-- Bits 31:16 of a trailer. -/
def trailerTop (seq kind : Nat) : Nat := seq % 4096 * 16 + kind
/-- The CRC of a wire unit. -/
def unitCrc (f : Flit) (top : Nat) : Nat := crc16 0x8BB7 (bytesOf 64 f.toNat ++ bytesOf 2 top)
/-- The link trailer of a flit. -/
def trailer (f : Flit) (seq kind : Nat) : BitVec 32 :=
  BitVec.ofNat 32 (trailerTop seq kind * 2 ^ 16 + unitCrc f (trailerTop seq kind))
/-- A received unit passes its CRC check: the CRC agrees and KIND is not reserved. -/
def unitOk (f : Flit) (t : BitVec 32) : Bool :=
  unitCrc f (t.toNat / 2 ^ 16) == t.toNat % 2 ^ 16 && field t.toNat 19 16 < 5

/-! ### Permits (R54) -/

/-- The permits that a packet may take: shared, its class's, and its stage's escape pool. -/
def Port.room (x : Port) (p : Packet) : Nat :=
  let escape := if 1 ≤ p.hops ∧ p.hops ≤ 7 then (x.escape.getD p.cls []).getD (p.hops - 1) 0 else 0
  x.shared + x.held.getD p.cls 0 + escape

/-- Permits taken for a whole packet, in the order of R54. -/
def Port.take (x : Port) (p : Packet) : Port :=
  let n := p.payload.length + 1
  let a := min n x.shared
  let b := min (n - a) (x.held.getD p.cls 0)
  let c := n - a - b
  let pools := x.escape.getD p.cls []
  { x with
    shared := x.shared - a
    held := listSet x.held p.cls (x.held.getD p.cls 0 - b)
    escape := listSet x.escape p.cls (listSet pools (p.hops - 1) (pools.getD (p.hops - 1) 0 - c)) }

/-- Returned permits refill the stages of a class in ascending order; what is left over. -/
def refill (size : Nat) : List Nat → Nat → List Nat × Nat
  | [], n => ([], n)
  | k :: t, n =>
    let a := min n (size - k)
    let (t', m) := refill size t (n - a)
    ((k + a) :: t', m)

/-- n permits of a class returned (R54): the escape pools, the class's own count, then the shared remainder. -/
def Port.give (x : Port) (cls n : Nat) : Port :=
  let (pools, m) := refill (escapeSize cls) (x.escape.getD cls []) n
  let (held, shared) := (List.range m).foldl (fun p _ => returnPermit x.permits p.1 p.2 cls) (x.held, x.shared)
  { x with escape := listSet x.escape cls pools, held := held, shared := shared }

/-! ### Transmission (R24, R43, R54) -/

/-- The number of a packet's stream at a port. -/
def Packet.flowKey (p : Packet) : Nat := p.src * 2 ^ 13 + faPkg p.dest

/-- The packet that a port starts next: by class priority, round-robin among streams, with permits for all its flits. -/
def Port.choose (x : Port) : Option OutPacket :=
  classOrder.findSome? (fun c =>
    let l := x.out.filter (fun o => o.z.pkt.cls == c)
    let heads := l.filter (fun o => (l.find? (fun q => Packet.flowKey q.z.pkt == Packet.flowKey o.z.pkt)) == some o)
    let ready := heads.filter (fun o => o.z.pkt.payload.length + 1 ≤ x.room o.z.pkt)
    (nextStream (ready.map (fun o => Packet.flowKey o.z.pkt)) (x.served.getD c 0)).bind (fun k =>
      ready.find? (fun o => Packet.flowKey o.z.pkt == k)))

/-- The KIND of flit n of a packet: its header, a payload flit, the last one, or a poison last flit. -/
def flitKind (z : ZPacket) (n : Nat) : Nat :=
  if n = 0 then 1 else if n < z.pkt.payload.length then 2 else if z.poison then 4 else 3

/-- Flit n of the packet being sent leaves. -/
def Port.sendFlit (x : Port) (o : OutPacket) : Port :=
  let n := x.cur
  let data : Flit := if n = 0 then o.z.pkt.header else o.z.pkt.payload.getD (n - 1) 0
  let f : TxFlit := ⟨x.nextSeq, flitKind o.z n, o.serial, data⟩
  let x := if n = 0 then { x.take o.z.pkt with served := listSet x.served o.z.pkt.cls (Packet.flowKey o.z.pkt) } else x
  let last := n == o.z.pkt.payload.length
  { x with
    replay := x.replay ++ [f]
    sent := x.sent + 1
    nextSeq := (x.nextSeq + 1) % 4096
    unit := some (data, trailer data f.seq f.kind)
    cur := if last then 0 else n + 1
    out := if last then x.out.erase o else o :: x.out.erase o
    kept := if last && !o.copy then x.kept ++ [o] else x.kept }

/-- A port's transmitter sends its next data flit, if it may. -/
def Port.transmit (x : Port) : Option Port :=
  if x.st ≠ .up ∨ x.retraining.isSome then none
  else if x.sent < x.replay.length then
    (x.replay[x.sent]?).map (fun f => { x with unit := some (f.data, trailer f.data f.seq f.kind), sent := x.sent + 1 })
  else if 2048 ≤ x.replay.length then none
  else
    let o := if x.cur = 0 then x.choose else x.out.head?
    o.map (fun o => x.sendFlit o)

/-- FLIT_TRANSMIT (R23, R24, R54): link 0 to 239 is a module, in the given direction; 256 to 383 a Forip port. -/
def execFlitTransmit (link dir : Nat) (s : State) : Res :=
  .next (
    if link < 240 then (s.moduleTransmit link dir).getD s
    else if link < 256 ∨ 383 < link then s
    else match (s.port (link - 256)).transmit with
      | some x => s.modPort (link - 256) (fun _ => x)
      | none => s)

/-- PERMITCFG_WRITE (R25). -/
def execPermitcfgWrite (link : Nat) (v : Word) (s : State) : Res :=
  .next (
    if (240 ≤ link ∧ link < 256) ∨ 383 < link then s
    else if !permitsOk v then s.refuseCfg
    else if link < 240 then s.modModule link (fun x => { x with permits := permitFields v })
    else s.modPort (link - 256) (fun x => { x with permits := permitFields v }))

/-! ### Ports going down (R52) -/

/-- A port goes down (R52): its waiting packets and its unacknowledged requests, reductions and bulk packets are routed again,
ahead of newer ones; copies are lost. What it had received of an unfinished packet is forwarded and ends with a poison last
flit, and its receive buffer is empty. A port on one lane stays on it (R43). DESIGN CHOICE (log 66): the permit pool restarts at
the configured counts. -/
def State.portDown (s : State) (p : Nat) : State :=
  let x := s.port p
  let begun := x.out.take (b2n (x.cur != 0))
  let waiting := x.out.drop (b2n (x.cur != 0))
  let again := ((x.kept ++ begun).filter (fun o => [0, 2, 3].contains o.z.pkt.cls)) ++ waiting
  let copies := (again ++ begun).filter (·.copy)
  let zin := s.zin.map (fun z => if z.port = some p then { z with space := false } else z)
  let cut : List ZPacket := match x.partPkt with
    | some (q, l) => if q.cls ≤ 5 then [⟨some p, none, true, false, { q with payload := l ++ [0] }⟩] else []
    | none => []
  let s : State := { s with zin := zin ++ cut }
  let s := s.modPort p (fun x => { Port.reset with
    crcErr := x.crcErr, retrains := x.retrains, badClass := x.badClass, permits := x.permits
    held := x.permits, shared := 1024 - x.permits.foldl (· + ·) 0, oneLane := x.oneLane, lane := x.lane
    peerPkg := x.peerPkg, peerPort := x.peerPort, serial := x.serial })
  let s := copies.foldl (fun s o => match o.z.fan with
    | some (id, place) => s.fanLose id place
    | none => s) s
  ((again.filter (fun o => !o.copy)).reverse).foldl (fun s o => s.reroute o.z true) s

/-! ### Reception (R41 to R43) -/

/-- A port starts to retrain. -/
def State.portRetrain (s : State) (p : Nat) : State :=
  s.modPort p (fun x =>
    if x.st ≠ .up ∨ x.retraining.isSome then x
    else { x with retraining := some s.cycle, retrains := satInc 0xFF x.retrains, failCount := 0, bad := [] })

/-- A packet whose last flit has arrived waits for routing; a reserved class is discarded here (R22). -/
def State.receivePacket (s : State) (p : Nat) (pkt : Packet) (poison : Bool) : State :=
  if 5 < pkt.cls then (s.countDrop (some p)).modPort p (fun x => { x with badClass := x.badClass + 1 })
  else { s with zin := s.zin ++ [⟨some p, none, poison, true, pkt⟩] }

/-- A good data flit in sequence: a header, or payload of the packet being received. -/
def State.receiveFlit (s : State) (p kind : Nat) (f : Flit) : State :=
  let x := s.port p
  let set (o : Option (Packet × List Flit)) (s : State) : State := s.modPort p (fun x => { x with partPkt := o })
  if kind = 1 then
    -- a header while a packet is open: the open packet's payload is short
    let s := match x.partPkt with
      | some (q, l) => s.receivePacket p { q with payload := l } false
      | none => s
    let q := packetOf f
    if q.len = 0 then (set none s).receivePacket p q false else set (some (q, [])) s
  else match x.partPkt with
    | none => s.countDrop (some p)
    | some (q, l) =>
      if kind = 2 then set (some (q, l ++ [f])) s
      else (set none s).receivePacket p { q with payload := l ++ [f] } (kind == 4)

/-- Data flits up to an acknowledged number leave the replay buffer, and packets all of whose flits are acknowledged are no
longer kept. -/
def Port.acknowledge (x : Port) (q : Nat) : Port :=
  match x.replay.findIdx? (fun f => f.seq == q) with
  | none => x
  | some i =>
    let rest := x.replay.drop (i + 1)
    { x with
      replay := rest
      sent := x.sent - (i + 1)
      kept := x.kept.filter (fun o => rest.any (fun f => f.serial == o.serial)) }

/-- The count of class c in RET. -/
def retOf (f : Flit) (c : Nat) : Nat := field f.toNat (16 + 12 * c + 11) (16 + 12 * c)

/-- A link-control flit taken (R42). -/
def State.takeControl (s : State) (p : Nat) (f : Flit) : State :=
  let ackseq := field f.toNat 11 0
  let s := s.modPort p (fun x =>
    let x := if f.getLsbD 12 then x.acknowledge ackseq else x
    let x := if f.getLsbD 13 then
        { x with sent := (x.replay.findIdx? (fun g => g.seq == (ackseq + 1) % 4096)).getD x.sent } else x
    (List.range 6).foldl (fun x c =>
      { x.give c ((retOf f c + 4096 - x.ret.getD c 0) % 4096) with ret := listSet x.ret c (retOf f c) }) x)
  if f.getLsbD 14 then s.portRetrain p else s

/-- A data flit behind a failed one: the receiver discards it unchecked until the failed flit is resent (R43, R432). -/
def Port.unchecked (x : Port) (t : BitVec 32) : Bool :=
  x.failCount != 0 && field t.toNat 19 16 != 0 && field t.toNat 31 20 != x.expect

/-- FORIP_FLIT_RECEIVE (R41, R43): a wire unit arrives at a port that is up. -/
def execForipFlitReceive (p : Nat) (f : Flit) (t : BitVec 32) (s : State) : Res :=
  .next (
    if !s.portUp p ∨ (s.port p).retraining.isSome ∨ (s.port p).unchecked t then s
    else
      let s := s.modPort p (fun x => { x with received := x.received + 1 })
      let seq := field t.toNat 31 20
      let kind := field t.toNat 19 16
      let x := s.port p
      if !unitOk f t then
        let n := if x.failSeq = x.expect then x.failCount + 1 else 1
        let s := s.modPort p (fun x => { x with
          crcErr := satInc 0xFFFF x.crcErr, nak := true, failSeq := x.expect, failCount := n
          bad := (x.bad ++ [x.received]).drop (x.bad.length + 1 - 17) })
        if 3 ≤ n then s.portRetrain p else s
      else if kind = 0 then s.takeControl p f
      else if seq ≠ x.expect then s
      else (s.modPort p (fun x => { x with
          expect := (x.expect + 1) % 4096, nak := false, failCount := 0, sinceControl := x.sinceControl + 1 })).receiveFlit
        p kind f)

/-- LINK_CONTROL_RECEIVE (R42): a good link-control flit arrives at a port that is up. -/
def execLinkControlReceive (p : Nat) (f : Flit) (s : State) : Res :=
  .next (if s.portUp p then s.takeControl p f else s)

/-- The link-control flit that a port's receiver sends (R42). -/
def Port.control (x : Port) : Flit :=
  let ret := ((List.range 6).map (fun c => x.freed.getD c 0 * 2 ^ (16 + 12 * c))).foldl (· + ·) 0
  BitVec.ofNat 512 ((x.expect + 4095) % 4096 + 2 ^ 12 + 2 ^ 13 * b2n x.nak + 2 ^ 14 * b2n (x.request || x.retraining.isSome)
    + ret)

/-- A link-control flit is due: after 32 data flits, after 500 ns, or to return a negative acknowledgement (R42, R43). -/
def State.controlDue (s : State) (p : Nat) : Bool :=
  let x := s.port p
  x.st == .up && (32 ≤ x.sinceControl || x.controlAt + 50 ≤ s.ticks || x.nak)

/-- LINK_CONTROL_SEND (R42). DESIGN CHOICE (log 70): a negative acknowledgement is carried by one link-control flit, and by another
only after a further failure. -/
def execLinkControlSend (p : Nat) (s : State) : Res :=
  .next (
    if !s.portUp p then s
    else s.modPort p (fun x => { x with
      unit := some (x.control, trailer x.control 0 0), sinceControl := 0, controlAt := s.ticks, nak := false }))

/-! ### Retraining and training (R43 to R45) -/

/-- More than 16 CRC failures within 2^20 received flits. -/
def Port.tooManyErrors (x : Port) : Bool := 16 < (x.bad.filter (fun n => x.received < n + 2 ^ 20)).length

/-- FORIP_RATE_RETRAIN (R43). -/
def execForipRateRetrain (p : Nat) (s : State) : Res :=
  .next (if (s.port p).tooManyErrors then s.portRetrain p else s)

/-- FORIP_RETRAIN_END (R43): the lanes found good decide whether the port goes on on both, on one, or goes down; one lane
becomes two only when system software asked for it. -/
def execForipRetrainEnd (p : Nat) (lane0 lane1 : Bool) (s : State) : Res :=
  .next (
    if (s.port p).retraining.isNone then s
    else if !lane0 && !lane1 then s.portDown p
    else s.modPort p (fun x =>
      let both := lane0 && lane1
      { x with
        retraining := none
        request := false
        sent := 0
        oneLane := if both then x.oneLane && !x.request else true
        lane := if both then x.lane else b2n lane1 }))

/-- FPSTAT_RETRAIN (R7, R45): RETRAIN is set, and a port that is up retrains. DESIGN CHOICE (log 66): a port that is down trains
again while ENABLE = 1; in any other state RETRAIN waits for the end of the training under way, or of the next one. -/
def execFpstatRetrain (p : Nat) (s : State) : Res :=
  .next ((s.portRetrain p).modPort p (fun x => { x with
    request := true, st := if s.fab.enable ∧ x.st = .down then .train else x.st }))

/-- The code of a port's state. -/
def PortState.code : PortState → Nat
  | .down => 0 | .train => 1 | .ident => 2 | .up => 3

/-- FPSTAT (R45). -/
def State.fpstat (s : State) (p : Nat) : Nat :=
  let x := s.port p
  x.crcErr * 2 ^ 48 + x.retrains * 2 ^ 40 + x.peerPkg * 2 ^ 27 + x.peerPort * 2 ^ 20 + Assoc.get s.drops p 0 * 2 ^ 8
    + x.st.code * 2 ^ 6 + 8 * b2n x.request + 4 * x.lane + 2 * b2n x.oneLane + b2n (x.st == .down)

/-- FPSTAT_READ (R45): the register is returned and its counts are cleared. -/
def execFpstatRead (p : Nat) (s : State) : Res :=
  .next (
    if 127 < p then s
    else
      let s := s.returnRead (s.fpstat p)
      let s : State := { s with drops := Assoc.put s.drops p 0 }
      s.modPort p (fun x => { x with crcErr := 0, retrains := 0 }))

/-- PORT_TRAIN_COMPLETE (R44): in IDENT the port sends the package id and its own number. -/
def execPortTrainComplete (p : Nat) (s : State) : Res :=
  .next (if s.fab.enable ∧ (s.port p).st = .train then
    s.modPort p (fun x => { x with st := .ident, identSent := some (s.pkgId, p) }) else s)

/-- PORT_IDENT (R43, R44): the training ends, on two lanes again if system software asked for it. -/
def execPortIdent (p peerPkg peerPort : Nat) (s : State) : Res :=
  .next (
    if (s.port p).st = .ident then
      s.modPort p (fun x => { x with
        st := .up, oneLane := x.oneLane && !x.request, request := false, peerPkg := peerPkg % 2 ^ 13, peerPort := peerPort % 128, controlAt := s.ticks })
    else s)

/-- FABCFG_WRITE (R57, R119): MCWAIT above 28 stores 28 and sets CLAMP, PKGID is ignored while ENABLE = 1, and ENABLE holds the
ports down or lets them train. -/
def execFabcfgWrite (v : Word) (s : State) : Res :=
  .next (
    let on := v.getLsbD 13
    let was := s.fab.enable
    let s : State := { s with
      mcwait := min 28 (field v.toNat 44 40)
      pkgId := if was then s.pkgId else field v.toNat 12 0 }
    let s := s.modFab (fun f => { f with enable := on })
    let s := if 28 < field v.toNat 44 40 then s.clamped else s
    if on && !was then
      (List.range 128).foldl (fun s p => s.modPort p (fun x => if x.st = .down then { x with st := .train } else x)) s
    else if was && !on then
      (s.fab.ports.filter (fun p => p.2.st != .down)).foldl (fun s p => s.portDown p.1) s
    else s)

end Sys2Proof.Machine
end

