-- ==== Sys2Proof/Machine/Reduce.lean ====
section
/-!
DEFINITION. In-fabric reductions and barriers (R63 to R78, R82): the group table, a node's inputs and slots, the arithmetic,
and the delivery of results and status.
-/
namespace Sys2Proof.Machine
open Sys2Proof

/-! ### The group table (R65 to R67) -/

/-- A half at reset: TOUT 16, RWAIT 20, BOUND 0xFFFF (R65). -/
def GroupHalf.reset : GroupHalf := ⟨BitVec.ofNat 512 (16 * 2 ^ 4 + 20 * 2 ^ 9 + 0xFFFF * 2 ^ 208), []⟩

/-- The active or the staged half of a group. -/
def State.half (s : State) (g : Nat) (staged : Bool) : GroupHalf :=
  Assoc.get (if staged then s.fab.staged else s.fab.active) g GroupHalf.reset
/-- The state with a half replaced. -/
def State.setHalf (s : State) (g : Nat) (staged : Bool) (h : GroupHalf) : State :=
  s.modFab (fun f => if staged then { f with staged := Assoc.put f.staged g h } else { f with active := Assoc.put f.active g h })
/-- A half with a field of its control block replaced. -/
def GroupHalf.set (h : GroupHalf) (hi lo v : Nat) : GroupHalf := { h with ctl := BitVec.ofNat 512 (setField h.ctl.toNat hi lo v) }

/-- NIN. -/
def GroupHalf.nin (h : GroupHalf) : Nat := h.f 64 56
/-- NRANK. -/
def GroupHalf.nrank (h : GroupHalf) : Nat := h.f 36 24
/-- NSLOT. -/
def GroupHalf.nslot (h : GroupHalf) : Nat := h.f 86 80
/-- VER. -/
def GroupHalf.ver (h : GroupHalf) : Nat := h.f 23 16
/-- BOUND. -/
def GroupHalf.bound (h : GroupHalf) : Nat := h.f 223 208
/-- ROOT. -/
def GroupHalf.root (h : GroupHalf) : Bool := h.ctl.getLsbD 1
/-- An input-map entry. -/
def GroupHalf.entry (h : GroupHalf) (i : Nat) : Nat := (Assoc.get h.map i 0).toNat
/-- The inputs of a half. -/
def GroupHalf.inputs (h : GroupHalf) : List Nat := List.range h.nin
/-- The ranks that input i covers (R64): the first, and the one past the last. -/
def GroupHalf.span (h : GroupHalf) (i : Nat) : Nat × Nat :=
  let lo := h.f 51 40 + i * 2 ^ h.f 55 52
  (lo, min (lo + 2 ^ h.f 55 52) h.nrank)
/-- The ranks that a node covers. -/
def GroupHalf.covered (h : GroupHalf) : Nat := min (h.f 51 40 + h.nin * 2 ^ h.f 55 52) h.nrank - h.f 51 40
/-- PROUTE. -/
def GroupHalf.proute (h : GroupHalf) : List (BitVec 32) :=
  (List.range (h.f 207 205)).map (fun i => BitVec.ofNat 32 (h.f (255 + 32 * i) (224 + 32 * i)))
/-- The input of a core (R66). -/
def GroupHalf.coreInput (h : GroupHalf) (c : Nat) : Option Nat := h.inputs.find? (fun i => h.entry i == c)
/-- The input of a child package (R66). -/
def GroupHalf.childInput (h : GroupHalf) (p : Nat) : Option Nat := h.inputs.find? (fun i => h.entry i == 2 ^ 15 + p)
/-- The child packages of a half. -/
def GroupHalf.children (h : GroupHalf) : List Nat :=
  (h.inputs.filter (fun i => 2 ^ 15 ≤ h.entry i)).map (fun i => h.entry i % 2 ^ 13)
/-- The member cores of a half. -/
def GroupHalf.members (h : GroupHalf) : List Nat := (h.inputs.filter (fun i => h.entry i < 2 ^ 15)).map h.entry

/-- Two ranges of combining entries overlap. -/
def overlaps (a n b m : Nat) : Bool := a < b + m && b < a + n && 0 < n && 0 < m

/-- A range of combining entries meets that of a valid group other than g (R67, R84). -/
def State.groupTakes (s : State) (g : Option Nat) (base n : Nat) : Bool :=
  s.fab.active.any (fun p => some p.1 != g && p.2.ctl.getLsbD 0 && overlaps base n (p.2.f 101 88) (p.2.nslot * p.2.f 73 65))

/-- A range of combining entries meets that of a ring that a condition on its number and RINGCFG picks. -/
def State.ringTakes (s : State) (pick : Nat → Nat → Bool) (base n : Nat) : Bool :=
  s.fab.rings.any (fun p => pick p.1 p.2.toNat && overlaps base n (field p.2.toNat 39 26) (field p.2.toNat 47 40))

/-- What a group's entry range must not meet (R67): another valid group's range, or an enabled ring's. -/
def State.entriesTaken (s : State) (g : Nat) (base n : Nat) : Bool :=
  s.groupTakes (some g) base n || s.ringTakes (fun _ x => field x 55 48 != 0) base n

/-- The reserved bits of a half are zero. -/
def GroupHalf.clean (h : GroupHalf) : Bool :=
  h.f 39 37 == 0 && h.f 79 74 == 0 && h.f 87 87 == 0 && h.f 127 116 == 0 && h.f 159 150 == 0 && h.f 191 182 == 0
    && h.f 511 416 == 0 && h.map.all (fun p => field p.2.toNat 14 13 == 0)

/-- The checks of a write that sets VALID: those that R67 lists, and no other. DESIGN CHOICE (log 68): an ISHIFT above 12
passes them, and so does a RESOFF or STATOFF that is no multiple of a row, which then names the row that holds it. -/
def State.halfOk (s : State) (g : Nat) (staged : Bool) (h : GroupHalf) : Bool :=
  if h.ctl.getLsbD 3 then
    staged && ([0, 3].foldl (fun h b => h.set b b 0) ((h.set 23 16 0).set 223 208 0)).f 13 0 == 0
      && h.f 511 224 == 0 && h.f 207 24 == 0
  else
    let size := bufBytes (h.f 103 102)
    let es := h.inputs.map h.entry
    1 ≤ h.nrank && h.nrank ≤ 4096 && 1 ≤ h.nin && h.nin ≤ 256 && h.nin ≤ h.f 73 65 && h.f 73 65 ≤ 256 && 1 ≤ h.nslot
      && h.nslot ≤ 64 && 10 ≤ h.f 8 4 && h.f 8 4 ≤ 30 && 10 ≤ h.f 13 9 && h.f 51 40 < h.nrank
      && h.f 101 88 + h.nslot * h.f 73 65 ≤ 16384 && !s.entriesTaken g (h.f 101 88) (h.nslot * h.f 73 65)
      && h.f 103 102 != 3
      && h.f 149 128 + 1024 * h.nslot ≤ size && h.f 181 160 + 1024 * h.nslot ≤ size
      && (if h.root then h.f 207 205 == 0
          else 1 ≤ h.f 207 205 && h.f 207 205 ≤ 6 && rtOp (h.proute.getLastD 0) == 2)
      && (h.f 55 52 == 0 || h.members.isEmpty) && es.Nodup && h.members.all (· < 320) && h.clean

/-! ### Arithmetic (R69, R72, R73) -/

/-- The size in bytes of an element of an input or result format. -/
def fmtSize (f : Nat) : Nat := if f = 0 ∨ f = 5 then 4 else if f = 1 ∨ f = 2 then 2 else 1
/-- The size of an accumulation element. -/
def accSize (op ifmt : Nat) : Nat := if ifmt = 5 ∨ op = 1 then 8 else 4

/-- comb (R72) on elements: a value and, for CSUM, an error word. -/
def combine (op ifmt : Nat) (a b : Nat × Nat) : Nat × Nat :=
  let ints (f : Int → Int → Int) : Nat × Nat := (wrap 64 (f (signed 64 a.1) (signed 64 b.1)), 0)
  match op with
  | 0 => if ifmt = 5 then ints (· + ·) else ((f32add a.1 b.1).1, 0)
  | 1 =>
    let ((r, t), _) := twoSum a.1 b.1
    (r, (rne 0 (addVal (addVal (widen 0 a.2) (widen 0 b.2)).1 (widen 0 t)).1).1)
  | 2 => if ifmt = 5 then ints max else (largerOf 0 a.1 b.1, 0)
  | 3 => if ifmt = 5 then ints min else (smallerOf 0 a.1 b.1, 0)
  | 4 => (a.1 &&& b.1, 0)
  | 5 => (a.1 ||| b.1, 0)
  | _ => (a.1 ^^^ b.1, 0)

/-- comb of two inputs, element by element. -/
def combineAll (op ifmt : Nat) (a b : List (Nat × Nat)) : List (Nat × Nat) := (a.zip b).map (fun p => combine op ifmt p.1 p.2)

/-- The elements of a core's contribution (R72). -/
def widenAll (ifmt e : Nat) (bytes : List Byte) : List (Nat × Nat) :=
  let n := fmtSize ifmt
  (List.range e).map (fun i =>
    let x := ofBytes ((bytes.drop (n * i)).take n)
    if ifmt = 5 then (wrap 64 (signed 32 x), 0) else ((rne 0 (widen ifmt x)).1, 0))

/-- The elements of a partial (R69). -/
def partialElems (op ifmt e : Nat) (bytes : List Byte) : List (Nat × Nat) :=
  let n := if ifmt = 5 then 8 else 4
  (List.range e).map (fun i =>
    (ofBytes ((bytes.drop (n * i)).take n), if op = 1 then ofBytes ((bytes.drop (4 * e + 4 * i)).take 4) else 0))

/-- The bytes of a partial. -/
def partialBytes (op ifmt : Nat) (l : List (Nat × Nat)) : List Byte :=
  let n := if ifmt = 5 then 8 else 4
  (l.map (fun p => bytesOf n p.1)).flatten ++ (if op = 1 then (l.map (fun p => bytesOf 4 p.2)).flatten else [])

/-- A result element (R75): rounded once with saturation. -/
def resultElem (op ifmt rfmt : Nat) (p : Nat × Nat) : Nat :=
  if ifmt = 5 then wrap 32 (max (-(2 ^ 31 : Int)) (min (2 ^ 31 - 1 : Int) (signed 64 p.1)))
  else
    let v := if op = 1 then (addVal (widen 0 p.1) (widen 0 p.2)).1 else widen 0 p.1
    (roundTo rfmt true .rne 0 v).1

/-- What R69 and R68 forbid in a REDUCE packet; E is its element count. -/
def reduceBad (op ifmt rfmt e : Nat) (part : Bool) : Bool :=
  5 < ifmt || 5 < rfmt || (6 < op && op < 15) || (op == 1 && ifmt == 5) || ((op == 4 || op == 5 || op == 6) && ifmt != 5)
    || (op == 15 && !part) || (op != 15 && (256 < e || ((ifmt == 5 || op == 1) && 128 < e))) || ((rfmt == 5) != (ifmt == 5))

/-! ### Packets of a node (R68, R71) -/

/-- RSEQ of a group-form DEST. -/
def Packet.rseq (p : Packet) : Nat := field p.dest 21 8
/-- PART. -/
def Packet.part (p : Packet) : Bool := p.dest.testBit 3
/-- PRES. -/
def Packet.pres (p : Packet) : Bool := p.dest.testBit 2

/-- A packet from a node: its group-form DEST has the low bits given. -/
def State.nodePacket (s : State) (pkg g x low cls opc oparg gver status tag : Nat) (payload : List Flit) : Packet :=
  { Packet.new cls opc oparg (fabric pkg 511 0 (x * 2 ^ 8 + low)) s.zSrc x tag payload with
    group := g, gver := gver, status := status }

/-- A packet sent up a node's parent route (R71). -/
def State.sendUp (s : State) (h : GroupHalf) (p : Packet) : State :=
  { s with zin := s.zin ++ [⟨none, none, false, false, p.sealed.withStack h.proute⟩] }

/-- A packet sent through a fan-out set (R75): the node pops the FANOUT entry itself. -/
def State.sendFan (s : State) (set : Nat) (p : Packet) (owner : FanOwner) : State :=
  s.fanOut { p.sealed with hops := 1 } set none owner

/-! ### Status rows (R76, R77) -/

/-- The first 12 bytes of a status row. -/
def statusBytes (code flags x gver kind bound npres nrank : Nat) : List Byte :=
  bytesOf 1 code ++ bytesOf 1 flags ++ bytesOf 2 x ++ bytesOf 1 gver ++ bytesOf 1 kind ++ bytesOf 2 bound ++ bytesOf 2 npres
    ++ bytesOf 2 nrank

/-- A core can be written by the Z die. -/
def State.coreReachable (s : State) (c : Nat) : Bool := c < 320 && s.coresAvail.getLsbD c && s.reach 14 (coreDie c)

/-- Status row +0 of slot k of a group, with the entries that wait for it (R76, R382). -/
def GroupHalf.statusRow (h : GroupHalf) (g k x : Nat) (bytes : List Byte) : ResultRows :=
  ⟨none, bufOfCode (h.f 103 102), [((h.f 181 160 + 1024 * k) / 256, bytes)], some (g, x, bytes)⟩

/-- Rows that the Z die writes into a core join the deliveries that wait there (R239). -/
def State.pushRows (s : State) (c : Nat) (r : ResultRows) : State :=
  s.modCore c (fun k => { k with rx := k.rx ++ [.rows r] })

/-- Status row +0 of slot k for a core. -/
def State.writeStatus (s : State) (h : GroupHalf) (g c k x : Nat) (bytes : List Byte) : State :=
  if s.coreReachable c then s.pushRows c (h.statusRow g k x bytes) else s

/-- A status of a node's own making for a member: STALE_VERSION or MEMBER_UNREACHABLE (R67, R70, R81). DESIGN CHOICE (log 68): the
newest version of a leaving node is that of the half that it keeps. -/
def State.ownStatus (s : State) (h : GroupHalf) (g c k x code kind : Nat) : State :=
  s.writeStatus h g c k x (statusBytes code 0 x h.ver kind h.bound 0 h.nrank)

/-! ### Slots (R70, R71) -/

/-- Slot k of a node. -/
def Node.slot (n : Node) (k : Nat) : RSlot := Assoc.get n.slots k RSlot.reset
/-- The state with a slot replaced. -/
def State.setSlot (s : State) (g k : Nat) (r : RSlot) : State :=
  s.modNode g (fun n => { n with slots := Assoc.put n.slots k r })

/-- A slot freed, its last sequence kept. -/
def RSlot.free (r : RSlot) : RSlot := { RSlot.reset with last := r.last }

/-- The combined inputs of a slot: in tree order the pairing of R73, else the accumulator of R74. -/
def RSlot.result (r : RSlot) (h : GroupHalf) : List (Nat × Nat) :=
  if r.order then r.acc.getD []
  else
    let l := h.inputs.map (fun i => if r.bits.contains i then Assoc.find r.data i else none)
    ((pairing (fun a b => (combineAll r.op r.ifmt a b, 0)) 9 l).1).getD []

/-- The presence bitmap of ranks from a first one. -/
def rankMask (lo : Nat) (ranks : List Nat) : Nat := (ranks.map (fun r => 2 ^ (r - lo))).foldl (· + ·) 0

/-- A node that is not the root sends its partial, with a presence packet when it is incomplete (R71, R82). DESIGN CHOICE (log
68): a slot that closes with no counted data, since every partial in it still awaits its presence packet, sends a partial of
LEN 1 of zeros, and a root likewise such a result. -/
def State.sendPartial (s : State) (g : Nat) (h : GroupHalf) (r : RSlot) (incomplete : Bool) : State :=
  let pkg := h.f 204 192
  let low := r.rfmt * 2 ^ 5 + 2 ^ 4 * b2n r.order + 8 + 4 * b2n incomplete + 2 * b2n r.mism
  if r.barrier then
    s.sendUp h (s.nodePacket pkg g r.x (8 + 4 * b2n incomplete) 4 0x09 0 r.gver 0 0 [])
  else
    let bytes := if r.mism then [] else partialBytes r.op r.ifmt (r.result h)
    let n := if r.mism then 1 else max 1 (ceilDiv bytes.length 64)
    let s := s.sendUp h (s.nodePacket pkg g r.x low 2 0x04 (r.ifmt + 16 * r.op) r.gver 0 0 (flitsOf n bytes))
    if incomplete then
      let n := ceilDiv h.covered 512
      s.sendUp h (s.nodePacket pkg g r.x (low - low / 4 % 2 * 4) 2 0x04 (r.ifmt + 16 * 15) r.gver 0 1
        (flitsOf n (bytesOf (64 * n) (rankMask (h.f 51 40) r.ranks))))
    else s

/-- The root's data phase (R75). -/
def State.sendData (s : State) (g k : Nat) (h : GroupHalf) (r : RSlot) : State :=
  let elems := (r.result h).map (resultElem r.op r.ifmt r.rfmt)
  let bytes := (elems.map (bytesOf (fmtSize r.rfmt))).flatten
  let p := s.nodePacket s.pkgId g r.x (r.rfmt * 2 ^ 5 + 2 ^ 4 * b2n r.order) 2 0x05 0 r.gver 0 0
    (flitsOf (max 1 (ceilDiv bytes.length 64)) bytes)
  s.sendFan (h.f 115 104) p (.data g k r.x)

/-- A node closes slot k (R71). -/
def State.closeSlot (s : State) (g : Nat) (h : GroupHalf) (k : Nat) : State :=
  let r := (s.node g).slot k
  let incomplete := r.incomplete || h.inputs.any (fun i => !r.bits.contains i)
  let shut : RSlot := { r with stage := .wait, last := r.x, since := s.cycle }
  if h.root then
    let s := s.setSlot g k shut
    if r.barrier then
      let code := b2n incomplete
      s.sendFan (h.f 115 104) (s.nodePacket s.pkgId g r.x 0 4 0x0A 0 r.gver (0xC0 + code) 2 []) (.status g k r.x)
    else
      let d : Delivery := ⟨k, r.x, r.gver, r.ranks, h.nrank, r.mism, false, r.mism, false⟩
      let s := s.modNode g (fun n => { n with deliveries := n.deliveries ++ [d] })
      if r.mism then s else s.sendData g k h r
  else
    let s := s.sendPartial g h r incomplete
    s.setSlot g k (if h.isLeaf then shut else shut.free)

/-- Slot k closes when every input's bit is set. -/
def State.maybeClose (s : State) (g : Nat) (h : GroupHalf) (k : Nat) : State :=
  if h.inputs.all ((s.node g).slot k).bits.contains then s.closeSlot g h k else s

/-- What an input brings: its index, the core if it is one, and its fields. -/
structure Input where
  ix : Nat
  core : Option Nat
  barrier : Bool
  op : Nat
  ifmt : Nat
  rfmt : Nat
  order : Bool
  e : Nat
  gver : Nat
  mism : Bool
  pres : Bool
  data : List (Nat × Nat)

/-- The fields of an input agree with what the slot recorded (R70). DESIGN CHOICE (log 68): a REDUCE that meets a slot opened by
a BARRIER_ARRIVE, or the reverse, differs from it and sets MISM. -/
def RSlot.agrees (r : RSlot) (i : Input) : Bool :=
  r.barrier == i.barrier && (i.barrier || (r.op == i.op && r.ifmt == i.ifmt && r.rfmt == i.rfmt && r.order == i.order
    && r.e == i.e))

/-- An input counts: its bit is set and, in arrival order, it is combined (R74). -/
def RSlot.count (r : RSlot) (ix : Nat) (ranks : List Nat) : RSlot :=
  let d := Assoc.find r.data ix
  { r with
    bits := setInsert r.bits ix
    ranks := ranks.foldl setInsert r.ranks
    awaiting := r.awaiting.filter (· != ix)
    acc := match d, r.acc with
      | some d, some a => some (combineAll r.op r.ifmt a d)
      | some d, none => some d
      | none, a => a }

/-- An open slot takes an input for its sequence (R70). -/
def RSlot.take (r : RSlot) (h : GroupHalf) (i : Input) : RSlot :=
  let r := { r with cores := match i.core with
    | some c => setInsert r.cores c
    | none => r.cores }
  let (lo, hi) := h.span i.ix
  let all := (List.range (hi - lo)).map (lo + ·)
  let differ := !r.agrees i || i.mism
  let r := if differ then { r with mism := true } else if i.barrier then r
    else { r with data := Assoc.put r.data i.ix i.data }
  (
    if i.pres && !i.barrier then { r with awaiting := setInsert r.awaiting i.ix, incomplete := true }
    else { r.count i.ix all with incomplete := r.incomplete || i.pres })

/-- A slot opened by an input (R70). -/
def openSlot (x last cycle : Nat) (i : Input) : RSlot :=
  { RSlot.reset with
    stage := .opened, x := x, last := last, since := cycle, barrier := i.barrier, op := i.op, ifmt := i.ifmt
    rfmt := i.rfmt, order := i.order, e := i.e, gver := i.gver }

/-- An input for sequence x reaches its slot (R70). -/
def State.slotInput (s : State) (z : ZPacket) (g : Nat) (h : GroupHalf) (x : Nat) (i : Input) : State :=
  let k := x % h.nslot
  let r := (s.node g).slot k
  let opened (s : State) : State := s.modNode g (fun n => { n with newest := some (match n.newest with
    | some y => if newer x y then x else y
    | none => x) })
  match r.stage with
  | .free =>
    if newer x r.last then
      (opened (s.setSlot g k ((openSlot x r.last s.cycle i).take h i))).maybeClose g h k
    else s.discard z 0x89
  | .opened =>
    if x = r.x then
      if r.bits.contains i.ix || r.awaiting.contains i.ix then s
      else if i.core.isNone && i.gver != r.gver then s.discard z 0x87
      else (s.setSlot g k (r.take h i)).maybeClose g h k
    else s.discard z (if newer x r.x then 0x88 else 0x89)
  | .wait => s.discard z (if newer x r.last then 0x88 else 0x89)

/-- A presence packet for an input whose partial awaits it (R70, R71). It opens no slot: DESIGN CHOICE (log 68), where its
sequence is newer than what the slot holds or last closed it is refused with SLOT_BUSY, as its partial was. -/
def State.takePresence (s : State) (z : ZPacket) (g : Nat) (h : GroupHalf) (x ix : Nat) : State :=
  let k := x % h.nslot
  let r := (s.node g).slot k
  if r.stage = .opened ∧ x = r.x then
    if !r.awaiting.contains ix then s
    else
      let bits := ofBytes z.pkt.bytes
      let lo := (h.span ix).1
      let ranks := (setBits (512 * z.pkt.len) bits).map (lo + ·)
      (s.setSlot g k (r.count ix (ranks.filter (· < h.nrank)))).maybeClose g h k
  else s.discard z (if newer x (if r.stage = .opened then r.x else r.last) then 0x88 else 0x89)

/-- The version that a node expects of a core's contribution for sequence x (R81): VER, or for sequences older than the
boundary the one before it; a leaving node expects none from the boundary on. -/
def State.versionOk (s : State) (g : Nat) (h : GroupHalf) (x gver : Nat) : Bool :=
  if h.bound = 0xFFFF then gver == h.ver
  else if (s.node g).leaving then newer h.bound x && gver == h.ver
  else if newer h.bound x then (gver + 1) % 256 == h.ver
  else gver == h.ver

/-- The input of a half that a packet comes from, and the core if it is one (R66). -/
def State.inputOf (s : State) (h : GroupHalf) (p : Packet) : Option (Nat × Option Nat) :=
  if Packet.part p then (h.childInput (srcPkg p.src)).map (·, none)
  else if srcPkg p.src = s.pkgId then (h.coreInput (srcCore p.src)).map (·, some (srcCore p.src)) else none

/-- A reserved DEST bit that is not zero refuses a packet of a group, and so does a group without a node (R68). -/
def State.groupRefusal (s : State) (p : Packet) : Option Nat :=
  if p.dest.testBit 0 then some 0x81 else if (s.group p.group).isNone then some 0x87 else none

/-- A node opens no slot for sequence x: it has answered PREPARE, or it leaves and x is not older than the boundary (R79). DESIGN
CHOICE (log 68): it counts as having answered from PREPARE's arrival, where it stops opening sequences. -/
def State.shutFor (s : State) (g : Nat) (h : GroupHalf) (x : Nat) (r : RSlot) : Bool :=
  let n := s.node g
  (n.stopped && !(r.stage == .opened && r.x == x) && newer x r.last) || (n.leaving && !newer h.bound x)

/-- An input of a group's node: its group, input and version are checked, then its slot takes it (R68, R70, R81). -/
def State.nodeInput (s : State) (z : ZPacket) (mk : GroupHalf → Nat → Option Nat → Input) : State :=
  let p := z.pkt
  let x := Packet.rseq p
  match s.groupRefusal p, s.group p.group with
  | some code, _ => s.discard z code
  | none, none => s
  | none, some h0 =>
      let h := s.halfFor p.group h0 x
      match s.inputOf h p with
      | none => s.discard z 0x87
      | some (ix, core) =>
        let k := x % h.nslot
        let r := (s.node p.group).slot k
        match core with
        | some c =>
          if !s.versionOk p.group h0 x p.gver || s.shutFor p.group h0 x r then
            s.ownStatus h0 p.group c k x 2 (b2n (p.opc == 0x09))
          else s.slotInput z p.group h x (mk h ix core)
        | none =>
          if p.opc = 0x04 ∧ p.oparg / 16 = 15 then s.takePresence z p.group h x ix
          else if s.shutFor p.group h0 x r && (r.stage == .free || (s.node p.group).leaving) then s.discard z 0x87
          else s.slotInput z p.group h x (mk h ix core)

/-- A packet of the flow of packet i was handed over before it. -/
def State.handedBehind (s : State) (i : Nat) (z : ZPacket) : Bool :=
  (s.fab.handed.take i).any (fun y => Packet.flow y.pkt == Packet.flow z.pkt)

/-- The slot and input that a contribution handed over is for: its group and sequence, and the input's index. -/
def State.inputKey (s : State) (z : ZPacket) : Option (Nat × Nat × Nat) :=
  let p := z.pkt
  if p.opc ≠ 0x04 ∧ p.opc ≠ 0x09 then none
  else match s.group p.group with
    | none => none
    | some h => (s.inputOf (s.halfFor p.group h (Packet.rseq p)) p).map (fun q => (p.group, Packet.rseq p, q.1))

/-- An input of lower index for the same slot has been handed over and can be taken: it goes first (R74). -/
def State.inputBehind (s : State) (z : ZPacket) : Bool :=
  match s.inputKey z with
  | none => false
  | some (g, x, ix) => ((List.range s.fab.handed.length).zip s.fab.handed).any (fun q =>
      !s.handedBehind q.1 q.2 && (match s.inputKey q.2 with
        | some (g', x', ix') => g' == g && x' == x && decide (ix' < ix)
        | none => false))

/-- Packet i handed to a Z-die resource, of an operation given, when its turn has come: packets of a flow are taken in their
order, and the inputs of a slot that arrived in one cycle by ascending index (R74). -/
def State.handedAt (s : State) (i opc : Nat) : Option ZPacket :=
  match s.fab.handed[i]? with
  | none => none
  | some z => if z.pkt.opc ≠ opc || s.handedBehind i z || s.inputBehind z then none else some z

/-- A packet leaves the packets handed over. -/
def State.dropHanded (s : State) (i : Nat) : State := s.modFab (fun f => { f with handed := f.handed.eraseIdx i })

/-- REDUCE (R68 to R74, R81). -/
def execReduce (i : Nat) (s : State) : Res :=
  .next (match s.handedAt i 0x04 with
    | none => s
    | some z =>
      let s := s.dropHanded i
      let p := z.pkt
      let op := p.oparg / 16
      let ifmt := p.oparg % 16
      let rfmt := field p.dest 7 5
      let part := Packet.part p
      let mism := part && p.dest.testBit 1
      let e := p.len * 64 / (if part then accSize op ifmt else fmtSize ifmt)
      if reduceBad op ifmt rfmt (if mism then 0 else e) part then s.discard z 0x81
      else s.nodeInput z (fun _ ix core =>
        { ix := ix, core := core, barrier := false, op := op, ifmt := ifmt, rfmt := rfmt, order := p.dest.testBit 4, e := e
          gver := p.gver, mism := mism, pres := Packet.pres p
          data := if part then partialElems op ifmt e p.bytes else widenAll ifmt e p.bytes }))

/-- BARRIER_ARRIVE (R82): an input without data. -/
def execBarrierArrive (i : Nat) (s : State) : Res :=
  .next (match s.handedAt i 0x09 with
    | none => s
    | some z =>
      let p := z.pkt
      (s.dropHanded i).nodeInput z (fun _ ix core =>
        { ix := ix, core := core, barrier := true, op := 0, ifmt := 0, rfmt := 0, order := false, e := 0, gver := p.gver
          mism := false, pres := Packet.pres p, data := [] }))

/-- SLOT_TIMEOUT (R70): a slot open for 2^TOUT cycles closes. -/
def State.slotLate (s : State) (g k : Nat) : Bool :=
  match s.group g with
  | none => false
  | some h =>
    let r := (s.node g).slot k
    r.stage == .opened && r.since + 2 ^ (s.halfFor g h r.x).f 8 4 ≤ s.cycle

/-- SLOT_TIMEOUT (R70). -/
def execSlotTimeout (g k : Nat) (s : State) : Res :=
  .next (match s.group g with
    | none => s
    | some h => if s.slotLate g k then s.closeSlot g (s.halfFor g h ((s.node g).slot k).x) k else s)

/-! ### Delivery (R75, R76, R82) -/

/-- The cores of a fan-out copy's set (R75). -/
def State.fanCores (s : State) (z : ZPacket) : List Nat :=
  match z.fan.bind (fun q => s.fab.fans.find? (fun f => f.id == q.1)) with
  | some f => setBits 320 (field (s.fanSet f.set) 447 128)
  | none => []

/-- The slot of a leaf, or of the root, that waits for the sequence of a result, with the half it runs under. -/
def State.awaits (s : State) (p : Packet) : Option (GroupHalf × Nat) :=
  match s.group p.group with
  | none => none
  | some h0 =>
    let h := s.halfFor p.group h0 (Packet.rseq p)
    let k := Packet.rseq p % h.nslot
    let r := (s.node p.group).slot k
    if r.stage = .wait ∧ r.x = Packet.rseq p ∧ (h.isLeaf || h.root) then some (h, k) else none

/-- A leaf's slot freed by the status phase; the slot of a root that is no leaf waits for the acknowledgement (R71). -/
def State.freeLeaf (s : State) (g : Nat) (h : GroupHalf) (k : Nat) : State :=
  if h.isLeaf then s.setSlot g k ((s.node g).slot k).free else s

/-- The first failure among the cores to be written. -/
def State.deliveryFault (s : State) (cores : List Nat) : Nat :=
  match cores.find? (fun c => !s.coreReachable c) with
  | none => 0
  | some c => if s.reach 14 (coreDie c) then 0x86 else 0x8F

/-- The rows of a result handed to the reachable cores of its set, which write them in the order of their deliveries; the result
is acknowledged when all of them are written (R75, R76, R239). -/
def State.handRows (s : State) (z : ZPacket) (cores : List Nat) (rows : Nat → ResultRows) : State :=
  let status := s.deliveryFault cores
  let ok := cores.filter s.coreReachable
  if ok.isEmpty then s.ackHanded z status
  else
    let id := s.fab.nextResult
    let s := s.modFab (fun f => { f with nextResult := id + 1, results := f.results ++ [⟨id, z, status, ok⟩] })
    ok.foldl (fun s c => s.pushRows c { rows c with batch := some id }) s

/-- The rows of a data phase for slot k (R75). -/
def GroupHalf.dataRows (h : GroupHalf) (k : Nat) (p : Packet) : ResultRows :=
  let r := (h.f 149 128 + 1024 * k) / 256
  ⟨none, bufOfCode (h.f 103 102), (List.range (ceilDiv p.len 4)).map (fun j => (r + j, bytesOf 256 (p.rowAt j).toNat)), none⟩

/-- What refuses a REDUCE_RESULT: what refuses any packet of a group, and, DESIGN CHOICE (log 68), an OPARG that names no phase. -/
def State.resultRefusal (s : State) (p : Packet) : Option Nat := if 1 < p.oparg then some 0x81 else s.groupRefusal p

/-- REDUCE_RESULT_DATA (R75, R70): the result rows go whole to every local member of the set. One that is not awaited is
acknowledged with 0x89 and counted as a drop (R429). -/
def execReduceResultData (i : Nat) (s : State) : Res :=
  .next (match s.handedAt i 0x05 with
    | none => s
    | some z =>
      let p := z.pkt
      if p.oparg = 1 then s
      else match s.resultRefusal p, s.awaits p with
        | some code, _ => (s.dropHanded i).discard z code
        | none, none => ((s.dropHanded i).ackHanded z 0x89).countDrop z.port
        | none, some (h, k) => (s.dropHanded i).handRows z (s.fanCores z) (fun _ => h.dataRows k p))

/-- The summary of a root's delivery (R76). -/
def Delivery.summary (d : Delivery) (bound : Nat) : List Byte :=
  let code := if d.mism then 4 else if (List.range d.nrank).all d.ranks.contains then 0 else 1
  statusBytes code (b2n d.unreach) d.x d.gver 0 bound d.ranks.length d.nrank

/-- STATUS_PHASE_SEND (R76). -/
def execStatusPhaseSend (g k : Nat) (s : State) : Res :=
  .next (match s.group g, (s.node g).deliveries.find? (fun d => d.slot == k && d.acked && !d.sent) with
    | some h0, some d =>
      let h := s.halfFor g h0 d.x
      let sum := d.summary h0.bound
      let n := ceilDiv d.nrank 512
      let status := 0xC0 + (sum.headD 0).toNat + 8 * b2n d.unreach
      let payload := flitsOf 1 sum ++ flitsOf n (bytesOf (64 * n) (rankMask 0 d.ranks))
      let s := s.modNode g (fun m => { m with deliveries := m.deliveries.map (fun e =>
        if e.slot = k ∧ e.x = d.x then { e with sent := true } else e) })
      s.sendFan (h.f 115 104) (s.nodePacket s.pkgId g d.x 0 2 0x05 1 d.gver status 1 payload) (.status g k d.x)
    | _, _ => s)

/-- The status rows of a member (R76, R77): the leaf chooses between codes 1 and 5 by the member's rank. DESIGN CHOICE (log
68): BOUND in a member's row is that of the node that delivers it, not the one in the root's summary. -/
def memberRows (h : GroupHalf) (c : Nat) (p : Packet) (bound : Nat) : List Byte × List Byte × List Byte :=
  let sum := bytesOf 64 (p.payload.getD 0 0).toNat
  let bits := ofBytes (p.bytes.drop 64)
  let code := (sum.headD 0).toNat
  let code := match h.coreInput c with
    | some i => if code = 1 ∧ !bits.testBit (h.f 51 40 + i) then 5 else code
    | none => code
  let row0 := bytesOf 1 code ++ (sum.drop 1).take 5 ++ bytesOf 2 bound ++ (sum.drop 8).take 4
  (row0, bytesOf 256 (bits % 2 ^ 2048), bytesOf 256 (bits / 2 ^ 2048))

/-- The rows of a status phase for a member (R76, R77). -/
def GroupHalf.statusRows (h : GroupHalf) (k c : Nat) (p : Packet) (bound : Nat) : ResultRows :=
  let r := (h.f 181 160 + 1024 * k) / 256
  let (a, u, v) := memberRows h c p bound
  ⟨none, bufOfCode (h.f 103 102), [(r, a), (r + 1, u), (r + 2, v)], some (p.group, Packet.rseq p, a)⟩

/-- REDUCE_RESULT_STATUS (R76, R77, R382): three status rows go to every local member, whose waiting entries they complete, and
the slot is free. One that is not awaited is acknowledged with STATUS 0 and counted as a drop (R70, R429). -/
def execReduceResultStatus (i : Nat) (s : State) : Res :=
  .next (match s.handedAt i 0x05 with
    | none => s
    | some z =>
      let p := z.pkt
      if p.oparg ≠ 1 then s
      else match s.groupRefusal p, s.awaits p, s.group p.group with
        | some code, _, _ => (s.dropHanded i).discard z code
        | none, some (h, k), some h0 =>
          ((s.freeLeaf p.group h k).dropHanded i).handRows z (s.fanCores z) (fun c => h.statusRows k c p h0.bound)
        | none, _, _ => ((s.dropHanded i).ackHanded z 0).countDrop z.port)

/-- A leaf has waited 2^RWAIT cycles for its result (R70). -/
def State.resultLate (s : State) (g k : Nat) : Bool :=
  match s.group g with
  | none => false
  | some h0 =>
    let r := (s.node g).slot k
    let h := s.halfFor g h0 r.x
    r.stage == .wait && h.isLeaf && r.since + 2 ^ h.f 13 9 ≤ s.cycle

/-- MEMBER_UNREACHABLE to the local members that contributed to a slot (R67, R70). -/
def State.unreachableStatus (s : State) (h : GroupHalf) (g k : Nat) (r : RSlot) : State :=
  r.cores.foldl (fun s c => s.ownStatus h g c k r.x 3 (b2n r.barrier)) s

/-- RESULT_WAIT_TIMEOUT (R70). -/
def execResultWaitTimeout (g k : Nat) (s : State) : Res :=
  .next (match s.group g with
    | none => s
    | some h0 =>
      if !s.resultLate g k then s
      else
        let r := (s.node g).slot k
        (s.unreachableStatus (s.halfFor g h0 r.x) g k r).setSlot g k r.free)

/-- BARRIER_RELEASE (R82): status row +0 with KIND 1 goes to every local member, and the slot is free. DESIGN CHOICE (log 68):
one that is not awaited is acknowledged with 0x89, as R429 has it for a result's data phase, and counted as a drop. -/
def execBarrierRelease (i : Nat) (s : State) : Res :=
  .next (match s.handedAt i 0x0A with
    | none => s
    | some z =>
      let p := z.pkt
      let x := Packet.rseq p
      match s.groupRefusal p, s.awaits p, s.group p.group with
      | some code, _, _ => (s.dropHanded i).discard z code
      | none, some (h, k), some h0 =>
        let row := statusBytes (p.status % 8) 0 x p.gver 1 h0.bound 0 h.nrank
        ((s.freeLeaf p.group h k).dropHanded i).handRows z (s.fanCores z) (fun _ => h.statusRow p.group k x row)
      | none, _, _ => ((s.dropHanded i).ackHanded z 0x89).countDrop z.port)

/-! ### Group writes (R67) -/

/-- A half with word 0's writable fields other than VALID replaced by those of a value; VER only while VALID = 0. -/
def GroupHalf.writeWord0 (h : GroupHalf) (v : Nat) : GroupHalf :=
  (if h.ctl.getLsbD 0 then h else h.set 23 16 (field v 23 16)) |> fun h =>
  [(1, 1), (2, 2), (3, 3), (8, 4), (13, 9), (36, 24), (51, 40), (55, 52), (63, 56)].foldl
    (fun h (p : Nat × Nat) => h.set p.1 p.2 (field v p.1 p.2)) h

/-- A root's round has been committed and its commit is not yet acknowledged (R79 step 9). -/
def Node.committing (n : Node) : Bool := n.round.any (fun r => r.proposer && r.committed)

/-- A node without slots, deliveries or a round, but for a round that it has committed as the root. -/
def Node.cleared (n : Node) : Node := { Node.reset with round := if n.committing then n.round else none }

/-- GROUP_VALID_WRITE (R67): a write that sets VALID checks the half; a valid active half ignores it. -/
def execGroupValidWrite (g : Nat) (staged : Bool) (v : Word) (s : State) : Res :=
  .next (
    let h := s.half g staged
    if 4095 < g then s
    else if !staged && h.ctl.getLsbD 0 then s.refuseCfg
    else
      let h := (h.writeWord0 v.toNat).set 0 0 0
      if !v.getLsbD 0 then s.setHalf g staged h
      else if !s.halfOk g staged h then (s.setHalf g staged h).refuseCfg
      else if staged then s.setHalf g staged (h.set 0 0 1)
      else (s.setHalf g staged ((h.set 0 0 1).set 223 208 0xFFFF)).modNode g Node.cleared)

/-- The node of a group deleted (R67): its open and waiting slots are dropped, with MEMBER_UNREACHABLE to their local
contributors. DESIGN CHOICE (log 68): a round that its root has not committed ends with it, with PROPOSE and AGR 0; the
acknowledgements of a committed one still end it with AGR 3. -/
def State.deleteNode (s : State) (g : Nat) : State :=
  match s.group g with
  | none => s
  | some h0 =>
    let live := (s.node g).slots.filter (fun p => p.2.stage != .free)
    let s := live.foldl (fun s p => s.unreachableStatus (s.halfFor g h0 p.2.x) g p.1 p.2) s
    let h := h0.set 0 0 0
    let h := if h0.f 15 14 = 1 && !(s.node g).committing then (h.set 2 2 0).set 15 14 0 else h
    (s.setHalf g false h).modNode g Node.cleared

/-- GROUP_DELETE (R67): VALID := 0 in the active half. -/
def execGroupDelete (g : Nat) (s : State) : Res := .next (s.deleteNode g)

end Sys2Proof.Machine
end

