-- ==== Sys2Proof/Machine/Agree.lean ====
section
/-!
DEFINITION. Elastic membership (R79 to R81): the agreement round of a group.
-/
namespace Sys2Proof.Machine
open Sys2Proof

/-- The staged half of a group, when it is present. -/
def State.stagedHalf (s : State) (g : Nat) : Option GroupHalf :=
  let h := s.half g true
  if h.ctl.getLsbD 0 then some h else none

/-- A half that leaves the group. -/
def GroupHalf.leaves (h : GroupHalf) : Bool := h.ctl.getLsbD 3

/-- The staged half that matches a proposed version (R79 step 4). -/
def State.matching (s : State) (g ver : Nat) : Option GroupHalf :=
  match s.stagedHalf g with
  | none => none
  | some n =>
    if n.ver ≠ ver then none
    else match s.group g with
      | none => if n.leaves then none else some n
      | some h =>
        if n.leaves || (n.f 101 88 == h.f 101 88 && n.nslot == h.nslot && n.f 73 65 == h.f 73 65) then some n else none

/-- An AGREE packet (R80): its step, version, boundary and newest sequence; `tag` tells apart the packets of a round. -/
def State.agreePacket (s : State) (pkg g step ver b newest tag : Nat) : Packet :=
  s.nodePacket pkg g 0 0 4 0x0B 0 0 0 (16 * tag + step) (flitsOf 1 (bytesOf 1 step ++ bytesOf 1 ver ++ bytesOf 2 b ++ bytesOf 2 newest))

/-- An AGREE step sent through the fan-out sets of the active and the staged half, once when they are the same (R79). -/
def State.agreeFans (s : State) (g : Nat) (sets : List Nat) (step ver b : Nat) (owner : FanOwner) : State :=
  let send (s : State) (tag set : Nat) : State := s.sendFan set (s.agreePacket s.pkgId g step ver b 0 tag) owner
  match sets with
  | [] => s
  | [a] => send s 1 a
  | a :: c :: _ => if a = c then send s 1 a else send (send s 1 a) 2 c

/-- The fan-out sets of a round at the root. -/
def State.roundSets (s : State) (g : Nat) : List Nat :=
  ((s.group g).map (fun h => h.f 115 104)).toList ++ ((s.stagedHalf g).map (fun h => h.f 115 104)).toList

/-- The children whose READY a node waits for: those that both its halves list (R79 step 4). -/
def State.awaited (s : State) (g : Nat) (n : GroupHalf) : List Nat :=
  match s.group g with
  | none => []
  | some h => h.children.filter n.children.contains

/-- The newer of two sequences, if any. -/
def newestOf (a b : Option Nat) : Option Nat :=
  match a, b with
  | some x, some y => some (if newer y x then y else x)
  | some x, none => some x
  | none, y => y

/-- A round at a node that has seen COMMIT: the proposer keeps it until its fan-outs are acknowledged. -/
def Round.commit (r : Round) : Option Round := if r.proposer then some { r with committed := true } else none

/-- The halves under which slots of a node may still finish after a COMMIT with boundary b: the one that it replaces, and earlier
ones under which a slot is still in use (R79 step 7). -/
def Node.outgoing (m : Node) (b : Nat) (h : GroupHalf) : List (Nat × GroupHalf) :=
  m.old.filter (fun p => m.slots.any (fun q => q.2.stage != .free && newer p.1 q.2.x)) ++ [(b, h)]

/-- A node installs its staged half on COMMIT (R79 step 7), or starts to leave (step 8). DESIGN CHOICE (log 68): in the slots of a
node that joins, LAST is the sequence before the boundary. -/
def State.install (s : State) (g : Nat) (n : GroupHalf) (b : Nat) : State :=
  match s.group g with
  | some h =>
    if n.leaves then
      ((s.setHalf g false (h.set 223 208 b)).setHalf g true (n.set 0 0 0)).modNode g
        (fun m => { m with
          leaving := true, stopped := false, round := m.round.bind Round.commit })
    else
      let n' := ((n.set 223 208 b).set 15 14 (h.f 15 14)).set 2 2 (h.f 2 2)
      ((s.setHalf g false n').setHalf g true (n.set 0 0 0)).modNode g
        (fun m => { m with old := m.outgoing b h, stopped := false, round := m.round.bind Round.commit })
  | none =>
    let last := (b + 16383) % 16384
    let slots : Assoc RSlot := (List.range n.nslot).map (fun k => (k, { RSlot.reset with last := last }))
    ((s.setHalf g false ((n.set 223 208 b).set 2 2 0)).setHalf g true (n.set 0 0 0)).modNode g
      (fun _ => { Node.reset with slots := slots })

/-- A round of a version at a node that has heard of it. -/
def Round.fresh (ver since : Nat) : Round := ⟨ver, since, [], none, false, false, false, []⟩

/-- A stopped node whose children are ready sends READY up, or, at the root that proposed the round, fixes the boundary and
sends COMMIT (R79). DESIGN CHOICE (log 68): a node that has opened no sequence reports 16,383, the LAST of its slots. -/
def State.maybeReady (s : State) (g : Nat) : State :=
  match s.group g, (s.node g).round with
  | some h, some r =>
    match s.matching g r.ver with
    | none => s
    | some n =>
      if !(s.node g).stopped || r.answered || !(s.awaited g n).all r.ready.contains then s
      else
        let newest := ((newestOf (s.node g).newest r.newest).getD 16383)
        let s := s.modNode g (fun m => { m with round := some { r with answered := true } })
        if r.proposer then
          let b := (newest + 1) % 16384
          let sets := s.roundSets g
          (s.install g n b).agreeFans g sets 3 r.ver b (.commit g)
        else if h.root then s
        else s.sendUp h (s.agreePacket (h.f 204 192) g 2 r.ver 0 newest 0)
  | _, _ => s

/-- A node that holds a matching staged half stops opening sequences for a proposed version. -/
def State.prepare (s : State) (g ver : Nat) : State :=
  match s.group g, s.matching g ver with
  | some _, some _ =>
    let s := s.modNode g (fun m => { m with
      stopped := true
      round := some (match m.round with
        | some r => if r.ver = ver then r else .fresh ver s.cycle
        | none => .fresh ver s.cycle) })
    s.maybeReady g
  | _, _ => s

/-- GROUP_PROPOSE (R67, R79): PROPOSE := 1 in the active half of a root starts a round. -/
def execGroupPropose (g : Nat) (s : State) : Res :=
  .next (match s.group g with
    | none => s.refuseCfg
    | some h =>
      if !h.root then s.refuseCfg
      else if h.f 2 2 = 1 then s
      else
        let ver := (h.ver + 1) % 256
        let s := s.setHalf g false ((h.set 2 2 1).set 15 14 1)
        let sets := s.roundSets g
        let s := s.modNode g (fun m => { m with round := some { Round.fresh ver s.cycle with proposer := true, sets := sets } })
        (s.agreeFans g sets 1 ver 0 (.agree g)).prepare g ver)

/-- A byte of an AGREE payload. -/
def Packet.agreeByte (p : Packet) (i : Nat) : Nat := field (p.payload.getD 0 0).toNat (8 * i + 7) (8 * i)
/-- STEP, or 0 for an AGREE of LEN 0 (R80). -/
def Packet.step (p : Packet) : Nat := if p.len = 0 then 0 else Packet.agreeByte p 0
/-- B of an AGREE packet. -/
def Packet.agreeB (p : Packet) : Nat := Packet.agreeByte p 2 + 256 * Packet.agreeByte p 3
/-- The newest sequence of an AGREE packet. -/
def Packet.agreeNewest (p : Packet) : Nat := Packet.agreeByte p 4 + 256 * Packet.agreeByte p 5

/-- Packet i handed over, if it is an AGREE of a step. -/
def State.agreeAt (s : State) (i step : Nat) : Option ZPacket :=
  (s.handedAt i 0x0B).bind (fun z => if Packet.step z.pkt = step then some z else none)

/-- What refuses an AGREE packet (R68): a reserved DEST bit, or a group with neither an active half nor a staged one that would
join it. -/
def State.agreeRefusal (s : State) (p : Packet) : Option Nat :=
  if p.dest.testBit 0 then some 0x81
  else if (s.group p.group).isNone && (s.stagedHalf p.group).isNone then some 0x87 else none

/-- AGREE_PREPARE (R79 step 4). -/
def execAgreePrepare (i : Nat) (s : State) : Res :=
  .next (match s.agreeAt i 1 with
    | none => s
    | some z =>
      let g := z.pkt.group
      let s := s.dropHanded i
      match s.agreeRefusal z.pkt with
      | some code => s.discard z code
      | none =>
        let s := s.modNode g (fun m => { m with refused := none })
        (s.prepare g (Packet.agreeByte z.pkt 1)).ackHanded z 0)

/-- AGREE_READY (R79 steps 4 and 5). DESIGN CHOICE (log 68): a READY of another version than V + 1 is dropped with a drop count. -/
def execAgreeReady (i : Nat) (s : State) : Res :=
  .next (match s.agreeAt i 2 with
    | none => s
    | some z =>
      let p := z.pkt
      let g := p.group
      let s := s.dropHanded i
      match s.groupRefusal p, s.group g with
      | some code, _ => s.discard z code
      | none, none => s
      | none, some h =>
        let child := srcPkg p.src
        let ver := Packet.agreeByte p 1
        if (h.childInput child).isNone then s.discard z 0x87
        else if ver ≠ (h.ver + 1) % 256 then s.countDrop z.port
        else
          let s := s.modNode g (fun m =>
            let r := match m.round with
              | some r => if r.ver = ver then r else .fresh ver s.cycle
              | none => .fresh ver s.cycle
            { m with round := some { r with
              ready := setInsert r.ready child, newest := newestOf r.newest (some (Packet.agreeNewest p)) } })
          s.maybeReady g)

/-- AGREE_COMMIT (R79 steps 6 to 8): the first copy acts. -/
def execAgreeCommit (i : Nat) (s : State) : Res :=
  .next (match s.agreeAt i 3 with
    | none => s
    | some z =>
      let p := z.pkt
      let g := p.group
      let ver := Packet.agreeByte p 1
      let b := Packet.agreeB p
      let s := s.dropHanded i
      let seen := (s.group g).any (fun h => h.bound == b && (h.ver == ver || (s.node g).leaving))
        || (s.node g).refused == some (ver, b)
      match s.agreeRefusal p with
      | some code => s.discard z code
      | none =>
        if seen then s.ackHanded z 0
        else match s.matching g ver with
          | some n => (s.install g n b).ackHanded z 0
          | none => ((s.logEvent 14 0x87 g).modNode g (fun m => { m with refused := some (ver, b) })).ackHanded z 0)

/-- A round given up at a node: its staged half goes and it opens sequences again (R79). -/
def State.abandon (s : State) (g : Nat) : State :=
  (s.setHalf g true ((s.half g true).set 0 0 0)).modNode g (fun m => { m with stopped := false, round := none })

/-- AGREE_ABORT (R79). -/
def execAgreeAbort (i : Nat) (s : State) : Res :=
  .next (match s.agreeAt i 4 with
    | none => s
    | some z =>
      let s := s.dropHanded i
      match s.agreeRefusal z.pkt with
      | some code => s.discard z code
      | none => (s.abandon z.pkt.group).ackHanded z 0)

/-- AGREE_INVALID_STEP (R80). -/
def execAgreeInvalidStep (i : Nat) (s : State) : Res :=
  .next (match s.handedAt i 0x0B with
    | none => s
    | some z =>
      if 1 ≤ Packet.step z.pkt ∧ Packet.step z.pkt ≤ 4 then s
      else if z.pkt.dest.testBit 0 then (s.dropHanded i).discard z 0x81
      else (s.dropHanded i).countDrop z.port)

/-- A root's round is past its deadline. -/
def State.roundLate (s : State) (g : Nat) : Bool :=
  match s.group g, (s.node g).round with
  | some h, some r => r.proposer && !r.committed && r.since + 2 ^ h.f 8 4 ≤ s.cycle
  | _, _ => false

/-- AGREE_DEADLINE (R79): ABORT through the sets of PREPARE, and AGR := 2. -/
def execAgreeDeadline (g : Nat) (s : State) : Res :=
  .next (match s.group g, (s.node g).round with
    | some h, some r =>
      if !s.roundLate g then s
      else
        let s := s.setHalf g false ((h.set 2 2 0).set 15 14 2)
        (s.abandon g).agreeFans g r.sets 4 r.ver 0 (.agree g)
    | _, _ => s)

/-- The commit fan-outs of the root that proposed a round have all been acknowledged or have timed out. -/
def State.commitSettled (s : State) (g : Nat) : Bool :=
  (s.node g).committing && !s.fab.fans.any (fun f => f.owner == .commit g)

/-- AGREE_COMMIT_DONE (R79 step 9): AGR := 3 at the root that proposed the round, whatever its new half makes of the node. -/
def execAgreeCommitDone (g : Nat) (s : State) : Res :=
  .next (
    if s.commitSettled g then
      (s.setHalf g false (((s.half g false).set 2 2 0).set 15 14 3)).modNode g (fun m => { m with round := none })
    else s)

/-- A leaving node has finished its slots. -/
def State.leaveDone (s : State) (g : Nat) : Bool :=
  (s.node g).leaving && (s.group g).isSome && (s.node g).slots.all (fun p => p.2.stage == .free)

/-- LEAVE_COMPLETE (R79 step 8). -/
def execLeaveComplete (g : Nat) (s : State) : Res := .next (if s.leaveDone g then s.deleteNode g else s)

end Sys2Proof.Machine
end

