-- ==== Sys2Proof/Machine/Special.lean ====
section
/-!
DEFINITION. The special functions (R357 to R359). A value that f32 cannot hold is computed in fixed point with 1,024
fraction bits, which places it between its two f32 neighbours; which of the two a faithful function returns is a free
value.
-/
namespace Sys2Proof.Machine
open Sys2Proof

/-! ### Fixed point -/

/-- The fraction bits of the fixed-point values. -/
def fxBits : Nat := 1024
/-- One. -/
def fxOne : Nat := 2 ^ fxBits

/-- π, rounded down to 1,024 fraction bits. -/
def fxPi : Nat :=
  0x3243F6A8885A308D313198A2E03707344A4093822299F31D0082EFA98EC4E6C89452821E638D01377BE5466CF34E90C6CC0AC29B7C97C50DD3F84D5B5B54709179216D5D98979FB1BD1310BA698DFB5AC2FFD72DBD01ADFB7B8E1AFED6A267E96BA7C9045F12C7F9924A19947B3916CF70801F2E2858EFC16636920D871574E69
/-- ln 2, rounded down. -/
def fxLn2 : Nat :=
  0xB17217F7D1CF79ABC9E3B39803F2F6AF40F343267298B62D8A0D175B8BAAFA2BE7B876206DEBAC98559552FB4AFA1B10ED2EAE35C138214427573B291169B8253E96CA16224AE8C51ACBDA11317C387EB9EA9BC3B136603B256FA0EC7657F74B72CE87B19D6548CAF5DFA6BD38303248655FA1872F20E3A2DA2D97C50F3FD5C6
/-- 1/√(2π), rounded down. -/
def fxGauss : Nat :=
  0x662114CF50D942343F2CF1402EAE38BFD3829F30512706D8C0471B4802639D2E9DF8AC55447D3DB723F5D3ABB374E88DEB14277970BE1513278E993445F08CFF98282E1FD947CE4B4ECDBD6E65C23395CACB544DE69EEA32C276937B1BC567691C1CEC4882C77AACEFE1F6708329AB3FC8D2AB2435EE45C9150C426BBB49487E

/-- The product of two fixed-point values. -/
def fxMul (x y : Nat) : Nat := x * y / fxOne
/-- The quotient of two fixed-point values. -/
def fxDiv (x y : Nat) : Nat := x * fxOne / y

/-- The sum of the exponential series from its term n on. -/
def expTail (x : Nat) : Nat → Nat → Nat → Nat
  | 0, _, _ => 0
  | fuel + 1, n, term => if term = 0 then 0 else term + expTail x fuel (n + 1) (fxMul term x / (n + 1))
/-- e^x for x from 0 to 1. -/
def fxExp (x : Nat) : Nat := expTail x 400 0 fxOne

/-- The alternating series whose terms fall by x²/((n+1)(n+2)). -/
def trigTail (x2 : Nat) : Nat → Nat → Nat → Int
  | 0, _, _ => 0
  | fuel + 1, n, term =>
    if term = 0 then 0 else (term : Int) - trigTail x2 fuel (n + 2) (fxMul term x2 / ((n + 1) * (n + 2)))
/-- sin x for x from 0 to 1. -/
def fxSin (x : Nat) : Nat := (trigTail (fxMul x x) 300 1 x).toNat
/-- cos x for x from 0 to 1. -/
def fxCos (x : Nat) : Nat := (trigTail (fxMul x x) 300 0 fxOne).toNat

/-- The series t + t³/3 + t⁵/5 ... -/
def atanhTail (t2 : Nat) : Nat → Nat → Nat → Nat
  | 0, _, _ => 0
  | fuel + 1, n, p => if p = 0 then 0 else p / n + atanhTail t2 fuel (n + 2) (fxMul p t2)
/-- ln m for m from 1 to 2. -/
def fxLn (m : Nat) : Nat :=
  let t := fxDiv (m - fxOne) (m + fxOne)
  2 * atanhTail (fxMul t t) 700 1 t

/-- The series of the integral of e^(-t²/2) from 0 to x: x^(2n+1)/(2^n n! (2n+1)), alternating. -/
def gaussTail (x2 : Nat) : Nat → Nat → Nat → Int
  | 0, _, _ => 0
  | fuel + 1, n, p =>
    if p = 0 then 0 else (p / (2 * n + 1) : Nat) - gaussTail x2 fuel (n + 1) (fxMul p x2 / (2 * (n + 1)))
/-- erf(x/√2)/2 for x from 0 to 16. -/
def fxGaussArea (x : Nat) : Nat := fxMul (gaussTail (fxMul x x) 1200 0 x).toNat fxGauss

/-- The integer square root by bits, the fuel being the number of result bits. -/
def isqrtBits (x : Nat) : Nat → Nat → Nat
  | 0, r => r
  | n + 1, r => let t := r + 2 ^ n; isqrtBits x n (if t * t ≤ x then t else r)

/-! ### Results -/

/-- m × 2^e in fixed point, rounded down. -/
def fxOf (m : Nat) (e : Int) : Nat :=
  if 0 ≤ e + fxBits then m * 2 ^ (e + fxBits).toNat else m / 2 ^ (-(e + fxBits)).toNat

/-- A faithful result (R359): the value v, in fixed point and not exact in f32, becomes the f32 code below it in magnitude
or the next one. -/
def faithful (fn x : Nat) (neg : Bool) (v : Nat) : Nat × Nat :=
  let lo := (roundTo 0 false .rtz 0 (if v = 0 then .zero false else .fin false v (-(fxBits : Int)))).1
  (withSign 0 neg (lo + b2n (Config.upperNeighbour fn x)), 1)

/-- The f32 code of an exactly representable value. -/
def exactly (neg : Bool) (m : Nat) (e : Int) : Nat × Nat :=
  ((rne 0 (if m = 0 then .zero neg else .fin neg m e)).1, 0)

/-- NaN with NV. -/
def invalid : Nat × Nat := (qnan 0, 16)
/-- 1.0. -/
def one32 : Nat := 0x3F800000
/-- The f32 infinity of a sign. -/
def inf32 (neg : Bool) : Nat := withSign 0 neg 0x7F800000

/-- m × 2^e is an integer. -/
def isInteger (m : Nat) (e : Int) : Bool := 0 ≤ e || m % 2 ^ (-e).toNat == 0
/-- The floor of m × 2^e. -/
def floorOf (m : Nat) (e : Int) : Nat := if 0 ≤ e then m * 2 ^ e.toNat else m / 2 ^ (-e).toNat

/-- 2^x. -/
def sfExp2 (x : Nat) : Nat × Nat :=
  match widen 0 x with
  | .nan => (qnan 0, snanFlag 0 [x])
  | .inf neg => if neg then (0, 0) else (inf32 false, 0)
  | .zero _ => (one32, 0)
  | .fin neg m e =>
    if !neg && 128 ≤ floorOf m e then (inf32 false, 5)
    else if neg && 150 ≤ floorOf m e then (0, 3)
    else if neg && 149 ≤ floorOf m e && !(isInteger m e) then (1, 3)
    else if isInteger m e then exactly false 1 (if neg then -(floorOf m e : Int) else floorOf m e)
    else
      let n := floorOf m e
      let frac := fxOf m e % fxOne
      let v := if neg then fxExp (fxMul (fxOne - frac) fxLn2) / 2 ^ (n + 1) else fxExp (fxMul frac fxLn2) * 2 ^ n
      faithful 1 x false v

/-- log2 x. -/
def sfLog2 (x : Nat) : Nat × Nat :=
  match widen 0 x with
  | .nan => (qnan 0, snanFlag 0 [x])
  | .inf neg => if neg then invalid else (inf32 false, 0)
  | .zero _ => (inf32 true, 8)
  | .fin neg m e =>
    if neg then invalid
    else
      let k : Int := (bitLen m : Int) - 1 + e
      if m = 2 ^ (bitLen m - 1) then exactly (k < 0) k.natAbs 0
      else
        let ln := fxLn (m * fxOne / 2 ^ (bitLen m - 1))
        let v : Int := fxDiv ln fxLn2 + k * fxOne
        faithful 2 x (v < 0) v.natAbs

/-- A quotient of positive integers times 2^e as an exact value with a sticky low bit. -/
def quotVal (neg : Bool) (a b : Nat) (e : Int) : Val :=
  let q := a * 2 ^ 80 / b
  .fin neg (2 * q + b2n (a * 2 ^ 80 % b != 0)) (e - 81)

/-- x / y, correctly rounded. -/
def sfDiv (x y : Nat) : Nat × Nat :=
  let nv := snanFlag 0 [x, y]
  match widen 0 x, widen 0 y with
  | .nan, _ => (qnan 0, nv)
  | _, .nan => (qnan 0, nv)
  | .inf _, .inf _ => invalid
  | .zero _, .zero _ => invalid
  | .inf a, v => (inf32 (a != v.neg?), 0)
  | v, .inf b => (withSign 0 (v.neg? != b) 0, 0)
  | .zero a, v => (withSign 0 (a != v.neg?) 0, 0)
  | v, .zero b => (inf32 (v.neg? != b), 8)
  | .fin a m e, .fin b n g => rne 0 (quotVal (a != b) m n (e - g))

/-- 1/x, correctly rounded. -/
def sfRcp (x : Nat) : Nat × Nat := sfDiv one32 x

/-- √x, correctly rounded. -/
def sfSqrt (x : Nat) : Nat × Nat :=
  match widen 0 x with
  | .nan => (qnan 0, snanFlag 0 [x])
  | .inf neg => if neg then invalid else (inf32 false, 0)
  | .zero neg => (withSign 0 neg 0, 0)
  | .fin neg m e =>
    if neg then invalid
    else
      let (m, e) := if e % 2 = 0 then (m, e) else (2 * m, e - 1)
      let a := m * 2 ^ 60
      let r := isqrtBits a 44 0
      rne 0 (.fin false (2 * r + b2n (r * r != a)) (e / 2 - 31))

/-- 1/√x. -/
def sfRsqrt (x : Nat) : Nat × Nat :=
  match widen 0 x with
  | .nan => (qnan 0, snanFlag 0 [x])
  | .inf neg => if neg then invalid else (0, 0)
  | .zero neg => (inf32 neg, 8)
  | .fin neg m e =>
    if neg then invalid
    else
      let (m, e) := if e % 2 = 0 then (m, e) else (2 * m, e - 1)
      let h := e / 2
      let l := bitLen m - 1
      if m = 2 ^ l && l % 2 = 0 then exactly false 1 (-(h + (l / 2 : Nat)))
      else faithful 4 x false (fxOf (isqrtBits (2 ^ 512 / m) 257 0) (-256 - h))

/-- The quadrant of a turn count and the rest of it as a fraction of a quadrant. -/
def quadrant (m : Nat) (e : Int) : Nat × Nat :=
  let y := fxOf m e % fxOne * 4
  (y / fxOne, y % fxOne)

/-- sin(π y / 2) for y from 0 to 1. -/
def quarterSin (y : Nat) : Nat :=
  if 2 * y ≤ fxOne then fxSin (fxMul y fxPi / 2) else fxCos (fxMul (fxOne - y) fxPi / 2)
/-- cos(π y / 2) for y from 0 to 1. -/
def quarterCos (y : Nat) : Nat :=
  if 2 * y ≤ fxOne then fxCos (fxMul y fxPi / 2) else fxSin (fxMul (fxOne - y) fxPi / 2)

/-- sin(2π x). -/
def sfSin (x : Nat) : Nat × Nat :=
  match widen 0 x with
  | .nan => (qnan 0, snanFlag 0 [x])
  | .inf _ => invalid
  | .zero neg => (withSign 0 neg 0, 0)
  | .fin neg m e =>
    let (q, y) := quadrant m e
    if y = 0 then
      if q % 2 = 0 then (withSign 0 neg 0, 0) else (withSign 0 (neg != (q == 3)) one32, 0)
    else faithful 6 x (neg != (2 ≤ q : Bool)) (if q % 2 = 0 then quarterSin y else quarterCos y)

/-- cos(2π x). -/
def sfCos (x : Nat) : Nat × Nat :=
  match widen 0 x with
  | .nan => (qnan 0, snanFlag 0 [x])
  | .inf _ => invalid
  | .zero _ => (one32, 0)
  | .fin _ m e =>
    let (q, y) := quadrant m e
    if y = 0 then
      if q % 2 = 1 then (0, 0) else (withSign 0 (q == 2) one32, 0)
    else faithful 7 x (q == 1 || q == 2) (if q % 2 = 0 then quarterCos y else quarterSin y)

/-- e^x for x from 0 to 255. -/
def fxExpBig (x : Nat) : Nat :=
  let k := x / fxLn2
  fxExp (x - k * fxLn2) * 2 ^ k

/-- tanh x. -/
def sfTanh (x : Nat) : Nat × Nat :=
  match widen 0 x with
  | .nan => (qnan 0, snanFlag 0 [x])
  | .inf neg => (withSign 0 neg one32, 0)
  | .zero neg => (withSign 0 neg 0, 0)
  | .fin neg m e =>
    if 100 ≤ floorOf m e then faithful 8 x neg (fxOne - 1)
    else
      let t := fxExpBig (2 * fxOf m e)
      faithful 8 x neg (fxDiv (t - fxOne) (t + fxOne))

/-- 1/(1 + e^-x). -/
def sfSigm (x : Nat) : Nat × Nat :=
  match widen 0 x with
  | .nan => (qnan 0, snanFlag 0 [x])
  | .inf neg => if neg then (0, 0) else (one32, 0)
  | .zero _ => (0x3F000000, 0)
  | .fin neg m e =>
    if 128 ≤ floorOf m e then faithful 9 x false (if neg then 1 else fxOne - 1)
    else
      let t := fxExpBig (fxOf m e)
      faithful 9 x false (if neg then fxDiv fxOne (fxOne + t) else fxDiv t (fxOne + t))

/-- x × (1 + erf(x/√2)) / 2 in fixed point, for a finite nonzero x. -/
def fxGelu (neg : Bool) (m : Nat) (e : Int) : Int :=
  if 16 ≤ floorOf m e then if neg then -1 else (fxOf m e : Int) - 1
  else
    let a := fxOf m e
    let h := fxGaussArea a
    if neg then -(fxMul a (fxOne / 2 - h) : Int) else (fxMul a (fxOne / 2 + h) : Int)

/-- A signed fixed-point value as a value. -/
def fxVal (v : Int) : Val := .ofScaled v (-(fxBits : Int)) false

/-- y lies within 2 units in the last place of v, or within 2^-126 (R359). -/
def geluBound (y : Nat) (v : Int) : Bool :=
  match widen 0 y with
  | .nan | .inf _ => false
  | w =>
    let fy : Int := match w with
      | .fin n m e => if n then -(fxOf m e : Int) else fxOf m e
      | _ => 0
    let ulp := max (bitLen v.natAbs - 24) (fxBits - 149)
    (fy - v).natAbs ≤ max (2 ^ (ulp + 1)) (2 ^ (fxBits - 126))

/-- xgelu (R359): the part's own value where it lies within the bound, and the nearest f32 value otherwise. -/
def sfGelu (x : Nat) : Nat × Nat :=
  match widen 0 x with
  | .nan => (qnan 0, snanFlag 0 [x])
  | .inf neg => if neg then (withSign 0 true 0, 0) else (inf32 false, 0)
  | .zero neg => (withSign 0 neg 0, 0)
  | .fin neg m e =>
    let v := fxGelu neg m e
    let y := Config.geluChoice x % 2 ^ 32
    (if geluBound y v then y else (rne 0 (fxVal v)).1, 1)

/-! ### The operations -/

/-- The conversion of an f32 result to the format (R357). -/
def viaF32 (fmt : Nat) (r : Nat × Nat) : Nat × Nat :=
  if fmt = 0 then r
  else
    let (y, g) := rne fmt (widen 0 r.1)
    (y, r.2 ||| g)

/-- An element widened exactly to f32; a signalling NaN keeps its flag. -/
def toF32 (fmt x : Nat) : Nat × Nat := if fmt = 0 then (x, 0) else ((rne 0 (widen fmt x)).1, snanFlag fmt [x])

/-- A special function of one source. -/
def special1 (f : VU) (g : Nat → Nat × Nat) (s : State) : State :=
  vector1 f 8 (eb f.fmt) false (fun x i =>
    let a := toF32 f.fmt.code (elem (eb f.fmt) x i)
    let r := viaF32 f.fmt.code (g a.1)
    (r.1, r.2 ||| a.2)) s

/-- xexp2: 2^x (R357 to R359). -/
def execXexp2 (f : VU) (s : State) : Res := .next (special1 f sfExp2 s)

/-- xlog2: log2 x (R357 to R359). -/
def execXlog2 (f : VU) (s : State) : Res := .next (special1 f sfLog2 s)

/-- xrcp: 1/x (R357 to R359). -/
def execXrcp (f : VU) (s : State) : Res := .next (special1 f sfRcp s)

/-- xrsqrt: 1/√x (R357 to R359). -/
def execXrsqrt (f : VU) (s : State) : Res := .next (special1 f sfRsqrt s)

/-- xsqrt: √x (R357 to R359). -/
def execXsqrt (f : VU) (s : State) : Res := .next (special1 f sfSqrt s)

/-- xsin: the sine of x turns (R357 to R359). -/
def execXsin (f : VU) (s : State) : Res := .next (special1 f sfSin s)

/-- xcos: the cosine of x turns (R357 to R359). -/
def execXcos (f : VU) (s : State) : Res := .next (special1 f sfCos s)

/-- xtanh: tanh x (R357 to R359). -/
def execXtanh (f : VU) (s : State) : Res := .next (special1 f sfTanh s)

/-- xsigm: the logistic function (R357 to R359). -/
def execXsigm (f : VU) (s : State) : Res := .next (special1 f sfSigm s)

/-- xgelu: GELU (R357 to R359). -/
def execXgelu (f : VU) (s : State) : Res := .next (special1 f sfGelu s)

/-- xdiv: x / y (R357 to R359). -/
def execXdiv (f : VF) (s : State) : Res :=
  .next (vector2 f 8 (eb f.fmt) false (fun x y _ =>
    let a := toF32 f.fmt.code x
    let b := toF32 f.fmt.code y
    let r := viaF32 f.fmt.code (sfDiv a.1 b.1)
    (r.1, r.2 ||| a.2 ||| b.2)) s)

end Sys2Proof.Machine
end

