-- ==== Sys2Proof/Machine/Coverage.lean ====
section
/-!
DEFINITION. Coverage-fraction execution (R172 to R188): the lattice, the computed set, the reconstruction of skipped points,
the audits and the dailies controller.
-/
namespace Sys2Proof.Machine
open Sys2Proof

/-! ### The nest (R159) and the declaration (R149, R172) -/

/-- COUNT of each dimension of a launch's nest. -/
def Launch.counts (l : Launch) : List Nat := (List.range l.ndim).map (fun d => l.f (33 + 2 * d) 31 0)
/-- The number of points of the nest. -/
def Launch.nestSize (l : Launch) : Nat := l.counts.foldl (· * ·) 1

/-- The loop tuple of a place in lexicographic order, dimension 0 outermost. -/
def tupleOf (counts : List Nat) (pos : Nat) : List Nat :=
  (counts.foldr (fun c a => (a.1 / c, a.1 % c :: a.2)) (pos, ([] : List Nat))).2

/-- The place of a loop tuple. -/
def placeOf (counts tuple : List Nat) : Nat := (counts.zip tuple).foldl (fun a p => a * p.1 + p.2) 0

/-- The indices of a loop tuple: BEGIN + x × STEP, wrapped (R159). -/
def Launch.indices (l : Launch) (tuple : List Nat) : List Word :=
  (tuple.zip (List.range tuple.length)).map (fun p =>
    BitVec.ofInt 64 (word l.recd (32 + 2 * p.2) + p.1 * signed 32 (l.f (33 + 2 * p.2) 63 32)))

/-- PATTERN. -/
def Launch.pattern (l : Launch) : Nat := l.f 48 12 9
/-- CI, CJ and CK. -/
def Launch.ci (l : Launch) : Nat := l.f 48 42 40
/-- CJ. -/
def Launch.cj (l : Launch) : Nat := l.f 48 45 43
/-- CK. -/
def Launch.ck (l : Launch) : Nat := l.f 48 48 46
/-- AUDIT. -/
def Launch.audit (l : Launch) : Nat := l.f 49 23 16
/-- U. -/
def Launch.upd (l : Launch) : Nat := l.f 49 15 0
/-- COVSTEP. -/
def Launch.covStep (l : Launch) : Nat := l.f 48 39 31

/-- The failing word of the coverage words 48 and 49, if any (R172). -/
def Launch.coverageWord (l : Launch) : Option Nat :=
  let pat := l.pattern
  let w48 := 1 ≤ pat && pat ≤ 3 && l.f 48 21 13 ≤ l.f 48 8 0 && l.f 48 8 0 ≤ l.f 48 30 22 && l.f 48 30 22 ≤ 256
    && l.covStep ≤ 256 && l.ci < l.ndim
    && (pat != 1 || (l.cj < l.ndim && l.cj != l.ci && l.ck == 7))
    && (pat != 2 || (l.cj == 7 && l.ck == 7))
    && (pat != 3 || (l.cj < l.ndim && l.ck < l.ndim && l.ci != l.cj && l.ci != l.ck && l.cj != l.ck))
    && l.f 48 63 49 == 0
  if !w48 then some 48
  else if l.f 49 31 24 ≠ 0 || 0x7F800000 ≤ l.f 49 63 32 then some 49
  else none

/-! ### The lattice (R173 to R177) -/

/-- Lattice coordinates of a loop tuple. -/
def Launch.lat (l : Launch) (x : List Nat) : Nat × Nat :=
  let i := x.getD l.ci 0
  let j := x.getD l.cj 0
  let k := x.getD l.ck 0
  if l.pattern = 2 then (i % 256, 0)
  else if l.pattern = 3 then ((i + 7 * k) % 16, (j + 11 * k) % 16)
  else (i % 16, j % 16)

/-- The threshold of lattice coordinates. -/
def thresholdOf (pattern : Nat) (p : Nat × Nat) : Nat :=
  if pattern = 2 then reverseBits 8 p.1
  else (List.range 4).foldl (fun t m =>
    let am := b2n (p.1.testBit m)
    let bm := b2n (p.2.testBit m)
    t + 4 ^ (3 - m) * (2 * ((am + bm) % 2) + am)) 0

/-- The largest power of two up to `top` that divides x; `top` for 0. -/
def spacing (top x : Nat) : Nat := 2 ^ (min (trailingZeros 9 x) (bitLen top - 1))

/-- The parents of a point in its grid, by place in ascending order (R175). -/
def Launch.parents (l : Launch) (pos : Nat) : List Nat :=
  let cs := l.counts
  let x := tupleOf cs pos
  let (a, b) := l.lat x
  let i := x.getD l.ci 0
  let j := x.getD l.cj 0
  let at' (di dj : Int) : Option Nat :=
    let i' : Int := i + di
    let j' : Int := j + dj
    let okJ := l.pattern == 2 || (0 ≤ j' && j' < (cs.getD l.cj 0 : Nat))
    if 0 ≤ i' && i' < (cs.getD l.ci 0 : Nat) && okJ then
      let y := x.set l.ci i'.toNat
      some (placeOf cs (if l.pattern = 2 then y else y.set l.cj j'.toNat))
    else none
  let cands : List (Option Nat) :=
    if l.pattern = 2 then
      let s : Int := spacing 256 a
      if s = 256 then [] else [at' (-s) 0, at' s 0]
    else
      let n := min (spacing 16 a) (spacing 16 b)
      let s : Int := n
      if n = 16 then []
      else if a % (2 * n) = n && b % (2 * n) = n then [at' (-s) (-s), at' (-s) s, at' s (-s), at' s s]
      else if a % (2 * n) = n then [at' (-s) 0, at' s 0]
      else [at' 0 (-s), at' 0 s]
  (cands.filterMap id).foldl setInsert []

/-- A point is computed at a fraction (R176). -/
def Launch.computedAt (l : Launch) (f pos : Nat) : Bool :=
  (l.parents pos).isEmpty || thresholdOf l.pattern (l.lat (tupleOf l.counts pos)) < f

/-- The audit hash selects an ordinal (R177). -/
def Launch.auditHit (l : Launch) (n : Nat) : Bool := n % 2 ^ 32 * 0x9E3779B9 % 2 ^ 32 / 2 ^ 24 < l.audit

/-! ### The reconstruction descriptor (R178, R179) -/

/-- A plane of the descriptor. -/
structure Plane where
  base : Nat
  fmt : Nat
  er : Nat
  ec : Nat
  ers : Int
  ecs : Int
  ps : List Int

/-- Plane p of a descriptor of 16 words. -/
def planeOf (d : List Word) (p : Nat) : Plane :=
  let f (k hi lo : Nat) := field (word d (8 * p + k)) hi lo
  ⟨f 0 56 0, f 1 3 0, f 1 27 16, f 1 43 32, signed 32 (f 2 31 0), signed 32 (f 2 63 32),
    (List.range 6).map (fun i => signed 32 (f (3 + i / 2) (31 + 32 * (i % 2)) (32 * (i % 2))))⟩

/-- A plane is present. -/
def Plane.present (p : Plane) : Bool := p.fmt != 15

/-- The bytes of an element; a four-bit code counts as one byte. -/
def Plane.size (p : Plane) : Nat := if p.fmt ≤ 10 then fmtBits p.fmt / 8 else 1

/-- A plane that R179 accepts for a nest of a number of dimensions. -/
def planeOk (d : List Word) (ndim p : Nat) : Bool :=
  let x := planeOf d p
  let w (k : Nat) := word d (8 * p + k)
  if !x.present then p == 1 && w 0 == 0 && w 1 == 15 && (List.range 6).all (fun k => w (2 + k) == 0)
  else
    x.fmt ≤ 12 && field (w 0) 63 57 == 0 && field (w 1) 15 4 == 0 && field (w 1) 31 28 == 0 && field (w 1) 63 44 == 0
      && w 6 == 0 && w 7 == 0 && x.er != 0 && x.ec != 0 && x.base % x.size == 0 && x.ers % x.size == 0
      && x.ecs % x.size == 0 && (x.ps.take ndim).all (fun q => q % x.size == 0)
      && (x.fmt != 11 || (x.ec % 2 == 0 && x.ecs == 0))

/-- A descriptor that R179 accepts. -/
def descOk (d : List Word) (ndim : Nat) : Bool := planeOk d ndim 0 && planeOk d ndim 1

/-- The bytes that the elements of one row occupy, as runs: their offsets from the row's start, and their size. -/
def Plane.runs (p : Plane) : List Int × Nat :=
  if p.fmt = 11 then ((List.range (p.ec / 2)).map (fun (i : Nat) => (i : Int)), 1)
  else ((List.range p.ec).map (fun (c : Nat) => (c : Int) * p.ecs), p.size)

/-- The addresses of the pieces of a point's block, in element order. -/
def Plane.cells (p : Plane) (x : List Nat) : List Nat :=
  let start : Int := p.base + ((x.zip p.ps).map (fun q => (q.1 : Int) * q.2)).foldl (· + ·) 0
  ((List.range p.er).map (fun (e : Nat) => p.runs.1.map (fun o => wrap 64 (start + e * p.ers + o)))).flatten

/-! ### Reconstruction and audits (R177, R181) -/

/-- recon(fmt, Q) (R181) of the codes of the parents, in ascending parent ordinal. -/
def recon (fmt : Nat) (q : List Nat) : Nat :=
  if 5 ≤ fmt then q.headD 0
  else
    let sum := q.tail.foldl (fun a c => (addVal a (widen fmt c)).1) (widen fmt (q.headD 0))
    (rne fmt (sum.scale (-((bitLen q.length - 1 : Nat) : Int)))).1

/-- The error of an element of a plane as a nonnegative f32 code (R177). -/
def elemError (fmt c r : Nat) : Nat :=
  if isFloat fmt then
    if isNan fmt c || isNan fmt r then 0x7F800000
    else
      let x := widen fmt c
      let y := widen fmt r
      if cmpVal x y == .eq then 0
      else if isInf fmt c || isInf fmt r then 0x7F800000
      else magBits 0 (rne 0 (addVal x y.negate).1).1
  else
    let v (z : Nat) : Int := if isNatural fmt then (z : Int) else signed (fmtBits fmt) z
    (rne 0 (Val.ofInt ((v c - v r).natAbs : Nat))).1

/-- An f32 code divided by a positive count, rounded with rne. -/
def f32Quot (a n : Nat) : Nat :=
  match widen 0 a with
  | .fin neg m e => (rne 0 (quotVal neg m n e)).1
  | _ => a

/-- d of plane 0 for the pieces computed and interpolated (R177). -/
def auditError (p : Plane) (cs rs : List Nat) : Nat :=
  if p.fmt ≤ 10 then (cs.zip rs).foldl (fun m x => max m (elemError p.fmt x.1 x.2)) 0
  else
    let diff (x : Nat × Nat) : Nat :=
      if p.fmt = 11 then b2n (x.1 % 16 != x.2 % 16) + b2n (x.1 / 16 != x.2 / 16) else b2n (x.1 != x.2)
    let n := (cs.zip rs).foldl (fun a x => a + diff x) 0
    if n = 0 then 0 else (rne 0 (quotVal false n (p.er * p.ec) 0)).1

/-- An access of the reconstruction unit to a piece: its value, or the fault and its address. -/
def State.readPiece (s : State) (asid va n : Nat) : Except (Nat × Nat) Nat × State :=
  match s.agentRead .frontEnd 15 asid va n .load with
  | (.ok b, s) => (.ok (ofBytes b), s)
  | (.error c, s) => (.error (c, va), s)

/-- The pieces of a point read. -/
def State.readCells (s : State) (asid n : Nat) (l : List Nat) : Except (Nat × Nat) (List Nat) × State :=
  l.foldl (fun acc va => match acc with
    | (.error e, s) => (.error e, s)
    | (.ok xs, s) => match s.readPiece asid va n with
      | (.ok x, s) => (.ok (xs ++ [x]), s)
      | (.error e, s) => (.error e, s)) (.ok [], s)

/-- The interpolation of a plane of a point from its parents' blocks. -/
def State.interpolate (s : State) (l : Launch) (p : Plane) (parents : List Nat) : Except (Nat × Nat) (List Nat) × State :=
  let blocks := parents.foldl (fun acc q => match acc with
    | (Except.error e, s) => (Except.error e, s)
    | (.ok bs, s) => match s.readCells l.asid p.size (p.cells (tupleOf l.counts q)) with
      | (.ok b, s) => (.ok (bs ++ [b]), s)
      | (.error e, s) => (.error e, s)) ((.ok [], s) : Except (Nat × Nat) (List (List Nat)) × State)
  match blocks with
  | (.error e, s) => (.error e, s)
  | (.ok bs, s) =>
    (.ok ((List.range (bs.headD []).length).map (fun i => recon p.fmt (bs.map (fun b => b.getD i 0)))), s)

/-- The pieces of a point written; the first fault ends it. -/
def State.writeCells (s : State) (asid n : Nat) (l : List (Nat × Nat)) : Option (Nat × Nat) × State :=
  l.foldl (fun acc x => match acc with
    | (some e, s) => (some e, s)
    | (none, s) => s.agentWrite .frontEnd 15 asid x.1 (bytesOf n x.2)) (none, s)

/-- A launch ends FAULTED for a fault of its own (R161, R182). -/
def State.launchFault (s : State) (key code va : Nat) : State := (s.modLaunch key (·.recordOwn code va)).endLaunch key 3

/-- One plane of a skipped point reconstructed. -/
def State.reconPlane (s : State) (l : Launch) (pos p : Nat) : Option (Nat × Nat) × State :=
  let pl := planeOf ((l.cov.map (·.desc)).getD []) p
  if !pl.present then (none, s)
  else match s.interpolate l pl (l.parents pos) with
    | (.error e, s) => (some e, s)
    | (.ok r, s) => s.writeCells l.asid pl.size ((pl.cells (tupleOf l.counts pos)).zip r)

/-- A point with an ordinal is done. -/
def Coverage.isDone (c : Coverage) (n : Nat) : Bool := ((Assoc.find c.points n).map (·.stage)) == some .done

/-- Every parent of a point is done. -/
def Launch.parentsDone (l : Launch) (c : Coverage) (n : Nat) (p : Point) : Bool :=
  (l.parents (n - p.base)).all (fun q => c.isDone (p.base + q))

/-- A launch whose coverage goes on: no fault has ended it (R186). -/
def Launch.covers (l : Launch) : Bool :=
  (l.state == .running || l.state == .draining) && l.status != 3 && l.status != 8

/-- A skipped point may be reconstructed. -/
def Launch.mayRecon (l : Launch) (c : Coverage) (n : Nat) (p : Point) : Bool :=
  l.covers && p.skipped && !p.audit && p.stage == .handed && l.parentsDone c n p

/-- An audit point may be compared. -/
def Launch.mayAudit (l : Launch) (c : Coverage) (n : Nat) (p : Point) : Bool :=
  l.covers && p.audit && p.stage == .done && !p.dropped && p.error.isNone && l.parentsDone c n p

/-- The coverage state of a launch changed. -/
def State.modCov (s : State) (key : Nat) (f : Coverage → Coverage) : State :=
  s.modLaunch key (fun l => { l with cov := l.cov.map f })

/-- RECONSTRUCT_POINT (R180 to R182): every present plane of a skipped point is written from its parents. -/
def execReconstructPoint (key n : Nat) (s : State) : Res :=
  .next (match s.launch? (some key) with
    | none => s
    | some l => match l.cov.bind (fun c => (Assoc.find c.points n).map (fun p => (c, p))) with
      | none => s
      | some (c, p) =>
        if !l.mayRecon c n p then s
        else match s.reconPlane l (n - p.base) 0 with
          | (some e, s) => s.launchFault key e.1 e.2
          | (none, s) => match s.reconPlane l (n - p.base) 1 with
            | (some e, s) => s.launchFault key e.1 e.2
            | (none, s) => s.modCov key (fun c => { c with
                points := Assoc.put c.points n { p with stage := .done }
                nskip := satInc 0xFFFFFFFF c.nskip }))

/-- A comparison enters ACCUM and NCMP (R184). -/
def Coverage.accumulate (c : Coverage) (d : Nat) : Coverage :=
  { c with accum := (f32add c.accum d).1, ncmp := satInc 0xFFFF c.ncmp }

/-- AUDIT_COMPARE (R177): an audit point is compared with its interpolation over plane 0; without REPRO the comparison
counts as it finishes. -/
def execAuditCompare (key n : Nat) (s : State) : Res :=
  .next (match s.launch? (some key) with
    | none => s
    | some l => match l.cov.bind (fun c => (Assoc.find c.points n).map (fun p => (c, p))) with
      | none => s
      | some (c, p) =>
        if !l.mayAudit c n p then s
        else
          let pl := planeOf c.desc 0
          match s.interpolate l pl (l.parents (n - p.base)) with
          | (.error e, s) => s.launchFault key e.1 e.2
          | (.ok r, s) => match s.readCells l.asid pl.size (pl.cells (tupleOf l.counts (n - p.base))) with
            | (.error e, s) => s.launchFault key e.1 e.2
            | (.ok v, s) =>
              let d := auditError pl v r
              s.modCov key (fun c =>
                let c := { c with
                  points := Assoc.put c.points n { p with error := some d, counted := !l.repro }
                  naudit := satInc 0xFFFFFFFF c.naudit }
                if l.repro then c else c.accumulate d))

/-! ### The dailies (R183, R184) -/

/-- A point of a grid is ready at ordinal nu, as a parent (R183). -/
def Launch.readyAt (l : Launch) (c : Coverage) (base nu : Nat) : Nat → Nat → Bool
  | 0, _ => false
  | fuel + 1, pos =>
    base + pos ≤ nu && (match Assoc.find c.points (base + pos) with
      | none => false
      | some p => !p.skipped || p.audit || (l.parents pos).all (fun q => l.readyAt c base nu fuel q))

/-- The audit points that an update at ordinal nu counts: ready, and not counted before. -/
def Launch.readyAudits (l : Launch) (c : Coverage) (nu : Nat) : List (Nat × Point) :=
  c.points.filter (fun q => q.2.audit && !q.2.counted && !q.2.dropped && q.1 ≤ nu
    && (l.parents (q.1 - q.2.base)).all (fun x => l.readyAt c q.2.base nu 10 x))

/-- Nothing of a coverage launch is left to do: every point handed out is done, and no reconstruction or comparison can start.
A launch whose points have all been enumerated has then every point done and every comparison finished; one whose contexts have
all been killed may keep skipped points whose parents were never handed out (R186). -/
def Launch.allSettled (l : Launch) (c : Coverage) : Bool :=
  l.covers && c.points.all (fun q => !l.mayRecon c q.1 q.2 && !l.mayAudit c q.1 q.2 && (match q.2.stage with
    | .exited _ _ _ _ => false
    | .handed => q.2.skipped && !q.2.audit
    | .done => true))

/-- The audit points compared and not counted before. -/
def Coverage.compared (c : Coverage) : List (Nat × Point) :=
  c.points.filter (fun q => q.2.audit && !q.2.counted && q.2.error.isSome)

/-- An update at an instant (R184). -/
def Launch.update (l : Launch) (c : Coverage) : Coverage :=
  let c :=
    if c.ncmp = 0 then c
    else
      let e := f32Quot c.accum c.ncmp
      let tgt := l.f 49 63 32
      let half := (rne 0 ((widen 0 tgt).scale (-1))).1
      let gt (a b : Nat) : Bool := !isNan 0 a && !isNan 0 b && cmpVal (widen 0 a) (widen 0 b) == .gt
      let f :=
        if l.covStep = 0 then c.f
        else if gt e tgt then min (l.f 48 30 22) (c.f + l.covStep)
        else if gt half e then max (l.f 48 21 13) (c.f - l.covStep)
        else c.f
      { c with f := f, lasterr := e }
  { c with accum := 0, ncmp := 0, since := 0, nupd := satInc 0xFFFF c.nupd }

/-- The audit points listed enter ACCUM in ascending ordinal, and are counted. -/
def Coverage.count (c : Coverage) (l : List (Nat × Point)) : Coverage :=
  l.foldl (fun c q => ({ c with points := Assoc.put c.points q.1 { q.2 with counted := true } } : Coverage).accumulate
    (q.2.error.getD 0)) c

/-- No context of a launch holds an iteration. -/
def State.noIteration (s : State) (key : Nat) : Bool :=
  s.cores.all (fun p => p.2.ctxs.all (fun t => t.launch != some key || t.held.isEmpty)
    && p.2.saved.all (fun v => v.ctx.launch != some key || v.ctx.held.isEmpty))

/-- The iterations of a launch's present step, or of the launch, have all been handed out and ended. -/
def State.stepEnded (s : State) (key : Nat) (l : Launch) : Bool := l.stepSlots.isEmpty && l.heldPoints.isEmpty && s.noIteration key

/-- The update that is due, as the coverage state after it: at an instant (R183). -/
def State.dueUpdate (s : State) (key : Nat) (l : Launch) : Option Coverage :=
  match l.cov with
  | none => none
  | some c =>
    if !l.covers then none
    else match c.instant with
      | some nu =>
        let ready := l.readyAudits c nu
        if c.points.all (fun q => nu < q.1 || (q.2.skipped && !q.2.audit) || q.2.stage == .done)
            && ready.all (fun q => q.2.error.isSome) then
          some { l.update (c.count ready) with instant := none }
        else none
      | none =>
        if !l.repro && l.upd ≠ 0 && l.upd ≤ c.since && l.state == .running then some (l.update c)
        else if c.settled || !s.stepEnded key l then none
        else if l.standing && l.state == .running && l.inStep then
          if !l.repro then some { l.update c with settled := true }
          else if l.allSettled c then some { l.update (c.count c.compared) with settled := true }
          else none
        else if l.state == .draining && l.status == 0 && l.allSettled c then
          let c := if l.repro then c.count c.compared else c
          some { l.update c with settled := true }
        else none

/-- DAILIES_UPDATE (R183, R184). -/
def execDailiesUpdate (key : Nat) (s : State) : Res :=
  .next (match s.launch? (some key) with
    | none => s
    | some l => match s.dueUpdate key l with
      | none => s
      | some c => s.modLaunch key (fun l => { l with cov := some c }))

/-! ### Points that become done (R180) -/

/-- A context holds a store with an issue number below `seq` that is not yet performed. -/
def Context.storesBelow (t : Context) (seq : Nat) : Bool :=
  t.sq.any (fun e => e.seq < seq) || t.writes.any (fun w => w.seq < seq)
    || t.remote.any (fun r => r.write && r.copy.isNone && r.seq < seq)

/-- Stores of an exited iteration are still outstanding. -/
def Core.exitPending (k : Core) (key ctx home seq : Nat) : Bool :=
  let mine (t : Context) : Bool := t.launch == some key && t.home == home
  let o := k.ctx ctx
  (k.ctxs.toList ++ k.saved.map (·.ctx)).any (fun t => mine t && t.storesBelow seq)
    || (o.launch != some key && o.storesBelow (min seq (if o.launch.isNone then seq else o.seqBase)))

/-- The points of a launch whose stores have all been performed become done. -/
def State.settlePoints (s : State) (key : Nat) : Option State :=
  match s.launch? (some key) with
  | none => none
  | some l => match l.cov with
    | none => none
    | some c =>
      let ready (q : Nat × Point) : Bool := match q.2.stage with
        | .exited core ctx home seq => !(s.core core).exitPending key ctx home seq
        | _ => false
      if c.points.any ready then
        some (s.modCov key (fun c => { c with points := c.points.map (fun q =>
          if ready q then (q.1, { q.2 with stage := .done }) else q) }))
      else none

end Sys2Proof.Machine
end

