-- ==== Sys2Proof/Machine/Accept.lean ====
section
/-!
DEFINITION. Launch records: their checks, acceptance, the status block and the done signal (R136, R147 to R153, R162, R172,
R187).
-/
namespace Sys2Proof.Machine
open Sys2Proof

/-! ### The checks of a record (R150, R152) -/

/-- The reserved bits of a word, given as fields, are zero. -/
def Launch.clear (l : Launch) (k : Nat) (fields : List (Nat × Nat)) : Bool := fields.all (fun p => l.f k p.1 p.2 == 0)

/-- NLEV. -/
def Launch.nlev (l : Launch) : Nat := l.f 0 27 24
/-- COMM. -/
def Launch.comm (l : Launch) : Bool := l.f 0 12 12 == 1
/-- PCOUNT. -/
def Launch.pcount (l : Launch) : Nat := l.f 0 53 48
/-- MAXSLOT. -/
def Launch.maxSlot (l : Launch) : Nat := l.f 0 44 32
/-- DOMAIN, SCOPE and GROUP of a level. -/
def Launch.level (l : Launch) (k : Nat) : Nat × Nat × Nat := (l.f (16 + 2 * k) 3 0, l.f (16 + 2 * k) 8 4, l.f (16 + 2 * k) 20 9)
/-- PLACE, in ascending core id. -/
def Launch.placeBits (l : Launch) : List Nat :=
  setBits 320 ((List.range 5).foldl (fun x i => x + word l.recd (56 + i) * 2 ^ (64 * i)) 0)

/-- Word 0 passes. -/
def Launch.word0Ok (l : Launch) (padMax : Nat) : Bool :=
  l.f 0 7 0 == 1 && l.clear 0 [(23, 23), (31, 31), (47, 45), (63, 54)] && 1 ≤ l.ctxPer && l.ctxPer ≤ 4 && 1 ≤ l.nlev
    && l.nlev ≤ 8 && 1 ≤ l.ndim && l.ndim ≤ 6
    && (if l.standing then 1 ≤ l.maxSlot && l.maxSlot ≤ 4096 else l.maxSlot == 0)
    && (if l.comm then 1 ≤ l.pcount && l.pcount ≤ padMax && l.placeBits.isEmpty
        else l.pcount == 0 && !l.placeBits.isEmpty)

/-- The descriptor of level k passes, with the levels below it (R152). -/
def Launch.levelOk (l : Launch) (k : Nat) : Bool :=
  let (d, sc, g) := l.level k
  d ≤ 7 && l.f (16 + 2 * k) 63 21 == 0 && (6 ≤ d || g == 0)
    && (k == 0 || (l.level (k - 1)).1 < d) && (List.range k).all (fun j => (l.level j).2.1 != sc)

/-- A dependence word passes (R162). -/
def depOk (w : Nat) : Bool := if w.testBit 37 then field w 63 38 == 0 else w == 0

/-- Word k of a record passes (R150), apart from the descriptor of word 50. -/
def Launch.wordOk (l : Launch) (padMax k : Nat) : Bool :=
  let w := word l.recd k
  if k = 0 then l.word0Ok padMax
  else if k = 1 then w % 32 == 0
  else if k = 2 then
    l.clear 2 [(15, 15), (31, 30), (63, 46)] && 1 ≤ l.imgLen && l.imgBase + l.imgLen ≤ 16384 && l.f 2 45 32 < l.imgLen
  else if k = 3 then l.litLen == 0 || w % 4 == 0
  else if k = 4 then l.clear 4 [(15, 15), (31, 30), (63, 42)] && l.litBase + l.litLen ≤ 16384
  else if k = 5 then w % 16 == 0
  else if k = 6 then w % 8 == 0
  else if k = 7 then l.f 7 15 0 ≤ 4096
  else if k = 8 || k = 9 then w % 256 == 0
  else if k = 10 then w % 8 == 0
  else if 11 ≤ k && k ≤ 14 then depOk w
  else if 16 ≤ k && k < 32 then
    l.nlev ≤ (k - 16) / 2 || (if k % 2 = 0 then l.levelOk ((k - 16) / 2) else w == 0)
  else if 32 ≤ k && k < 44 then k % 2 == 0 || l.ndim ≤ (k - 32) / 2 || l.f k 31 0 != 0
  else if k = 48 || k = 49 then l.pattern == 0 || l.coverageWord != some k
  else if k = 50 then l.pattern == 0 || w % 64 == 0
  else if 56 ≤ k && k ≤ 60 then true
  else w == 0

/-- The first failing word from a list. -/
def Launch.badWord (l : Launch) (padMax : Nat) (ks : List Nat) : Option Nat := ks.find? (fun k => !l.wordOk padMax k)

/-! ### The status block and the done signal (R136, R151, R187) -/

/-- The 256 bytes of the status block. -/
def Launch.statusBlock (l : Launch) (tret : Nat) : List Byte :=
  let sat (n x : Nat) : List Byte := bytesOf n (min x (2 ^ (8 * n) - 1))
  let cov : List Byte := match l.cov with
    | none => bytesOf 16 0
    | some c => bytesOf 2 c.f ++ sat 2 c.nupd ++ bytesOf 4 c.lasterr ++ sat 4 c.naudit ++ sat 4 c.nskip
  bytesOf 1 l.status ++ bytesOf 1 l.fcode ++ bytesOf 2 l.fcore ++ bytesOf 1 l.fctx ++ bytesOf 1 l.detail ++ bytesOf 2 0
    ++ bytesOf 8 l.faddr ++ sat 8 l.issued ++ sat 8 l.done ++ bytesOf 8 l.tdisp ++ bytesOf 8 l.tact ++ bytesOf 8 tret
    ++ sat 8 l.steps ++ sat 2 l.killed ++ sat 2 l.admitDup ++ sat 2 l.evictEmpty ++ sat 2 l.badSlot ++ sat 2 l.preempts
    ++ bytesOf 22 0 ++ cov ++ bytesOf 144 0

/-- An access of a launch's report that fails is dropped and logged (R136). -/
def State.reportFailed (s : State) (l : Launch) (code : Nat) : State := s.logEvent 15 code l.lid.toNat

/-- The queues whose WAIT names an address read it at once (R134). -/
def State.touched (s : State) (addr asid : Nat) : State :=
  { s with queues := s.queues.map (fun (p : Nat × Queue) =>
    let waits : Bool := p.2.st == .waiting && p.2.asid == asid && (match p.2.units.find? (fun u => u.1 == p.2.cptr) with
      | some u => field u.2.toNat 7 0 == 1 && field u.2.toNat 127 64 == addr
      | none => false)
    (p.1, if waits then { p.2 with polled := s.ticks } else p.2)) }

/-- A 64-bit word of memory changed by the command processor as one step; the fault of an access that fails. -/
def State.updateWord (s : State) (asid addr : Nat) (f : Nat → Nat) : Option Nat × State :=
  match s.agentRead .command 15 asid addr 8 .atomic with
  | (.error c, s) => (some c, s)
  | (.ok b, s) => match s.agentWrite .command 15 asid addr (bytesOf 8 (f (ofBytes b))) with
    | (some (c, _), s) => (some c, s)
    | (none, s) => (none, s.touched addr asid)

/-- R136: the status block, then the done signal. -/
def State.report (s : State) (l : Launch) : State :=
  let s := if l.statAddr = 0 then s else
    match s.agentWrite .command 15 l.asid l.statAddr (l.statusBlock s.ticks) with
    | (some (c, _), s) => s.reportFailed l c
    | (none, s) => s
  if l.doneAddr = 0 then s else
    match s.updateWord l.asid l.doneAddr (fun x => (x + l.doneVal.toNat) % 2 ^ 64) with
    | (some c, s) => s.reportFailed l c
    | (none, s) => s

/-! ### Acceptance (R136, R148, R150) -/

/-- What the scheduler makes of a record: it is accepted or rejected, it must wait, or its packet faults. -/
inductive Accepted where
  | done (s : State)
  | full
  | fault (code : Nat) (s : State)

/-- A launch from its record, before any check. -/
def Launch.ofRecord (q asid : Nat) (lid : BitVec 32) (priv : Bool) (recd : List Word) (doneAddr : Nat) (doneVal : Word)
    (statAddr accepted : Nat) : Launch where
  queue := q
  lid := lid
  asid := asid
  priv := priv
  recd := recd
  doneAddr := doneAddr
  doneVal := doneVal
  statAddr := statAddr
  state := .waiting
  accepted := accepted
  urgentAt := none
  place := []
  order := 0
  t0 := 0
  wave := 0
  action := 0
  cancelled := false
  status := 0
  fcode := 0
  fcore := 0
  fctx := 0
  faddr := 0
  detail := 0
  issued := 0
  done := 0
  tdisp := 0
  tact := 0
  steps := 0
  killed := 0
  admitDup := 0
  evictEmpty := 0
  badSlot := 0
  preempts := 0
  slots := []
  inStep := false
  stepSlots := []
  stepPos := 0
  nextN := 0
  stepBase := 0
  enumerated := false
  heldPoints := []
  shotCounts := []
  deps := []
  padSince := none
  cov := none

/-- The coverage state before the action cycle (R185, R186). -/
def Launch.firstCoverage (l : Launch) (desc : List Word) : Option Coverage :=
  if l.pattern = 0 then none
  else some {
    f := l.f 48 8 0, accum := 0, lasterr := 0, ncmp := 0, since := 0, nupd := 0, naudit := 0, nskip := 0, points := []
    desc := desc, instant := none, settled := false }

/-- A live launch of a queue with a launch id. -/
def State.liveLid (s : State) (q : Nat) (lid : BitVec 32) : Option (Nat × Launch) :=
  s.launches.find? (fun p => p.2.queue == q && p.2.lid == lid)

/-- The 64-bit words of a run of bytes. -/
def words64 (n : Nat) (b : List Byte) : List Word :=
  (List.range n).map (fun i => BitVec.ofNat 64 (ofBytes ((b.drop (8 * i)).take 8)))

/-- The launches that the dependence words name among the live ones (R162). -/
def State.liveDeps (s : State) (l : Launch) : List Nat :=
  [11, 12, 13, 14].filterMap (fun k =>
    let w := word l.recd k
    if w.testBit 37 then (s.liveLid (field w 36 32) (BitVec.ofNat 32 w)).map (·.1) else none)

/-- A record refused: its report is made and it never becomes live. -/
def State.reject (s : State) (l : Launch) (status detail : Nat) : Accepted :=
  .done (s.report { l with status := status, detail := detail })

/-- A record whose checks have all passed (R150, R38). -/
def State.admitRecord (s : State) (l : Launch) (desc : List Word) : Accepted :=
  let l := { l with cov := l.firstCoverage desc, place := l.placeBits, deps := s.liveDeps l }
  if l.place.any (fun c => !s.coresAvail.getLsbD c) then s.reject l 7 0
  else .done { s with launches := Assoc.put s.launches s.nextLaunch l, nextLaunch := s.nextLaunch + 1 }

/-- LAUNCH_ACCEPT (R150, R172): the words of the record in ascending order; the descriptor is read as the check of
word 50. -/
def State.checkRecord (s : State) (l : Launch) : Accepted :=
  let c0 := { l with cov := l.firstCoverage [] }
  match l.badWord s.sched.padMax (List.range 51) with
  | some k => s.reject c0 6 k
  | none =>
    let rest (s : State) (desc : List Word) : Accepted :=
      match l.badWord s.sched.padMax ((List.range 13).map (51 + ·)) with
      | some k => s.reject c0 6 k
      | none => s.admitRecord l desc
    if l.pattern = 0 then rest s []
    else match s.agentRead .frontEnd 15 l.asid (word l.recd 50) 128 .load with
      | (.error c, s) => .fault c s
      | (.ok b, s) => if descOk (words64 16 b) l.ndim then rest s (words64 16 b) else s.reject c0 6 50

/-- A LAUNCH handed to the scheduler (R136, R148, R149). -/
def State.acceptLaunch (s : State) (q : Nat) (lid : BitVec 32) (recAddr doneAddr : Nat) (doneVal : Word) (statAddr : Nat) :
    Accepted :=
  let x := Assoc.get s.queues q Queue.reset
  if (s.liveLid q lid).isSome then .fault 0x91 s
  else if 256 ≤ s.launches.length then .full
  else match s.agentRead .command 15 x.asid recAddr 512 .load with
    | (.error c, s) => .fault c s
    | (.ok b, s) =>
      s.checkRecord (Launch.ofRecord q x.asid lid (x.func == 0) (words64 64 b) doneAddr doneVal statAddr s.cycle)

end Sys2Proof.Machine
end

