-- ==== Sys2Proof/Decode.lean ====
section
/-!
DEFINITION. The decoder of R287 to R309: eight slot words to eight decoded operations or decode faults, and the encoder
written from the same tables.
-/
namespace Sys2Proof
open Sys2Proof.Machine

/-- What a slot word decodes to (R306): an operation, or the fault that the first failing check gives. -/
inductive DecodeResult where
  | ok (i : Instr)
  | bad (code : Nat)
  deriving DecidableEq, Repr

namespace Decode

/-- The field of `width` bits at bit `lo` of a word (R289). -/
def fld (w lo width : Nat) : Nat := w / 2 ^ lo % 2 ^ width

/-- A one-bit field. -/
def flag (w lo : Nat) : Bool := fld w lo 1 == 1

/-- The operand a selector value names; values 74 to 127 are refused before it is asked. -/
def sel (n : Nat) : Sel :=
  if n < 64 then .reg (BitVec.ofNat 6 n)
  else if n < 72 then .latch (BitVec.ofNat 3 (n - 64))
  else if n = 72 then .pop
  else .zero

/-- R306 step 4: a failed limit gives 0xA1. -/
def need (c : Bool) (r : DecodeResult) : DecodeResult := if c then r else .bad 0xA1

/-- R306 step 5: a selector from 74 to 127 gives 0xA2. -/
def sels (l : List Nat) (r : DecodeResult) : DecodeResult := if l.all (fun n => n < 74) then r else .bad 0xA2

/-- R295: H with a latch or pop selector is refused. -/
def holdOk (h : Bool) (l : List Nat) : Bool := !h || l.all (fun n => n < 64 || 72 < n)

/-- Format SR with two sources and fn = 0. -/
def srOp (f : SR → Instr) (k : Slot) (w : Nat) : DecodeResult :=
  need (fld w 0 5 == 0 && holdOk (flag w 31) [fld w 12 7, fld w 5 7]) <| sels [fld w 12 7, fld w 5 7] <|
    .ok (f ⟨k, flag w 31, BitVec.ofNat 6 (fld w 19 6), sel (fld w 12 7), sel (fld w 5 7)⟩)

/-- Format SR with two sources and an fn at most m. -/
def srFn (m : Nat) (f : SR → Nat → Instr) (k : Slot) (w : Nat) : DecodeResult :=
  need (fld w 0 5 ≤ m && holdOk (flag w 31) [fld w 12 7, fld w 5 7]) <| sels [fld w 12 7, fld w 5 7] <|
    .ok (f ⟨k, flag w 31, BitVec.ofNat 6 (fld w 19 6), sel (fld w 12 7), sel (fld w 5 7)⟩ (fld w 0 5))

/-- Format SR with b unused. -/
def suOp (f : SU → Instr) (k : Slot) (w : Nat) : DecodeResult :=
  need (fld w 0 5 == 0 && fld w 5 7 == 73 && holdOk (flag w 31) [fld w 12 7]) <| sels [fld w 12 7] <|
    .ok (f ⟨k, flag w 31, BitVec.ofNat 6 (fld w 19 6), sel (fld w 12 7)⟩)

/-- Format SI. -/
def siOp (f : SI → Instr) (k : Slot) (w : Nat) : DecodeResult :=
  need (holdOk (flag w 31) [fld w 12 7]) <| sels [fld w 12 7] <|
    .ok (f ⟨k, flag w 31, BitVec.ofNat 6 (fld w 19 6), sel (fld w 12 7), BitVec.ofNat 12 (fld w 0 12)⟩)

/-- Format SI with imm 0 to 63 (R314). -/
def shOp (f : SH → Instr) (k : Slot) (w : Nat) : DecodeResult :=
  need (fld w 0 12 < 64 && holdOk (flag w 31) [fld w 12 7]) <| sels [fld w 12 7] <|
    .ok (f ⟨k, flag w 31, BitVec.ofNat 6 (fld w 19 6), sel (fld w 12 7), BitVec.ofNat 6 (fld w 0 12)⟩)

/-- Format SL. -/
def slOp (f : SL → Instr) (k : Slot) (w : Nat) : DecodeResult :=
  .ok (f ⟨k, flag w 31, BitVec.ofNat 6 (fld w 19 6), BitVec.ofNat 19 (fld w 0 19)⟩)

/-- The compare condition of fn (R315). -/
def cmpOf : Nat → Cmp
  | 0 => .eq | 1 => .ne | 2 => .lt | 3 => .ge | 4 => .ltn | _ => .gen

/-- The branch condition of cc (R321). -/
def brOf : Nat → BrCond
  | 0 => .always | 1 => .z | 2 => .nz | 3 => .lt | _ => .ge

/-- Operations that slot 0 alone may issue (R306 step 2). -/
def s0Only (k : Slot) (r : DecodeResult) : DecodeResult := if k = .s0 then r else .bad 0xA4

/-- A word whose fields all hold one value: H = 0 and bits 24:0 = 0. -/
def bare (i : Instr) (w : Nat) : DecodeResult := need (fld w 0 25 == 0 && !flag w 31) (.ok i)

/-- The scalar opcode map (R299). -/
def scalar (k : Slot) (w : Nat) : DecodeResult :=
  match fld w 25 6 with
  | 0x01 => srOp .add k w
  | 0x02 => srOp .sub k w
  | 0x03 => srOp .and k w
  | 0x04 => srOp .or k w
  | 0x05 => srOp .xor k w
  | 0x06 => srOp .andn k w
  | 0x07 => srOp .sll k w
  | 0x08 => srOp .srl k w
  | 0x09 => srOp .sra k w
  | 0x0A => srOp .rol k w
  | 0x0B => srOp .min k w
  | 0x0C => srOp .max k w
  | 0x0D => srOp .minn k w
  | 0x0E => srOp .maxn k w
  | 0x0F => srFn 5 (fun f n => .cmpCc f (cmpOf n)) k w
  | 0x10 => srOp .cmov k w
  | 0x11 => srOp .mul k w
  | 0x12 => srOp .mulh k w
  | 0x13 => srOp .mulhn k w
  | 0x14 => srOp .div k w
  | 0x15 => srOp .divn k w
  | 0x16 => srOp .rem k w
  | 0x17 => srOp .remn k w
  | 0x18 => suOp .clz k w
  | 0x19 => suOp .ctz k w
  | 0x1A => suOp .popc k w
  | 0x1B => srFn 31 (fun f n => .bfx f (BitVec.ofNat 5 n)) k w
  | 0x1C => srFn 31 (fun f n => .bins f (BitVec.ofNat 5 n)) k w
  | 0x1D => suOp .brev k w
  | 0x20 => siOp .addi k w
  | 0x21 => siOp .andi k w
  | 0x22 => siOp .ori k w
  | 0x23 => siOp .xori k w
  | 0x24 => shOp .slli k w
  | 0x25 => shOp .srli k w
  | 0x26 => shOp .srai k w
  | 0x27 => siOp .slti k w
  | 0x28 => siOp .sltni k w
  | 0x29 => siOp .seqi k w
  | 0x2A => slOp .movl k w
  | 0x2B => slOp .movh k w
  | 0x2C => need (fld w 14 5 == 0) <|
      .ok (.ldl k (flag w 31) (BitVec.ofNat 6 (fld w 19 6)) (BitVec.ofNat 14 (fld w 0 14)))
  | 0x30 => s0Only k <| need (!flag w 31 && fld w 22 3 ≤ 4 && (fld w 22 3 != 0 || fld w 15 7 == 73)) <|
      sels [fld w 15 7] <| .ok (.brCc (brOf (fld w 22 3)) (sel (fld w 15 7)) (BitVec.ofNat 15 (fld w 0 15)))
  | 0x31 => s0Only k <| need (!flag w 31 && fld w 22 3 == 0 && fld w 15 7 < 64) <|
      .ok (.loop (BitVec.ofNat 6 (fld w 15 7)) (BitVec.ofNat 15 (fld w 0 15)))
  | 0x32 => s0Only k <| need (!flag w 31 && fld w 0 5 == 0) <|
      .ok (.call (BitVec.ofNat 6 (fld w 19 6)) (BitVec.ofNat 14 (fld w 5 14)))
  | 0x33 => s0Only k <| need (!flag w 31 && fld w 19 6 == 0 && fld w 5 7 == 73 && fld w 0 5 == 0) <|
      sels [fld w 12 7] <| .ok (.jr (sel (fld w 12 7)))
  | 0x34 => s0Only k <| bare .exit w
  | 0x35 => s0Only k <| bare .yield w
  | 0x36 => s0Only k <|
      need (!flag w 31 && fld w 19 6 == 0 && fld w 12 7 == 73 && faultCodes.contains (fld w 0 12)) <|
      .ok (.trap (BitVec.ofNat 12 (fld w 0 12)))
  | 0x37 => s0Only k <| bare .uret w
  | 0x38 => need (!flag w 31 && fld w 12 7 == 73 && srdNum (fld w 0 12)) <|
      .ok (.srd k (BitVec.ofNat 6 (fld w 19 6)) (BitVec.ofNat 12 (fld w 0 12)))
  | 0x39 => s0Only k <| need (!flag w 31 && fld w 19 6 == 0 && swrNum (fld w 0 12)) <| sels [fld w 12 7] <|
      .ok (.swr (sel (fld w 12 7)) (BitVec.ofNat 12 (fld w 0 12)))
  | 0x3A => s0Only k <| need (!flag w 31 && fld w 19 6 < 32 && fld w 5 7 == 73 && fld w 0 5 == 0) <|
      sels [fld w 12 7] <| .ok (.scopew (BitVec.ofNat 5 (fld w 19 6)) (sel (fld w 12 7)))
  | 0x3B => s0Only k <| need (!flag w 31 && fld w 19 6 < 16 && fld w 0 5 == 0) <| sels [fld w 12 7, fld w 5 7] <|
      .ok (.winw (BitVec.ofNat 4 (fld w 19 6)) (sel (fld w 12 7)) (sel (fld w 5 7)))
  | 0x3C => need (!flag w 31 && fld w 12 7 == 73 && fld w 5 7 == 73) <|
      .ok (.winr k (BitVec.ofNat 6 (fld w 19 6)) (BitVec.ofNat 4 (fld w 0 4)) (flag w 4))
  | 0x3D => s0Only k <| need (!flag w 31 && fld w 19 6 == 0 && fld w 0 5 == 0) <| sels [fld w 12 7, fld w 5 7] <|
      .ok (.inval (sel (fld w 12 7)) (sel (fld w 5 7)))
  | 0x3E => .ok (.hint k (flag w 31) (BitVec.ofNat 25 (fld w 0 25)))
  | _ => .bad 0xA1

/-- The FMT field is between lo and hi. -/
def fmtIn (lo hi w : Nat) : Bool := lo ≤ fld w 22 3 && fld w 22 3 ≤ hi

/-- Format V with two sources. -/
def vfOp (lo hi : Nat) (f : VF → Instr) (k : Slot) (w : Nat) : DecodeResult :=
  need (fmtIn lo hi w && holdOk (flag w 31) [fld w 7 7, fld w 0 7]) <| sels [fld w 7 7, fld w 0 7] <|
    .ok (f ⟨k, flag w 31, Fmt.ofCode (fld w 22 3), flag w 21, flag w 20, BitVec.ofNat 6 (fld w 14 6), sel (fld w 7 7),
      sel (fld w 0 7)⟩)

/-- Format V with b unused. -/
def vuOp (lo hi : Nat) (f : VU → Instr) (k : Slot) (w : Nat) : DecodeResult :=
  need (fmtIn lo hi w && fld w 0 7 == 73 && holdOk (flag w 31) [fld w 7 7]) <| sels [fld w 7 7] <|
    .ok (f ⟨k, flag w 31, Fmt.ofCode (fld w 22 3), flag w 21, flag w 20, BitVec.ofNat 6 (fld w 14 6), sel (fld w 7 7)⟩)

/-- Format V with an immediate b at most m. -/
def viOp (lo hi m : Nat) (f : VI → Instr) (k : Slot) (w : Nat) : DecodeResult :=
  need (fmtIn lo hi w && fld w 0 7 ≤ m && holdOk (flag w 31) [fld w 7 7]) <| sels [fld w 7 7] <|
    .ok (f ⟨k, flag w 31, Fmt.ofCode (fld w 22 3), flag w 21, flag w 20, BitVec.ofNat 6 (fld w 14 6), sel (fld w 7 7),
      BitVec.ofNat 7 (fld w 0 7)⟩)

/-- A compare: a predicate destination. -/
def vcOp (lo hi : Nat) (f : VC → Instr) (k : Slot) (w : Nat) : DecodeResult :=
  need (fmtIn lo hi w && fld w 14 6 < 8 && holdOk (flag w 31) [fld w 7 7, fld w 0 7]) <|
    sels [fld w 7 7, fld w 0 7] <|
    .ok (f ⟨k, flag w 31, Fmt.ofCode (fld w 22 3), flag w 21, flag w 20, BitVec.ofNat 3 (fld w 14 6), sel (fld w 7 7),
      sel (fld w 0 7)⟩)

/-- The rounding mode of a code (R246). -/
def rmOf : Nat → Rm
  | 0 => .rne | 1 => .rtz | 2 => .up | 3 => .down | _ => .sr

/-- A conversion (R352). -/
def vvOp (f : VV → Instr) (k : Slot) (w : Nat) : DecodeResult :=
  need (fld w 3 4 ≤ 10 && fld w 0 3 ≤ 4 && holdOk (flag w 31) [fld w 7 7]) <| sels [fld w 7 7] <|
    .ok (f ⟨k, flag w 31, Fmt.ofCode (fld w 22 3), flag w 21, flag w 20, BitVec.ofNat 6 (fld w 14 6), sel (fld w 7 7),
      BitVec.ofNat 4 (fld w 3 4), rmOf (fld w 0 3)⟩)

/-- Predicate logic (R351): FMT 0, P 0 and register numbers from 0 to 7. -/
def qlOp (f : QL → Instr) (k : Slot) (w : Nat) : DecodeResult :=
  need (fld w 22 3 == 0 && !flag w 21 && fld w 14 6 < 8 && fld w 7 7 < 8 && fld w 0 7 < 8) <|
    .ok (f ⟨k, flag w 31, flag w 20, BitVec.ofNat 3 (fld w 14 6), BitVec.ofNat 3 (fld w 7 7), BitVec.ofNat 3 (fld w 0 7)⟩)

/-- The vector opcode map (R301). -/
def vector (k : Slot) (w : Nat) : DecodeResult :=
  match fld w 25 6 with
  | 0x01 => vfOp 0 7 .vadd k w
  | 0x02 => vfOp 0 7 .vsub k w
  | 0x03 => vfOp 0 7 .vmul k w
  | 0x04 => vfOp 0 4 .vfma k w
  | 0x05 => vfOp 0 4 .vfms k w
  | 0x06 => vfOp 0 7 .vmin k w
  | 0x07 => vfOp 0 7 .vmax k w
  | 0x08 => vuOp 0 7 .vabs k w
  | 0x09 => vuOp 0 7 .vneg k w
  | 0x0A => vfOp 5 7 .vadds k w
  | 0x0B => vfOp 5 7 .vsubs k w
  | 0x0C => vfOp 5 7 .vaddsn k w
  | 0x0D => vfOp 5 5 .vand k w
  | 0x0E => vfOp 5 5 .vor k w
  | 0x0F => vfOp 5 5 .vxor k w
  | 0x10 => vfOp 5 7 .vshl k w
  | 0x11 => vfOp 5 7 .vshr k w
  | 0x12 => vfOp 5 7 .vsra k w
  | 0x13 => viOp 5 7 31 .vshli k w
  | 0x14 => vcOp 0 7 .vcmpEq k w
  | 0x15 => vcOp 0 7 .vcmpLt k w
  | 0x16 => vcOp 0 7 .vcmpLe k w
  | 0x17 => vcOp 0 7 .vcmpNe k w
  | 0x18 => vcOp 5 7 .vcmpLtn k w
  | 0x19 => vvOp .vcvt k w
  | 0x1A => vvOp .vcvts k w
  | 0x1B => need (flag w 21) (vfOp 0 7 .vsel k w)
  | 0x1C => vuOp 0 7 .vmov k w
  | 0x1D => need (fld w 0 7 < (Fmt.ofCode (fld w 22 3)).elems) (viOp 0 7 127 .vbcast k w)
  | 0x1E => vfOp 0 7 .vperm k w
  | 0x1F => vuOp 0 7 .vtrans k w
  | 0x20 => vuOp 0 7 .vrsum k w
  | 0x21 => vuOp 0 7 .vcsum k w
  | 0x22 => vuOp 0 7 .vrmax k w
  | 0x23 => vuOp 0 7 .vcmax k w
  | 0x24 => vuOp 0 7 .vrmin k w
  | 0x25 => vuOp 0 7 .vcmin k w
  | 0x26 => need (fld w 14 11 == 0 && fld w 7 7 == 73 && fld w 0 7 ≤ 6) <|
      .ok (.vshp k (flag w 31) (BitVec.ofNat 3 (fld w 0 7)))
  | 0x27 => vuOp 0 7 .vmovz k w
  | 0x28 => need (fld w 22 3 == 0 && fld w 14 6 < 8 && fld w 0 7 == 73 && holdOk (flag w 31) [fld w 7 7]) <|
      sels [fld w 7 7] <|
      .ok (.vpfx k (flag w 31) (flag w 21) (flag w 20) (BitVec.ofNat 3 (fld w 14 6)) (sel (fld w 7 7)))
  | 0x29 => qlOp .qand k w
  | 0x2A => qlOp .qor k w
  | 0x2B => qlOp .qxor k w
  | 0x2C => need (fld w 22 3 == 0 && !flag w 21 && fld w 14 6 < 8 && fld w 7 7 < 8 && fld w 0 7 == 73) <|
      .ok (.qnot k (flag w 31) (flag w 20) (BitVec.ofNat 3 (fld w 14 6)) (BitVec.ofNat 3 (fld w 7 7)))
  | 0x2D => viOp 0 1 127 .vdq k w
  | 0x30 => vfOp 5 7 .vmac k w
  | 0x31 => viOp 0 7 63 .vrot k w
  | 0x32 => vuOp 0 7 .vsplat k w
  | _ => .bad 0xA1

/-- The due fields of an engine command (R302). -/
def dueOf (w : Nat) : Due := ⟨BitVec.ofNat 2 (fld w 23 2), BitVec.ofNat 8 (fld w 15 8)⟩

/-- The checks of every XE word: H = 0, and DE = 0 when DM = 0 (R302). -/
def xeOk (w : Nat) : Bool := !flag w 31 && (fld w 15 8 != 0 || fld w 23 2 == 0)

/-- The X opcode map (R303, R391). -/
def xop (w : Nat) : DecodeResult :=
  match fld w 25 6 with
  | 0x01 => vuOp 0 2 .xexp2 .x w
  | 0x02 => vuOp 0 2 .xlog2 .x w
  | 0x03 => vuOp 0 2 .xrcp .x w
  | 0x04 => vuOp 0 2 .xrsqrt .x w
  | 0x05 => vuOp 0 2 .xsqrt .x w
  | 0x06 => vuOp 0 2 .xsin .x w
  | 0x07 => vuOp 0 2 .xcos .x w
  | 0x08 => vuOp 0 2 .xtanh .x w
  | 0x09 => vuOp 0 2 .xsigm .x w
  | 0x0A => vuOp 0 2 .xgelu .x w
  | 0x0B => vfOp 0 2 .xdiv .x w
  | 0x10 => need (xeOk w && fld w 0 1 == 0) <| sels [fld w 8 7, fld w 1 7] <|
      .ok (.mm (dueOf w) (sel (fld w 8 7)) (sel (fld w 1 7)))
  | 0x11 => need (xeOk w && fld w 0 1 == 0 && fld w 8 7 ≤ 62) <| sels [fld w 1 7] <|
      .ok (.mmacro (dueOf w) (BitVec.ofNat 6 (fld w 8 7)) (sel (fld w 1 7)))
  | 0x12 => need (xeOk w && fld w 15 8 == 0 && fld w 8 7 < 32 && fld w 1 7 == 73 && fld w 0 1 == 0) <|
      .ok (.accz (BitVec.ofNat 5 (fld w 8 7)))
  | 0x13 => need (xeOk w) <| sels [fld w 8 7, fld w 1 7] <|
      .ok (.rqr (dueOf w) (flag w 0) (sel (fld w 8 7)) (sel (fld w 1 7)))
  | 0x14 => need (xeOk w && fld w 8 7 ≤ 62) <| sels [fld w 1 7] <|
      .ok (.rap (dueOf w) (flag w 0) (BitVec.ofNat 6 (fld w 8 7)) (sel (fld w 1 7)))
  | 0x15 => need (fld w 22 3 == 0 && fld w 0 7 == 73 && holdOk (flag w 31) [fld w 7 7]) <| sels [fld w 7 7] <|
      .ok (.rrd (flag w 31) (flag w 21) (flag w 20) (BitVec.ofNat 6 (fld w 14 6)) (sel (fld w 7 7)))
  | 0x16 => need (xeOk w && fld w 8 7 == 73 && fld w 1 7 == 73 && fld w 0 1 == 0) <| .ok (.rcl (dueOf w))
  | 0x17 => need (fld w 22 3 == 0 && fld w 0 7 ≤ 1 && holdOk (flag w 31) [fld w 7 7]) <| sels [fld w 7 7] <|
      .ok (.rang (flag w 31) (flag w 21) (flag w 20) (BitVec.ofNat 6 (fld w 14 6)) (sel (fld w 7 7)) (flag w 0))
  | 0x18 => need (xeOk w && fld w 1 7 == 73 && fld w 0 1 == 0) <| sels [fld w 8 7] <|
      .ok (.cp (dueOf w) (sel (fld w 8 7)))
  | 0x19 => need (xeOk w && fld w 8 7 == 73 && fld w 1 7 == 73 && fld w 0 1 == 0) <| .ok (.cpadv (dueOf w))
  | 0x1A => need (xeOk w && fld w 15 8 == 0 && fld w 0 1 == 0) <| sels [fld w 8 7, fld w 1 7] <|
      .ok (.wmwait (sel (fld w 8 7)) (sel (fld w 1 7)))
  | 0x1B => need (xeOk w && fld w 15 8 == 0 && fld w 1 7 == 73 && fld w 0 1 == 0) <| sels [fld w 8 7] <|
      .ok (.cpreset (sel (fld w 8 7)))
  | _ => .bad 0xA1

/-- The buffer of a BUF code (R304). -/
def bufOf : Nat → Buf
  | 0 => .a | 1 => .w | _ => .c

/-- The atomic operation of a SUB code (R305). -/
def amoOf : Nat → AmoOp
  | 0 => .add | 1 => .and | 2 => .or | 3 => .xor | 4 => .min | 5 => .max | 6 => .swap | 7 => .cas | 8 => .fadd | _ => .cadd

/-- Format MR with a register in V. -/
def mrOp (f : MR → Instr) (k : Slot) (w : Nat) : DecodeResult :=
  need (!flag w 31 && fld w 23 2 != 3 && fld w 16 7 < 64) <| sels [fld w 9 7] <|
    .ok (f ⟨k, bufOf (fld w 23 2), BitVec.ofNat 6 (fld w 16 7), sel (fld w 9 7), BitVec.ofNat 9 (fld w 0 9)⟩)

/-- Format MR with a source in V. -/
def msOp (f : MRS → Instr) (k : Slot) (w : Nat) : DecodeResult :=
  need (!flag w 31 && fld w 23 2 != 3) <| sels [fld w 16 7, fld w 9 7] <|
    .ok (f ⟨k, bufOf (fld w 23 2), sel (fld w 16 7), sel (fld w 9 7), BitVec.ofNat 9 (fld w 0 9)⟩)

/-- M1-only operations (R306 step 2). -/
def m1Only (k : Slot) (r : DecodeResult) : DecodeResult := if k = .m1 then r else .bad 0xA4

/-- Format MG with V and B unused or used as the flags say, and SUB left to the caller. -/
def mgOp (useV useB : Bool) (r : DecodeResult) (w : Nat) : DecodeResult :=
  need (!flag w 31 && (useV || fld w 18 7 == 73) && (useB || fld w 4 7 == 73)) <|
    sels ([fld w 11 7] ++ (if useV then [fld w 18 7] else []) ++ (if useB then [fld w 4 7] else [])) r

/-- A bar form other than init: A and B unused. -/
def barOp (f : BitVec 6 → Instr) (w : Nat) : DecodeResult :=
  need (fld w 12 7 == 73) (.ok (f (BitVec.ofNat 6 (fld w 19 6))))

/-- The M opcode map (R305). -/
def mop (k : Slot) (w : Nat) : DecodeResult :=
  match fld w 25 6 with
  | 0x01 => mrOp .ld k w
  | 0x02 => msOp .st k w
  | 0x03 => mrOp .ldt k w
  | 0x04 => msOp .stt k w
  | 0x05 => m1Only k <| need (!flag w 31 && fld w 23 2 != 3 && fld w 16 7 < 16) <| sels [fld w 9 7] <|
      .ok (.ldsc (bufOf (fld w 23 2)) (BitVec.ofNat 4 (fld w 16 7)) (sel (fld w 9 7)) (BitVec.ofNat 9 (fld w 0 9)))
  | 0x06 => m1Only k <| need (!flag w 31 && fld w 23 2 != 3 && fld w 16 7 < 64) <| sels [fld w 9 7] <|
      .ok (.ldbf (bufOf (fld w 23 2)) (BitVec.ofNat 6 (fld w 16 7)) (sel (fld w 9 7)) (BitVec.ofNat 3 (fld w 6 3))
        (BitVec.ofNat 6 (fld w 0 6)))
  | 0x07 => need (!flag w 31 && fld w 18 7 < 64 && fld w 0 4 < 10) <| sels [fld w 11 7, fld w 4 7] <|
      .ok (.amoOp k (amoOf (fld w 0 4)) (BitVec.ofNat 6 (fld w 18 7)) (sel (fld w 11 7)) (sel (fld w 4 7)))
  | 0x10 => need (fld w 0 4 ≤ 1) <| mgOp false true
      (.ok (if fld w 0 4 = 0 then .ldgRow k (sel (fld w 11 7)) (sel (fld w 4 7))
        else .ldgWord k (sel (fld w 11 7)) (sel (fld w 4 7)))) w
  | 0x11 => need (fld w 0 4 ≤ 1) <| mgOp true true
      (.ok (if fld w 0 4 = 0 then .stgRow k (sel (fld w 18 7)) (sel (fld w 11 7)) (sel (fld w 4 7))
        else .stgWord k (sel (fld w 18 7)) (sel (fld w 11 7)) (sel (fld w 4 7)))) w
  | 0x12 => need (fld w 0 4 < 8) <| mgOp false true
      (.ok (.ldff k (sel (fld w 11 7)) (sel (fld w 4 7)) (BitVec.ofNat 3 (fld w 0 4)))) w
  | 0x13 => need (fld w 0 4 < 10) <| mgOp true true
      (.ok (.amogOp k (amoOf (fld w 0 4)) (sel (fld w 18 7)) (sel (fld w 11 7)) (sel (fld w 4 7)))) w
  | 0x14 => need (fld w 0 4 == 0) <| mgOp true false (.ok (.rst k (sel (fld w 18 7)) (sel (fld w 11 7)))) w
  | 0x15 => need (fld w 0 4 == 0) <| mgOp false false (.ok (.rld k (sel (fld w 11 7)))) w
  | 0x16 => need (!flag w 31 && fld w 18 7 < 64 && fld w 7 4 ≤ 5 && fld w 0 4 == 0 && fld w 18 7 + fld w 4 2 ≤ 63) <|
      sels [fld w 11 7] <|
      .ok (.rred k (BitVec.ofNat 6 (fld w 18 7)) (sel (fld w 11 7)) (BitVec.ofNat 4 (fld w 7 4)) (flag w 6)
        (BitVec.ofNat 2 (fld w 4 2)))
  | 0x17 => need (fld w 0 4 ≤ 1) <| mgOp false true
      (.ok (if fld w 0 4 = 0 then .rfaaI64 k (sel (fld w 11 7)) (sel (fld w 4 7))
        else .rfaaI32 k (sel (fld w 11 7)) (sel (fld w 4 7)))) w
  | 0x18 => need (fld w 0 4 == 0) <| mgOp true true
      (.ok (.rmc k (sel (fld w 18 7)) (sel (fld w 11 7)) (sel (fld w 4 7)))) w
  | 0x19 => bare (.clap k) w
  | 0x1A => need (!flag w 31 && fld w 19 6 < 32 && fld w 12 7 == 73 && fld w 5 7 == 73 && fld w 0 5 == 0) <|
      .ok (.fence k (BitVec.ofNat 5 (fld w 19 6)))
  | 0x1B => need (!flag w 31 && fld w 5 7 == 73) <|
      match fld w 0 5 with
      | 0 => sels [fld w 12 7] (.ok (.barInit k (BitVec.ofNat 6 (fld w 19 6)) (sel (fld w 12 7))))
      | 1 => barOp (.barArr k) w
      | 2 => barOp (.barWait k) w
      | 3 => barOp (.barSync k) w
      | 4 => barOp (.barDep k) w
      | 5 => barOp (.barEnd k) w
      | _ => .bad 0xA1
  | 0x1C => need (!flag w 31 && fld w 19 6 < 32 && fld w 5 7 == 73 && fld w 0 5 == 0) <| sels [fld w 12 7] <|
      .ok (.fbar k (BitVec.ofNat 5 (fld w 19 6)) (sel (fld w 12 7)))
  | 0x1D => need (fld w 0 4 ≤ 1) <| mgOp false true
      (.ok (if fld w 0 4 = 0 then .guardSet k (sel (fld w 11 7)) (sel (fld w 4 7))
        else .guardClr k (sel (fld w 11 7)) (sel (fld w 4 7)))) w
  | 0x1E => need (!flag w 31) <| sels [fld w 0 7] <|
      .ok (.rmg k (BitVec.ofNat 6 (fld w 19 6)) (BitVec.ofNat 6 (fld w 13 6)) (BitVec.ofNat 6 (fld w 7 6))
        (sel (fld w 0 7)))
  | 0x1F => need (!flag w 31 && fld w 19 6 == 0 && fld w 5 7 == 73 && fld w 0 5 ≤ 1) <| sels [fld w 12 7] <|
      .ok (if fld w 0 5 = 0 then .tagwFull k (sel (fld w 12 7)) else .tagwEmpty k (sel (fld w 12 7)))
  | _ => .bad 0xA1

/-- The no-operation class (R293). -/
def noop (k : Slot) (w : Nat) : DecodeResult :=
  if w = 0 then .ok (.idle k)
  else if w = 0x00800000 then .ok (.kmark k)
  else need (!flag w 31 && fld w 22 3 == 1 && fld w 0 12 == 0) <|
    .ok (.rep k (BitVec.ofNat 4 (fld w 18 4)) (BitVec.ofNat 2 (fld w 16 2)) (BitVec.ofNat 2 (fld w 14 2))
      (BitVec.ofNat 2 (fld w 12 2)))

end Decode

/-- The operation that a slot word names in its slot, or its decode fault (R288, R289, R306). -/
def decodeSlot (k : Slot) (w : SlotWord) : DecodeResult :=
  if Decode.fld w.toNat 25 6 = 0 then Decode.noop k w.toNat
  else match k with
    | .s0 | .s1 => Decode.scalar k w.toNat
    | .v0 | .v1 | .v2 => Decode.vector k w.toNat
    | .x => Decode.xop w.toNat
    | .m0 | .m1 => Decode.mop k w.toNat

/-- The word of slot k in a bundle (R287). -/
def Bundle.word (b : Bundle) (k : Slot) : SlotWord := BitVec.ofNat 32 (b.toNat / 2 ^ (32 * k.num))

/-- The bundle whose slot k holds w and whose other slots are idle. -/
def Bundle.single (k : Slot) (w : SlotWord) : Bundle := BitVec.ofNat 256 (w.toNat * 2 ^ (32 * k.num))

/-- The eight decoded slots of a bundle, in ascending slot order. -/
def decodeBundle (b : Bundle) : List (Slot × DecodeResult) := Slot.all.map (fun k => (k, decodeSlot k (Bundle.word b k)))

namespace Encode

/-- Bit 31 and the opcode. -/
def head (h : Bool) (op : Nat) : Nat := b2n h * 2 ^ 31 + op * 2 ^ 25

/-- Format SR. -/
def sr (op : Nat) (f : SR) (fn : Nat) : Nat :=
  head f.h op + f.dst.toNat * 2 ^ 19 + f.a.num * 2 ^ 12 + f.b.num * 2 ^ 5 + fn
/-- Format SR with b unused. -/
def su (op : Nat) (f : SU) : Nat := head f.h op + f.dst.toNat * 2 ^ 19 + f.a.num * 2 ^ 12 + 73 * 2 ^ 5
/-- Format SI. -/
def si (op : Nat) (f : SI) : Nat := head f.h op + f.dst.toNat * 2 ^ 19 + f.a.num * 2 ^ 12 + f.imm.toNat
/-- Format SI with a shift count. -/
def sh (op : Nat) (f : SH) : Nat := head f.h op + f.dst.toNat * 2 ^ 19 + f.a.num * 2 ^ 12 + f.imm.toNat
/-- Format SL. -/
def sl (op : Nat) (f : SL) : Nat := head f.h op + f.dst.toNat * 2 ^ 19 + f.imm.toNat
/-- Format SY or SR of an S0 operation. -/
def sy (op dst a low : Nat) : Nat := op * 2 ^ 25 + dst * 2 ^ 19 + a * 2 ^ 12 + low

/-- The fields of format V that every form shares. -/
def vhead (h : Bool) (op fmt : Nat) (p w : Bool) (dst a b : Nat) : Nat :=
  head h op + fmt * 2 ^ 22 + b2n p * 2 ^ 21 + b2n w * 2 ^ 20 + dst * 2 ^ 14 + a * 2 ^ 7 + b
/-- Format V with two sources. -/
def vf (op : Nat) (f : VF) : Nat := vhead f.h op f.fmt.code f.p f.w f.dst.toNat f.a.num f.b.num
/-- Format V with b unused. -/
def vu (op : Nat) (f : VU) : Nat := vhead f.h op f.fmt.code f.p f.w f.dst.toNat f.a.num 73
/-- Format V with an immediate b. -/
def vi (op : Nat) (f : VI) : Nat := vhead f.h op f.fmt.code f.p f.w f.dst.toNat f.a.num f.k.toNat
/-- A compare. -/
def vc (op : Nat) (f : VC) : Nat := vhead f.h op f.fmt.code f.p f.w f.dst.toNat f.a.num f.b.num
/-- The code of a rounding mode (R246). -/
def rm : Rm → Nat
  | .rne => 0 | .rtz => 1 | .up => 2 | .down => 3 | .sr => 4
/-- A conversion. -/
def vv (op : Nat) (f : VV) : Nat :=
  vhead f.h op f.fmt.code f.p f.w f.dst.toNat f.a.num (f.target.toNat * 8 + rm f.rm)
/-- Predicate logic. -/
def ql (op : Nat) (f : QL) : Nat := vhead f.h op 0 false f.w f.dst.toNat f.a.toNat f.b.toNat
/-- Format XE. -/
def xe (op : Nat) (d : Due) (a b : Nat) (e : Bool) : Nat :=
  op * 2 ^ 25 + d.de.toNat * 2 ^ 23 + d.dm.toNat * 2 ^ 15 + a * 2 ^ 8 + b * 2 + b2n e
/-- The code of a buffer. -/
def buf : Buf → Nat
  | .a => 0 | .w => 1 | .c => 2
/-- The code of an atomic operation. -/
def amo : AmoOp → Nat
  | .add => 0 | .and => 1 | .or => 2 | .xor => 3 | .min => 4 | .max => 5 | .swap => 6 | .cas => 7 | .fadd => 8 | .cadd => 9
/-- Format MR. -/
def mr (op : Nat) (b : Buf) (v a imm : Nat) : Nat := op * 2 ^ 25 + buf b * 2 ^ 23 + v * 2 ^ 16 + a * 2 ^ 9 + imm
/-- Format MG. -/
def mg (op v a b sub : Nat) : Nat := op * 2 ^ 25 + v * 2 ^ 18 + a * 2 ^ 11 + b * 2 ^ 4 + sub
/-- Format MS. -/
def ms (op idx a b sub : Nat) : Nat := op * 2 ^ 25 + idx * 2 ^ 19 + a * 2 ^ 12 + b * 2 ^ 5 + sub
/-- The code of a compare condition. -/
def cmp : Cmp → Nat
  | .eq => 0 | .ne => 1 | .lt => 2 | .ge => 3 | .ltn => 4 | .gen => 5
/-- The code of a branch condition. -/
def br : BrCond → Nat
  | .always => 0 | .z => 1 | .nz => 2 | .lt => 3 | .ge => 4

/-- The slot and the word of a slot operation; `none` for a step of another agent, which has no word. -/
def word : Instr → Option (Slot × Nat)
  | .idle k => some (k, 0)
  | .kmark k => some (k, 0x00800000)
  | .rep k cnt dd da db =>
      some (k, 2 ^ 22 + cnt.toNat * 2 ^ 18 + dd.toNat * 2 ^ 16 + da.toNat * 2 ^ 14 + db.toNat * 2 ^ 12)
  | .hint k h bits => some (k, head h 0x3E + bits.toNat)
  | .add f => some (f.slot, sr 0x01 f 0)
  | .sub f => some (f.slot, sr 0x02 f 0)
  | .and f => some (f.slot, sr 0x03 f 0)
  | .or f => some (f.slot, sr 0x04 f 0)
  | .xor f => some (f.slot, sr 0x05 f 0)
  | .andn f => some (f.slot, sr 0x06 f 0)
  | .sll f => some (f.slot, sr 0x07 f 0)
  | .srl f => some (f.slot, sr 0x08 f 0)
  | .sra f => some (f.slot, sr 0x09 f 0)
  | .rol f => some (f.slot, sr 0x0A f 0)
  | .min f => some (f.slot, sr 0x0B f 0)
  | .max f => some (f.slot, sr 0x0C f 0)
  | .minn f => some (f.slot, sr 0x0D f 0)
  | .maxn f => some (f.slot, sr 0x0E f 0)
  | .cmpCc f c => some (f.slot, sr 0x0F f (cmp c))
  | .cmov f => some (f.slot, sr 0x10 f 0)
  | .mul f => some (f.slot, sr 0x11 f 0)
  | .mulh f => some (f.slot, sr 0x12 f 0)
  | .mulhn f => some (f.slot, sr 0x13 f 0)
  | .div f => some (f.slot, sr 0x14 f 0)
  | .divn f => some (f.slot, sr 0x15 f 0)
  | .rem f => some (f.slot, sr 0x16 f 0)
  | .remn f => some (f.slot, sr 0x17 f 0)
  | .clz f => some (f.slot, su 0x18 f)
  | .ctz f => some (f.slot, su 0x19 f)
  | .popc f => some (f.slot, su 0x1A f)
  | .bfx f n => some (f.slot, sr 0x1B f n.toNat)
  | .bins f n => some (f.slot, sr 0x1C f n.toNat)
  | .brev f => some (f.slot, su 0x1D f)
  | .addi f => some (f.slot, si 0x20 f)
  | .andi f => some (f.slot, si 0x21 f)
  | .ori f => some (f.slot, si 0x22 f)
  | .xori f => some (f.slot, si 0x23 f)
  | .slli f => some (f.slot, sh 0x24 f)
  | .srli f => some (f.slot, sh 0x25 f)
  | .srai f => some (f.slot, sh 0x26 f)
  | .slti f => some (f.slot, si 0x27 f)
  | .sltni f => some (f.slot, si 0x28 f)
  | .seqi f => some (f.slot, si 0x29 f)
  | .movl f => some (f.slot, sl 0x2A f)
  | .movh f => some (f.slot, sl 0x2B f)
  | .ldl k h dst idx => some (k, head h 0x2C + dst.toNat * 2 ^ 19 + idx.toNat)
  | .brCc c a off => some (.s0, 0x30 * 2 ^ 25 + br c * 2 ^ 22 + a.num * 2 ^ 15 + off.toNat)
  | .loop a off => some (.s0, 0x31 * 2 ^ 25 + a.toNat * 2 ^ 15 + off.toNat)
  | .call dst t => some (.s0, 0x32 * 2 ^ 25 + dst.toNat * 2 ^ 19 + t.toNat * 2 ^ 5)
  | .jr a => some (.s0, sy 0x33 0 a.num (73 * 2 ^ 5))
  | .exit => some (.s0, 0x34 * 2 ^ 25)
  | .yield => some (.s0, 0x35 * 2 ^ 25)
  | .trap n => some (.s0, sy 0x36 0 73 n.toNat)
  | .uret => some (.s0, 0x37 * 2 ^ 25)
  | .srd k dst n => some (k, sy 0x38 dst.toNat 73 n.toNat)
  | .swr a n => some (.s0, sy 0x39 0 a.num n.toNat)
  | .scopew e a => some (.s0, sy 0x3A e.toNat a.num (73 * 2 ^ 5))
  | .winw w a b => some (.s0, sy 0x3B w.toNat a.num (b.num * 2 ^ 5))
  | .winr k dst w hi => some (k, sy 0x3C dst.toNat 73 (73 * 2 ^ 5 + b2n hi * 2 ^ 4 + w.toNat))
  | .inval a b => some (.s0, sy 0x3D 0 a.num (b.num * 2 ^ 5))
  | .vadd f => some (f.slot, vf 0x01 f)
  | .vsub f => some (f.slot, vf 0x02 f)
  | .vmul f => some (f.slot, vf 0x03 f)
  | .vfma f => some (f.slot, vf 0x04 f)
  | .vfms f => some (f.slot, vf 0x05 f)
  | .vmin f => some (f.slot, vf 0x06 f)
  | .vmax f => some (f.slot, vf 0x07 f)
  | .vabs f => some (f.slot, vu 0x08 f)
  | .vneg f => some (f.slot, vu 0x09 f)
  | .vadds f => some (f.slot, vf 0x0A f)
  | .vsubs f => some (f.slot, vf 0x0B f)
  | .vaddsn f => some (f.slot, vf 0x0C f)
  | .vand f => some (f.slot, vf 0x0D f)
  | .vor f => some (f.slot, vf 0x0E f)
  | .vxor f => some (f.slot, vf 0x0F f)
  | .vshl f => some (f.slot, vf 0x10 f)
  | .vshr f => some (f.slot, vf 0x11 f)
  | .vsra f => some (f.slot, vf 0x12 f)
  | .vshli f => some (f.slot, vi 0x13 f)
  | .vcmpEq f => some (f.slot, vc 0x14 f)
  | .vcmpLt f => some (f.slot, vc 0x15 f)
  | .vcmpLe f => some (f.slot, vc 0x16 f)
  | .vcmpNe f => some (f.slot, vc 0x17 f)
  | .vcmpLtn f => some (f.slot, vc 0x18 f)
  | .vcvt f => some (f.slot, vv 0x19 f)
  | .vcvts f => some (f.slot, vv 0x1A f)
  | .vsel f => some (f.slot, vf 0x1B f)
  | .vmov f => some (f.slot, vu 0x1C f)
  | .vbcast f => some (f.slot, vi 0x1D f)
  | .vperm f => some (f.slot, vf 0x1E f)
  | .vtrans f => some (f.slot, vu 0x1F f)
  | .vrsum f => some (f.slot, vu 0x20 f)
  | .vcsum f => some (f.slot, vu 0x21 f)
  | .vrmax f => some (f.slot, vu 0x22 f)
  | .vcmax f => some (f.slot, vu 0x23 f)
  | .vrmin f => some (f.slot, vu 0x24 f)
  | .vcmin f => some (f.slot, vu 0x25 f)
  | .vshp k h c => some (k, vhead h 0x26 0 false false 0 73 c.toNat)
  | .vmovz f => some (f.slot, vu 0x27 f)
  | .vpfx k h p w dst a => some (k, vhead h 0x28 0 p w dst.toNat a.num 73)
  | .qand f => some (f.slot, ql 0x29 f)
  | .qor f => some (f.slot, ql 0x2A f)
  | .qxor f => some (f.slot, ql 0x2B f)
  | .qnot k h w dst a => some (k, vhead h 0x2C 0 false w dst.toNat a.toNat 73)
  | .vdq f => some (f.slot, vi 0x2D f)
  | .vmac f => some (f.slot, vf 0x30 f)
  | .vrot f => some (f.slot, vi 0x31 f)
  | .vsplat f => some (f.slot, vu 0x32 f)
  | .xexp2 f => some (f.slot, vu 0x01 f)
  | .xlog2 f => some (f.slot, vu 0x02 f)
  | .xrcp f => some (f.slot, vu 0x03 f)
  | .xrsqrt f => some (f.slot, vu 0x04 f)
  | .xsqrt f => some (f.slot, vu 0x05 f)
  | .xsin f => some (f.slot, vu 0x06 f)
  | .xcos f => some (f.slot, vu 0x07 f)
  | .xtanh f => some (f.slot, vu 0x08 f)
  | .xsigm f => some (f.slot, vu 0x09 f)
  | .xgelu f => some (f.slot, vu 0x0A f)
  | .xdiv f => some (f.slot, vf 0x0B f)
  | .mm d a b => some (.x, xe 0x10 d a.num b.num false)
  | .mmacro d a b => some (.x, xe 0x11 d a.toNat b.num false)
  | .accz t => some (.x, xe 0x12 ⟨0, 0⟩ t.toNat 73 false)
  | .rqr d e a b => some (.x, xe 0x13 d a.num b.num e)
  | .rap d e a b => some (.x, xe 0x14 d a.toNat b.num e)
  | .rrd h p w dst a => some (.x, vhead h 0x15 0 p w dst.toNat a.num 73)
  | .rcl d => some (.x, xe 0x16 d 73 73 false)
  | .rang h p w dst a half => some (.x, vhead h 0x17 0 p w dst.toNat a.num (b2n half))
  | .cp d a => some (.x, xe 0x18 d a.num 73 false)
  | .cpadv d => some (.x, xe 0x19 d 73 73 false)
  | .wmwait a b => some (.x, xe 0x1A ⟨0, 0⟩ a.num b.num false)
  | .cpreset a => some (.x, xe 0x1B ⟨0, 0⟩ a.num 73 false)
  | .ld f => some (f.slot, mr 0x01 f.buf f.v.toNat f.a.num f.imm.toNat)
  | .st f => some (f.slot, mr 0x02 f.buf f.v.num f.a.num f.imm.toNat)
  | .ldt f => some (f.slot, mr 0x03 f.buf f.v.toNat f.a.num f.imm.toNat)
  | .stt f => some (f.slot, mr 0x04 f.buf f.v.num f.a.num f.imm.toNat)
  | .ldsc b v a imm => some (.m1, mr 0x05 b v.toNat a.num imm.toNat)
  | .ldbf b v a xp imm => some (.m1, mr 0x06 b v.toNat a.num (xp.toNat * 64 + imm.toNat))
  | .amoOp k op v a b => some (k, mg 0x07 v.toNat a.num b.num (amo op))
  | .ldgRow k a b => some (k, mg 0x10 73 a.num b.num 0)
  | .ldgWord k a b => some (k, mg 0x10 73 a.num b.num 1)
  | .stgRow k v a b => some (k, mg 0x11 v.num a.num b.num 0)
  | .stgWord k v a b => some (k, mg 0x11 v.num a.num b.num 1)
  | .ldff k a b q => some (k, mg 0x12 73 a.num b.num q.toNat)
  | .amogOp k op v a b => some (k, mg 0x13 v.num a.num b.num (amo op))
  | .rst k v a => some (k, mg 0x14 v.num a.num 73 0)
  | .rld k a => some (k, mg 0x15 73 a.num 73 0)
  | .rred k v a f o n =>
      some (k, 0x16 * 2 ^ 25 + v.toNat * 2 ^ 18 + a.num * 2 ^ 11 + f.toNat * 2 ^ 7 + b2n o * 2 ^ 6 + n.toNat * 2 ^ 4)
  | .rfaaI64 k a b => some (k, mg 0x17 73 a.num b.num 0)
  | .rfaaI32 k a b => some (k, mg 0x17 73 a.num b.num 1)
  | .rmc k v a b => some (k, mg 0x18 v.num a.num b.num 0)
  | .clap k => some (k, 0x19 * 2 ^ 25)
  | .fence k e => some (k, ms 0x1A e.toNat 73 73 0)
  | .barInit k b a => some (k, ms 0x1B b.toNat a.num 73 0)
  | .barArr k b => some (k, ms 0x1B b.toNat 73 73 1)
  | .barWait k b => some (k, ms 0x1B b.toNat 73 73 2)
  | .barSync k b => some (k, ms 0x1B b.toNat 73 73 3)
  | .barDep k b => some (k, ms 0x1B b.toNat 73 73 4)
  | .barEnd k b => some (k, ms 0x1B b.toNat 73 73 5)
  | .fbar k e a => some (k, ms 0x1C e.toNat a.num 73 0)
  | .guardSet k a b => some (k, mg 0x1D 73 a.num b.num 0)
  | .guardClr k a b => some (k, mg 0x1D 73 a.num b.num 1)
  | .rmg k d a b c => some (k, 0x1E * 2 ^ 25 + d.toNat * 2 ^ 19 + a.toNat * 2 ^ 13 + b.toNat * 2 ^ 7 + c.num)
  | .tagwFull k a => some (k, ms 0x1F 0 a.num 73 0)
  | .tagwEmpty k a => some (k, ms 0x1F 0 a.num 73 1)
  | _ => none

end Encode

/-- The slot in which a slot operation issues; `none` for a step of another agent. -/
def Instr.slot? (i : Instr) : Option Slot := (Encode.word i).map (·.1)

/-- The slot word of a slot operation. -/
def encodeWord (i : Instr) : SlotWord := BitVec.ofNat 32 ((Encode.word i).elim 0 (·.2))

/-- The bundle that holds a slot operation in its slot and idle words elsewhere. -/
def encode (i : Instr) : Bundle := Bundle.single ((Encode.word i).elim .s0 (·.1)) (encodeWord i)

/-- The instruction that the decoder reads from the bits w of a bundle of which at most one slot is not idle: that slot's
operation, or idle when every word is zero; none where the decoder refuses, or where two slots hold words. -/
def decodeTableWord (_nbits w : Nat) : Option Instr :=
  match Slot.all.filter (fun k => Bundle.word (BitVec.ofNat 256 w) k != 0) with
  | [] => some (.idle .s0)
  | [k] => match decodeSlot k (Bundle.word (BitVec.ofNat 256 w) k) with
    | .ok i => some i
    | .bad _ => none
  | _ => none

end Sys2Proof
end

