-- ==== Sys2Proof/Machine/Walker.lean ====
section
/-!
DEFINITION. The walker (R159 to R161, R168): the enumeration of points, their hand-out to contexts, the end of an iteration
and the boundary of a step.
-/
namespace Sys2Proof.Machine
open Sys2Proof

/-! ### Taking an iteration (R160) -/

/-- The registers that an iteration presets, s0 to s8. -/
def Iteration.preset (i : Iteration) (s : Vector Word 64) : Vector Word 64 :=
  let w := (List.range 6).map (fun d => i.idx.getD d 0) ++ [BitVec.ofNat 64 i.slot, i.req, BitVec.ofNat 64 i.n]
  (w.zip (List.range 9)).foldl (fun s p => vset s p.2 p.1) s

/-- A context takes an iteration (R160): its preset registers, pc and lpc, no hold record (R295), and the first bundle as a
restart point (R202). -/
def Context.takeIteration (t : Context) (l : Launch) (i : Iteration) : Context :=
  ({ t with
    s := i.preset t.s
    pc := l.imgBase + l.f 2 45 32
    lpc := BitVec.ofNat 14 l.litBase
    holds := Vector.replicate 8 none
    redirect := none
    iteration := some (i.n, i.slot)
    atRestart := true } : Context).mark t.cc

/-- An idle context takes an iteration and becomes ready. -/
def Context.begin (t : Context) (l : Launch) (i : Iteration) : Context := { t.takeIteration l i with mode := .ready }

/-! ### Enumeration (R159, R176) -/

/-- A launch hands out iterations: it is running, and neither an end nor a cancellation stops it (R164). -/
def Launch.handing (l : Launch) : Bool := l.state == .running && (!l.cancelled || (l.standing && l.inStep))

/-- The walker waits at an update instant (R183). -/
def Launch.atInstant (l : Launch) : Bool := ((l.cov.bind (·.instant))).isSome

/-- The walker moves past a point; a slot that is done leaves its step. -/
def Launch.advance (l : Launch) : Launch :=
  let l := { l with nextN := l.nextN + 1, stepPos := l.stepPos + 1 }
  if l.stepPos < l.nestSize then l
  else { l with stepPos := 0, stepBase := l.nextN, stepSlots := l.stepSlots.tail, enumerated := l.stepSlots.tail.isEmpty && !l.standing }

/-- The next point enumerated: the iteration it gives, if it is computed (R176, R177, R183). -/
def Launch.enumerate (l : Launch) : Option Iteration × Launch :=
  match l.stepSlots.head? with
  | none => (none, l)
  | some (slot, req) =>
    let pos := l.stepPos
    let n := l.nextN
    let it : Iteration := ⟨n, slot, req, l.indices (tupleOf l.counts pos)⟩
    match l.cov with
    | none => (some it, l.advance)
    | some c =>
      let computed := l.computedAt c.f pos
      let audit := !computed && l.auditHit n
      let c := { c with points := Assoc.put c.points n ⟨l.stepBase, !computed, audit, .handed, false, none, false⟩ }
      if computed || audit then
        let since := if l.repro then satInc 0xFFFF c.since else c.since
        let instant := if l.repro && l.upd ≠ 0 && l.upd ≤ since then some n else none
        (some it, { l.advance with cov := some { c with since := since, instant := instant } })
      else (none, { l.advance with cov := some c })

/-- The contexts of a launch, in ascending core and context number: core, context and its state. -/
def State.launchContexts (s : State) (key : Nat) : List (Nat × Nat × Context) :=
  (s.cores.map (fun p => ((List.range 4).filter (fun x => (p.2.ctx x).launch == some key)).map
    (fun x => (p.1, x, p.2.ctx x)))).flatten

/-- A context that is free to take an iteration. -/
def Context.idle (t : Context) : Bool := t.mode == .free && t.iteration.isNone

/-- A context that may take a pending iteration. -/
def Context.lacksPending (t : Context) : Bool := t.mode != .killed && t.nextIteration.isNone && !t.idle

/-- Every context of a launch on a core has been killed. -/
def State.coreDead (s : State) (key c : Nat) : Bool :=
  (s.core c).ctxs.all (fun t => t.launch != some key || t.mode == .killed)
    && !(s.core c).saved.any (fun v => v.ctx.launch == some key)

/-- An iteration given to context x of core c: to an idle context at once, to another as its pending one (R160). -/
def State.give (s : State) (key c x : Nat) (i : Iteration) : State :=
  match s.launch? (some key) with
  | none => s
  | some l =>
    (s.modCtx c x (fun t => if t.idle then t.begin l i else { t with nextIteration := some i })).modLaunch key
      (fun l => { l with issued := l.issued + 1 })

/-- A point of a core whose contexts have all been killed (R165): dropped, and counted as issued. -/
def State.dropIteration (s : State) (key n : Nat) : State :=
  s.modLaunch key (fun l => { l.dropPoint n with issued := l.issued + 1 })

/-- The core that static distribution binds an ordinal to. -/
def Launch.coreOf (l : Launch) (n : Nat) : Nat := l.place.getD (n % l.place.length) 0

/-- The first context in a list that became free before every other. -/
def firstFreed (l : List (Nat × Nat × Context)) : Option (Nat × Nat × Context) :=
  l.find? (fun p => l.all (fun q => p.2.2.freeAt ≤ q.2.2.freeAt))

/-- The context that takes the next point: an idle one first, then one without a pending iteration. Of the idle ones it is that
which became free first under dynamic distribution, and the lowest-numbered under static (R159). -/
def pickContext (dynamic : Bool) (l : List (Nat × Nat × Context)) : Option (Nat × Nat) :=
  let idle := l.filter (fun p => p.2.2.idle)
  ((if dynamic then firstFreed idle else idle.head?).or (l.find? (fun p => p.2.2.lacksPending))).map (fun p => (p.1, p.2.1))

/-- One step of the walker: a waiting point goes to its core, or the next point is enumerated (R159). `idle` restricts the
hand-out to contexts that are free. -/
def State.walk1 (s : State) (key : Nat) (idle : Bool) : Option State :=
  match s.launch? (some key) with
  | none => none
  | some l =>
    if !l.handing then none
    else
      let all := (s.launchContexts key).filter (fun p => !idle || p.2.2.idle)
      let ofCore (c : Nat) : Option (Nat × Nat) := pickContext false (all.filter (fun p => p.1 == c))
      if l.f 0 19 19 = 0 then
        match pickContext true all with
        | none => none
        | some (c, x) =>
          if l.stepSlots.isEmpty || l.atInstant then none
          else match l.enumerate with
            | (some i, l') => some ((s.modLaunch key (fun _ => l')).give key c x i)
            | (none, l') => some (s.modLaunch key (fun _ => l'))
      else
        match (List.range l.heldPoints.length).find? (fun j => match l.heldPoints[j]? with
          | some (c, _) => (ofCore c).isSome && !((l.heldPoints.take j).any (fun q => q.1 == c))
          | none => false) with
        | some j =>
          match l.heldPoints[j]? with
          | some (c, i) => match ofCore c with
            | some (c, x) => some ((s.modLaunch key (fun l => { l with heldPoints := l.heldPoints.eraseIdx j })).give key c x i)
            | none => none
          | none => none
        | none =>
          let wants := l.place.any (fun c => (ofCore c).isSome || s.coreDead key c)
          if !wants || l.stepSlots.isEmpty || l.atInstant then none
          else match l.enumerate with
            | (some i, l') =>
              let c := l.coreOf i.n
              let s := s.modLaunch key (fun _ => l')
              if s.coreDead key c then some (s.dropIteration key i.n)
              else some (s.modLaunch key (fun l => { l with heldPoints := l.heldPoints ++ [(c, i)] }))
            | (none, l') => some (s.modLaunch key (fun _ => l'))

/-- ITERATION_HANDOUT (R159, R160, R168). -/
def execIterationHandout (key : Nat) (s : State) : Res := .next ((s.walk1 key false).getD s)

/-- Waiting points of cores whose contexts have all been killed are dropped (R165). -/
def State.dropDead (s : State) (key : Nat) : Option State :=
  match s.launch? (some key) with
  | none => none
  | some l =>
    match l.heldPoints.find? (fun p => s.coreDead key p.1) with
    | none => none
    | some q => some ((s.modLaunch key (fun l => { l with heldPoints := l.heldPoints.erase q })).dropIteration key q.2.n)

/-! ### The end of an iteration (R160, R216, R325) -/

/-- A context leaves its launch (R160, R216, R325): it departs from its barriers, its results in flight and due entries go,
and its committed stores stay to be sent, under the windows that they were issued under (R115). -/
def Core.retireCtx (k : Core) (x : Nat) : Core :=
  let k := k.departAll x
  let t := k.ctx x
  k.setCtx x { t with
    mode := .free, launch := none, inflight := [], reel := [], chain := [], parked := [], parkedChain := [], due := []
    redirect := none, parkedRedirect := none, regionCmds := [], rotFlags := [], syncOn := [], pendingFault := none
    iteration := none, nextIteration := none, gfrec := 0 }

/-- No iteration is left for a context of a launch on core c: the walker has no further point, or hands out none. -/
def Launch.noneLeft (l : Launch) (c : Nat) : Bool :=
  !l.handing || (l.enumerated && !l.heldPoints.any (fun p => l.f 0 19 19 == 0 || p.1 == c))

/-- An iteration has ended by exit: DONE, and the state of its point (R151, R180, R183). -/
def State.countExit (s : State) (key c x : Nat) : State :=
  let t := s.ctxOf c x
  s.modLaunch key (fun l =>
    let l := { l with done := l.done + 1 }
    match l.cov, t.iteration with
    | some v, some (n, _) =>
      let pts := match Assoc.find v.points n with
        | some p => Assoc.put v.points n { p with stage := .exited c x t.home t.seq }
        | none => v.points
      { l with cov := some { v with points := pts, since := if l.repro then v.since else satInc 0xFFFF v.since } }
    | _, _ => l)

/-- The effects of a committed exit on its context (R232, R325): the load queue is released, patient mode and a handler end, the
record of a guard touch is discarded, and the parked results of the iteration go. -/
def Context.endIteration (t : Context) : Context :=
  { t with
    lq := []
    patient := false
    latched := []
    redirect := none
    parkedRedirect := none
    parked := []
    parkedChain := []
    inh := false
    uctl := if t.inh then t.uctl ||| 2#64 else t.uctl
    gfrec := 0
    iteration := none }

/-- exit, committed (R325): the context takes its next iteration at the next bundle, stays idle, or retires. -/
def State.exitContext (s : State) (c x : Nat) : State :=
  match (s.ctxOf c x).launch with
  | none => s
  | some key =>
    let s := (s.countExit key c x).modCtx c x (fun t => { t.endIteration with freeAt := s.cycle })
    match (s.ctxOf c x).nextIteration, s.launch? (some key) with
    | some i, some l => s.modCtx c x (fun t => { t.takeIteration l i with nextIteration := none, mode := .issuing })
    | none, some l =>
      if l.noneLeft c then (s.leave c x .free).modCore c (·.retireCtx x)
      else
        -- the walker gives the next point at once, if it has one for this context
        let s' := s.modCtx c x (fun t => { t with mode := .free })
        let others (t : State) : List (Nat × Nat × Context) :=
          (t.launchContexts key).filter (fun p => p.2.2.idle && !(p.1 == c && p.2.1 == x))
        match if (others s').isEmpty then s'.walk1 key true else none with
        | some s'' =>
          if (s''.ctxOf c x).mode = .ready then s''.modCtx c x (fun t => { t with mode := .issuing }) else s.leave c x .free
        | none => s.leave c x .free
    | _, none => s.leave c x .free

/-- Idle contexts for which no iteration is left retire (R160). -/
def State.retireIdle (s : State) (key : Nat) : Option State :=
  match s.launch? (some key) with
  | none => none
  | some l =>
    if l.state != .running && l.state != .draining then none
    else match (s.launchContexts key).find? (fun p => p.2.2.idle && p.2.2.nextIteration.isNone && l.noneLeft p.1) with
      | none => none
      | some (c, x, _) => some (s.modCore c (·.retireCtx x))

/-! ### Steps of a standing launch (R161) -/

/-- The slots whose current state is active, in ascending order. -/
def activeSlots (l : Assoc (Option Word × Option Word)) : List (Nat × Word) :=
  l.filterMap (fun p => p.2.1.map (fun r => (p.1, r)))

/-- A step starts: the current state of every slot becomes its next state. -/
def Launch.startStep (l : Launch) : Launch :=
  let slots := l.slots.map (fun p => (p.1, p.2.2, p.2.2))
  let act := activeSlots slots
  { l with
    slots := slots
    inStep := !act.isEmpty
    stepSlots := act
    stepPos := 0
    stepBase := l.nextN
    cov := l.cov.map (fun c => { c with settled := false }) }

/-- A launch with no context left that runs or waits for work: RUNNING ends (R147, R165). -/
def State.runEnded (s : State) (key : Nat) (l : Launch) : Bool :=
  l.state == .running && (s.launchContexts key).all (fun p => p.2.2.mode == .killed)
    && s.cores.all (fun p => p.2.saved.all (fun v => v.ctx.launch != some key))

/-- A step boundary of a standing launch may occur: its step has ended and, with coverage, its update has been made; or no
step runs and some slot's next state is active. None does once every context has been killed (R165). -/
def State.boundaryDue (s : State) (key : Nat) : Bool :=
  match s.launch? (some key) with
  | none => false
  | some l =>
    l.standing && l.state == .running && !s.runEnded key l && (
      if l.inStep then s.stepEnded key l && (match l.cov with
        | some c => c.settled || !l.covers
        | none => true)
      else !l.cancelled && l.slots.any (fun p => p.2.2.isSome))

/-- STEP_BOUNDARY (R161, R164, R183): STEPS counts, its value is stored, and the next step starts; a cancelled launch drains. A
start from idle is a boundary, and so an update instant, that increments nothing. -/
def execStepBoundary (key : Nat) (s : State) : Res :=
  .next (match s.launch? (some key) with
    | none => s
    | some l =>
      if !s.boundaryDue key then s
      else
        let steps := if l.inStep then l.steps + 1 else l.steps
        let s := s.modLaunch key (fun l => { l with
          steps := steps, inStep := false, cov := if l.inStep then l.cov else l.cov.map l.update })
        let addr := word l.recd 10
        let (bad, s) := if addr = 0 then (none, s) else s.agentWrite .frontEnd 15 l.asid addr (bytesOf 8 steps)
        match bad with
        | some (code, _) => s.launchFault key code addr
        | none => if l.cancelled then s else s.modLaunch key (·.startStep))

end Sys2Proof.Machine
end

