-- ==== Sys2Proof/Machine/Context.lean ====
section
/-!
DEFINITION. What happens to a context between bundles: waking from a block (R167), the end of a restart (R204), a hung
engine (R205), and the delivery of a user-level interrupt (R210).
-/
namespace Sys2Proof.Machine
open Sys2Proof

/-! ### Waking (R167) -/

/-- The condition of a block has changed. -/
def State.wakes (s : State) (c x : Nat) : Wake → Bool
  | .entry seq => ((s.ctxOf c x).lq.find? (fun e => e.seq == seq)).all (fun e => e.missing == 0)
  | .place => !((s.ctxOf c x).storesFull && (s.ctxOf c x).sq.any (fun e => e.status != .held))
  | .rows l =>
    let k := s.core c
    let mask := ((s.launch? (k.ctx x).launch).map Launch.chmask).getD 0
    let chs := (l.map (fun p => k.aboveOf s.cycle mask p.1 p.2)).flatten
    chs.isEmpty || chs.any (fun h => (k.chan h).err)
  | .count ch n =>
    let h := (s.core c).chan ch
    h.err || !h.activeAt s.cycle || n ≤ h.landedAt s.cycle
  | .tag row full => (s.core c).tags.contains row == full
  | .barrier b => !(s.ctxOf c x).ar.getLsbD b
  | .array => (s.core c).arrayHeld s.cycle < 4
  | .sequencer => (s.core c).macros.length < 2
  | .rotator => (s.core c).rotHeld s.cycle < 8
  | .channel ch n => ((s.core c).chan ch).err || ((s.core c).chan ch).queue.length + n ≤ 8
  | .commands l => l.all (s.core c).commandDone

/-- A blocked context is ready again. -/
def State.mayWake (s : State) (c x : Nat) : Bool :=
  (s.ctxOf c x).mode == .blocked && (match (s.ctxOf c x).wakeOn with
    | some w => s.wakes c x w
    | none => true)

/-- CONTEXT_WAKE (R167): a blocked context whose condition has changed becomes ready. -/
def execContextWake (c x : Nat) (s : State) : Res :=
  .next (if s.mayWake c x then s.modCtx c x (fun t => { t with mode := .ready, block := 0, wakeOn := none }) else s)

/-! ### Restarts (R204, R205) -/

/-- A restarting context's engine commands have all completed. -/
def State.mayRestart (s : State) (c x : Nat) : Bool :=
  (s.ctxOf c x).mode == .restarting && (s.ctxOf c x).regionCmds.all (s.core c).commandDone

/-- REGION_RESTART (R204 steps 6 and 7): the latches are invalidated and the context resumes at its restart point. -/
def execRegionRestart (c x : Nat) (s : State) : Res :=
  .next (if s.mayRestart c x then s.modCore c (fun k => k.dropLatches.setCtx x (k.ctx x).resumeRegion) else s)

/-- A command of a context has not completed 2^24 core cycles after its due cycle (R205). -/
def State.hung (s : State) (c x : Nat) : Bool :=
  let t := s.ctxOf c x
  (t.mode == .blocked || t.mode == .restarting)
    && t.due.any (fun d => (match d.coreDue with
        | some n => n + 2 ^ 24 ≤ s.cycle
        | none => false) && !(s.core c).commandDone d.cmd)

/-- ENGINE_HUNG (R205): the context is killed with 0x53 at its bundle. -/
def execEngineHung (c x : Nat) (s : State) : Res :=
  .next (if s.hung c x then s.takeFault c x 0x53 0 (s.ctxOf c x).pc else s)

/-! ### What comes before a bundle -/

/-- What comes before the next bundle of a context: the fault of an earlier bundle (R296, R367), a tag store whose wait is no
longer satisfied (R223), or a barrier of bar.sync whose generation is not complete (R388). -/
inductive Ahead where
  | fault (f : PendingFault) (pc : Nat)
  | block (code : Nat) (on : Wake)

/-- What comes before the next bundle of a context, if anything. -/
def Context.ahead (t : Context) : Option Ahead :=
  match t.pendingFault.bind (fun f => f.addr.map (fun a => (f, a))) with
  | some (f, a) => some (.fault f a)
  | none => match t.tagWaits with
    | some w => some (.block 4 (.tag w.row false))
    | none => (t.syncOn.find? (fun b => t.ar.getLsbD b)).map (fun b => .block 5 (.barrier b))

/-! ### User-level interrupts (R210) -/

/-- A word that makes its bundle a restart point (R202, R236, R384, R385); uret does outside a handler (R328). -/
def marksRestart (inh : Bool) : DecodeResult → Bool
  | .ok (.kmark _) | .ok (.clap _) | .ok (.fence _ _) => true
  | .ok .uret => !inh
  | _ => false

/-- The bundle at an index of a core's instruction memory. -/
def Core.bundle (k : Core) (pc : Nat) : Bundle := Assoc.get k.imem pc 0

/-- The bundle at the context's pc may be decoded: it lies in the image and its read is correct (R309). -/
def State.readable (s : State) (c x : Nat) : Bool :=
  let t := s.ctxOf c x
  ((s.launch? t.launch).map (fun l => l.inImage t.pc)).getD false && !(s.core c).badImem.contains t.pc

/-- The context's next bundle is a restart point. -/
def State.atRestartPoint (s : State) (c x : Nat) : Bool :=
  let k := s.core c
  let t := k.ctx x
  t.atRestart || (s.readable c x && (decodeBundle (k.bundle t.pc)).any (fun p => marksRestart t.inh p.2))

/-- An interrupt may be delivered to context x of core c before its next bundle. -/
def State.mayDeliver (s : State) (c x : Nat) : Bool :=
  let k := s.core c
  let t := k.ctx x
  k.cur == some x && !k.stalled && t.mode == .issuing && t.wantsInterrupt && t.pendingFault.isNone && t.ahead.isNone
    && s.atRestartPoint c x

/-- UINT_DELIVERY (R210): the held region commits, the restart point is recorded, and the context enters its handler; a
handler outside the image raises 0x97. -/
def execUintDelivery (c x : Nat) (s : State) : Res :=
  .next (
    if !s.mayDeliver c x then s
    else
      let s := s.modCore c (fun k => (k.landDue x (k.ctx x).cc).performDue x (k.ctx x).cc)
      let t := s.ctxOf c x
      let ok := ((s.launch? t.launch).map (fun l => l.inImage (field t.uctl.toNat 15 2))).getD false
      match s.commitHeld c x t.seq t.heldPops with
      | .fault code => s.takeFault c x code 0 t.pc
      | .miss pages => s.stall c pages
      | .done s =>
        if !ok then s.takeFault c x 0x97 0 t.pc
        else s.modCore c (fun k => (k.enterHandler x).setCtx x (((k.enterHandler x).ctx x).mark t.cc)))

end Sys2Proof.Machine
end

