-- ==== Sys2Proof/Machine/Dispatching.lean ====
section
/-!
DEFINITION. Dispatch, loading, rehearsal and release of launches, and their retirement (R33, R147, R153 to R158, R162, R164,
R169, R170).
-/
namespace Sys2Proof.Machine
open Sys2Proof

/-! ### The paddock (R169) -/

/-- Paddock core k. -/
def paddockCore (k : Nat) : Nat := k % 8 * 40 + 39 - k / 8
/-- The cores of the paddock, in order. -/
def State.paddock (s : State) : List Nat := (List.range s.sched.padN).map paddockCore

/-- The launches whose contexts core c holds, saved ones included. -/
def State.heldLaunches (s : State) (c : Nat) : List Nat :=
  ((s.core c).ctxs.toList ++ (s.core c).saved.map (·.ctx)).filterMap (·.launch)

/-- Core c holds a context of a launch with COMM as given. -/
def State.holdsKind (s : State) (c : Nat) (comm : Bool) : Bool :=
  (s.heldLaunches c).any (fun k => (s.launch? (some k)).any (fun l => l.comm == comm))

/-! ### The conditions of dispatch (R154, R155) -/

/-- The effective priority of a launch (R163). -/
def State.effPrio (s : State) (l : Launch) : Nat :=
  if l.state = .waiting then min 7 (l.prio + (s.cycle - l.accepted) / 2 ^ 16) else l.prio

/-- A launch holds a placement: it has been dispatched and has not retired. -/
def Launch.resident (l : Launch) : Bool := l.state != .waiting && l.state != .retired

/-- Condition 1: every dependence is satisfied (R162). -/
def State.depsMet (s : State) (l : Launch) : Bool := (s.liveDeps l).isEmpty

/-- A context that belongs to no launch. -/
def Context.unowned (t : Context) : Bool := t.launch.isNone && t.mode == .free
/-- The contexts of a core that belong to no launch. -/
def Core.unowned (k : Core) : List Nat := (List.range 4).filter (fun x => (k.ctx x).unowned)

/-- The contexts of core c that belong to no launch and that pre-emption holds for no other waiting launch (R163). -/
def State.freeFor (s : State) (key : Option Nat) (c : Nat) : List Nat :=
  (s.core c).unowned.filter (fun x => !(s.core c).kept.any (fun p => p.1 == x && some p.2 != key
    && (s.launch? (some p.2)).any (fun l => l.state == .waiting && l.status == 0)))

/-- Condition 2 on core c. -/
def State.hasContexts (s : State) (key : Nat) (l : Launch) (c : Nat) : Bool := l.ctxPer ≤ (s.freeFor (some key) c).length

/-- Two half-open ranges overlap. -/
def rangesMeet (a n b m : Nat) : Bool := a < b + m && b < a + n && n != 0 && m != 0

/-- The shot-list entries that a resident launch holds on core c: their number from SHOTBASE (R155), up to the last one until
its list has been loaded there. -/
def Launch.shotHeld (l : Launch) (c : Nat) : Nat :=
  if word l.recd 5 = 0 then 0 else (Assoc.find l.shotCounts c).getD (1024 - l.shotBase)

/-- Condition 3 on core c. -/
def State.rangesFree (s : State) (l : Launch) (c : Nat) : Bool :=
  let shots := if word l.recd 5 = 0 then 0 else 1024 - l.shotBase
  s.launches.all (fun p => !(p.2.resident && p.2.place.contains c && (
    rangesMeet l.imgBase l.imgLen p.2.imgBase p.2.imgLen || rangesMeet l.litBase l.litLen p.2.litBase p.2.litLen
      || rangesMeet l.shotBase shots p.2.shotBase (p.2.shotHeld c) || l.chmask &&& p.2.chmask != 0)))

/-- Condition 5 on core c. -/
def State.notLoading (s : State) (c : Nat) : Bool :=
  s.launches.all (fun p => !((p.2.state == .loading || p.2.state == .rehearsal) && p.2.place.contains c))

/-- A core whose die is awake (R32); one that is no longer available keeps no launch waiting (R38). -/
def State.coreReady (s : State) (c : Nat) : Bool := !s.coresAvail.getLsbD c || s.wake.ready.contains (coreDie c)

/-- The placement of a launch, with condition 2 asked for or not: the record's cores, or the lowest paddock cores that meet
conditions 2 and 3 (condition 4). -/
def State.placement (s : State) (key : Nat) (l : Launch) (contexts : Bool) : Option (List Nat) :=
  let ok (c : Nat) : Bool := s.rangesFree l c && s.coreReady c && (!contexts || s.hasContexts key l c)
  if l.comm then
    let cs := s.paddock.filter (fun c => s.coresAvail.getLsbD c && ok c)
    if cs.length < l.pcount then none else some ((cs.take l.pcount).foldl setInsert [])
  else if l.place.all ok then some l.place else none

/-- A launch accepted earlier has reserved one of these cores (R154). -/
def State.reserved (s : State) (key : Nat) (place : List Nat) : Bool :=
  s.launches.any (fun p => p.1 < key && p.2.state == .waiting && p.2.status == 0
    && (match p.2.urgentAt with
      | some t => t + 2 ^ 16 ≤ s.cycle
      | none => false) && p.2.place.any place.contains)

/-- The conditions of R155: the placement, if they hold. `pad` asks for condition 4, `contexts` for condition 2. -/
def State.meets (s : State) (key : Nat) (l : Launch) (pad contexts : Bool) : Option (List Nat) :=
  if l.state != .waiting || l.status != 0 || !s.depsMet l || !s.wake.ready.contains 15 then none
  else match s.placement key l contexts with
    | none => none
    | some place =>
      if place.all s.notLoading && (l.comm || !pad || !place.any s.paddock.contains) then some place else none

/-- The conditions of dispatch, the reservation of R154 among them. -/
def State.mayDispatch (s : State) (key : Nat) (l : Launch) (pad contexts : Bool) : Option (List Nat) :=
  (s.meets key l pad contexts).filter (fun place => !s.reserved key place)

/-- The waiting launches as the scheduler considers them: by falling effective priority, then by acceptance. -/
def State.waitingOrder (s : State) : List (Nat × Launch) :=
  let w := s.launches.filter (fun p => p.2.state == .waiting && p.2.status == 0)
  ((List.range 8).map (fun i => w.filter (fun p => s.effPrio p.2 == 7 - i))).flatten

/-- The launch that dispatches next, with its placement. -/
def State.nextDispatch (s : State) : Option (Nat × List Nat) :=
  s.waitingOrder.findSome? (fun p => (s.mayDispatch p.1 p.2 true true).map (fun pl => (p.1, pl)))

/-- The contexts of a core that a dispatched launch takes: the lowest free ones, whose numbers are their home numbers. -/
def Core.allocate (k : Core) (key : Nat) (l : List Nat) : Core :=
  l.foldl (fun k x => k.setCtx x { k.ctx x with launch := some key, home := x, seqBase := (k.ctx x).seq })
    { k with kept := k.kept.filter (fun p => p.2 != key) }

/-- LAUNCH_DISPATCH (R154, R155, R38): the launch that is next takes its placement and its contexts, or is rejected because it
names a core that is no longer available. -/
def execLaunchDispatch (key : Nat) (s : State) : Res :=
  .next (match s.launch? (some key), s.nextDispatch with
    | some l, some (k, place) =>
      if k ≠ key then s
      else if !place.all (fun c => s.coresAvail.getLsbD c) then s.modLaunch key (fun l => { l with status := 7 })
      else
        let n := s.sched.dispatches + 1
        let s : State := { s with sched := { s.sched with dispatches := n } }
        let s := place.foldl (fun s c => s.modCore c (·.allocate key ((s.freeFor (some key) c).take l.ctxPer))) s
        s.modLaunch key (fun l => { l with state := .loading, place := place, order := n, tdisp := s.ticks })
    | _, _ => s)

/-! ### Loading (R153, R156, R157) -/

/-- A loading step that fails: its number, the fault, the address or preset index, and the core. -/
structure LoadFault where
  step : Nat
  code : Nat
  at' : Nat
  core : Nat

/-- A loading step: a failing one leaves what was done before it. -/
abbrev LoadStep := Except (LoadFault × State) State

/-- The front end's read of n bytes for a loading step, with the address at which a fault arose. -/
def State.loadRead (s : State) (step core asid va n : Nat) (k : AccessKind) : Except LoadFault (List Byte) × State :=
  (blockPieces (n + 1) va n).foldl (fun acc p => match acc with
    | (.error e, s) => (.error e, s)
    | (.ok bs, s) => match s.agentReadPiece .frontEnd 15 asid p.1 p.2 k with
      | (.error c, s) => (.error ⟨step, c, p.1, core⟩, s)
      | (.ok b, s) => (.ok (bs ++ b), s)) (.ok [], s)

/-- A read followed by what is done with its bytes. -/
def State.thenRead (s : State) (step core asid va n : Nat) (k : AccessKind) (f : List Byte → State → LoadStep) : LoadStep :=
  match s.loadRead step core asid va n k with
  | (.error e, s) => .error (e, s)
  | (.ok b, s) => f b s

/-- Step 1: the image. -/
def State.loadImage (s : State) (l : Launch) : LoadStep :=
  s.thenRead 1 (l.place.headD 0) l.asid (word l.recd 1) (32 * l.imgLen) .image (fun b s =>
    let bundles := (List.range l.imgLen).map (fun i => (l.imgBase + i, (BitVec.ofNat 256 (ofBytes ((b.drop (32 * i)).take 32)) : Bundle)))
    .ok (l.place.foldl (fun s c => s.modCore c (fun k => { k with
      imem := bundles.foldl (fun m p => Assoc.put m p.1 p.2) k.imem
      badImem := k.badImem.filter (fun i => !l.inImage i) })) s))

/-- Step 2: the literals. -/
def State.loadLiterals (s : State) (l : Launch) : LoadStep :=
  s.thenRead 2 (l.place.headD 0) l.asid (word l.recd 3) (4 * l.litLen) .image (fun b s =>
    let words := (List.range l.litLen).map (fun i => (l.litBase + i, BitVec.ofNat 32 (ofBytes ((b.drop (4 * i)).take 4))))
    .ok (l.place.foldl (fun s c => s.modCore c (fun k => { k with
      lmem := words.foldl (fun m p => Assoc.put m p.1 p.2) k.lmem
      badLmem := k.badLmem.filter (fun i => !l.inLiterals i) })) s))

/-- Step 3 on one core: its shot-table entry and its list. -/
def State.loadShots (s : State) (key : Nat) (l : Launch) (c : Nat) : LoadStep :=
  let va := word l.recd 5 + 16 * l.ordinal c
  if word l.recd 5 = 0 then .ok s
  else s.thenRead 3 c l.asid va 16 .load (fun b s =>
    let x := ofBytes b
    let n := field x 74 64
    if field x 127 75 ≠ 0 || 1024 - l.shotBase < n then .error (⟨3, 0x91, va, c⟩, s)
    else s.thenRead 3 c l.asid (field x 63 0) (64 * n) .load (fun d s =>
      let es := (List.range n).map (fun i => (l.shotBase + i, BitVec.ofNat 512 (ofBytes ((d.drop (64 * i)).take 64))))
      .ok ((s.modCore c (fun k => { k with shots := es.foldl (fun m p => Assoc.put m p.1 p.2) k.shots })).modLaunch key
        (fun l => { l with shotCounts := Assoc.put l.shotCounts c n }))))

/-- A preset entry applied to one core (R157): none where it fails with 0x31. -/
def Core.preset (k : Core) (key cycle kind index count : Nat) : Option Core :=
  if kind = 0 then some { k with tags := setErase k.tags index }
  else if kind = 1 then some { k with tags := setInsert k.tags index }
  else
    let b := k.barrier index
    if (b.live && b.owner != key) || !(k.aboveOf cycle 0xFFFF .a (barrierOffset index / 256)).isEmpty then none
    else some (k.initBarrier key index count)

/-- A preset entry is well formed (R157). -/
def presetOk (place : List Nat) (e : Nat) : Bool :=
  let kind := field e 2 0
  let core := field e 11 3
  kind ≤ 2 && (core == 511 || place.contains core) && field e 63 37 == 0
    && (if kind = 2 then field e 24 12 ≤ 63 && field e 36 25 != 0 else field e 36 25 == 0)

/-- Step 4: the preset list, in order; a failing entry is applied to no core. -/
def State.loadPresets (s : State) (key : Nat) (l : Launch) : LoadStep :=
  (List.range (l.f 7 15 0)).foldlM (fun s i =>
    s.thenRead 4 (l.place.headD 0) l.asid (word l.recd 6 + 8 * i) 8 .load (fun b s =>
      let e := ofBytes b
      if !presetOk l.place e then .error (⟨4, 0x91, i, if field e 11 3 = 511 then l.place.headD 0 else field e 11 3⟩, s)
      else
        let cores := if field e 11 3 = 511 then l.place else [field e 11 3]
        cores.foldlM (fun t c =>
          match (t.core c).preset key t.cycle (field e 2 0) (field e 24 12) (field e 36 25) with
          | some k => .ok (t.setCore c k)
          | none => .error (⟨4, 0x31, i, c⟩, s)) s)) s

/-- The scope entry of a level for a context of core c (R153). -/
def State.levelScope (s : State) (l : Launch) (c domain group : Nat) : BitVec 512 :=
  if 6 ≤ domain then BitVec.ofNat 512 (2 + group * 2 ^ 32)
  else
    let cores := if domain ≤ 2 then [c]
      else if domain = 3 then l.place.filter (fun k => k / 8 == c / 8)
      else if domain = 4 then l.place.filter (fun k => k / 40 == c / 40)
      else l.place
    BitVec.ofNat 512 (1 + s.pkgId * 2 ^ 16 + (cores.map (fun k => 2 ^ (64 + k))).foldl (· + ·) 0)

/-- The contexts of a launch on core c. -/
def Core.ctxsOf (k : Core) (key : Nat) : List Nat := (List.range 4).filter (fun x => (k.ctx x).launch == some key)

/-- Step 5: the scope tables. -/
def State.loadScopes (s : State) (key : Nat) (l : Launch) : LoadStep :=
  let levels := (List.range l.nlev).map l.level
  let va := word l.recd 9
  s.thenRead 5 (l.place.headD 0) l.asid va (if va = 0 then 0 else 2048) .load (fun b s =>
    let image := (List.range 32).map (fun e => ofBytes ((b.drop (64 * e)).take 64))
    let bound (e : Nat) : Bool := levels.any (fun v => v.2.1 == e)
    match (List.range 32).find? (fun e => !bound e && !scopeOk (image.getD e 0)) with
    | some e => .error (⟨5, 0x35, va + 64 * e, l.place.headD 0⟩, s)
    | none =>
      if levels.any (fun v => 6 ≤ v.1 && (s.group v.2.2).isNone) then .error (⟨5, 0x87, 0, l.place.headD 0⟩, s)
      else .ok (l.place.foldl (fun s c =>
        let entry (e : Nat) : BitVec 512 := match levels.find? (fun v => v.2.1 == e) with
          | some v => s.levelScope l c v.1 v.2.2
          | none => BitVec.ofNat 512 (image.getD e 0)
        let table : Vector (BitVec 512) 32 := Vector.ofFn (fun e => entry e.val)
        s.modCore c (fun k => (k.ctxsOf key).foldl (fun k x => k.setCtx x { k.ctx x with scopes := table }) k)) s))

/-- Step 6: a context of the launch in its initial state (R160): what it has left to send from an earlier launch stays, and its
numbering goes on. -/
def Context.initial (t : Context) (l : Launch) : Context :=
  { Context.reset with
    launch := t.launch
    home := t.home
    priv := l.priv
    pendChk := l.f 0 16 16 == 1
    guardChk := l.f 0 17 17 == 1
    scopes := t.scopes
    part := t.part
    ar := t.ar
    sq := t.sq
    writes := t.writes
    remote := t.remote
    fences := t.fences
    cc := t.cc
    ccBase := t.cc
    seq := t.seq
    seqBase := t.seq }

/-- The loading steps of a placement (R156). -/
def State.loadSteps (s : State) (key : Nat) (l : Launch) : LoadStep := do
  let s ← s.loadImage l
  let s ← s.loadLiterals l
  let s ← l.place.foldlM (fun s c => s.loadShots key l c) s
  let s ← s.loadPresets key l
  let s ← s.loadScopes key l
  return l.place.foldl (fun s c => s.modCore c (fun k =>
    (k.ctxsOf key).foldl (fun k x => k.setCtx x ((k.ctx x).initial l)) k)) s

/-- LOADING_COMPLETE (R156, R157, R158): every placement core completes its loading steps and T0 follows, or the launch ends with
LOAD_FAULT; what was done before the failure stays done. -/
def execLoadingComplete (key : Nat) (s : State) : Res :=
  .next (match s.launch? (some key) with
    | none => s
    | some l =>
      if l.state ≠ .loading then s
      else match s.loadSteps key l with
        | .error (e, s) =>
          let s := s.modLaunch key (fun l => { l with
            state := .draining, status := 5, detail := e.step, fcode := e.code, fcore := e.core, faddr := e.at'
            enumerated := true })
          l.place.foldl (fun s c => s.modCore c (fun k => (k.ctxsOf key).foldl (fun k x => k.retireCtx x) k)) s
        | .ok s =>
          let t0 := s.cycle + 1
          s.modLaunch key (fun l => { l with
            state := .rehearsal, t0 := t0, wave := 0, action := t0 + 64 * ceilDiv l.place.length 8 + 64 }))

/-! ### Rehearsal and release (R33, R158) -/

/-- The next wave of a rehearsal starts now. -/
def State.waveDue (s : State) (l : Launch) : Bool :=
  l.state == .rehearsal && l.wave < ceilDiv l.place.length 8 && l.t0 + 64 * l.wave ≤ s.cycle

/-- REHEARSAL_WAVE (R33): eight more arrays run on idle operands, which changes no state that programs can see. -/
def execRehearsalWave (key : Nat) (s : State) : Res :=
  .next (match s.launch? (some key) with
    | none => s
    | some l => if s.waveDue l then s.modLaunch key (fun l => { l with wave := l.wave + 1 }) else s)

/-- The action cycle of a launch has come. -/
def State.actionDue (s : State) (l : Launch) : Bool :=
  l.state == .rehearsal && l.wave == ceilDiv l.place.length 8 && l.action ≤ s.cycle

/-- The seed of core c (R158). -/
def Launch.seed (l : Launch) (c : Nat) : BitVec 32 :=
  let g := BitVec.ofNat 32 (l.f 7 63 32) ^^^ BitVec.ofNat 32 (c * 0x9E3779B9)
  if g = 0 then 1 else g

/-- ACTION_CYCLE (R33, R158, R159, R248): every placement core is released, each context's generator seeded with the core's
seed rotated left by 8 bits per context number. -/
def execActionCycle (key : Nat) (s : State) : Res :=
  .next (match s.launch? (some key) with
    | none => s
    | some l =>
      if !s.actionDue l then s
      else
        let s := l.place.foldl (fun s c => s.modCore c (fun k =>
          (k.ctxsOf key).foldl (fun k x => k.setCtx x { k.ctx x with g := (l.seed c).rotateLeft (8 * x) }) k)) s
        s.modLaunch key (fun l => { l with
          state := .running, tact := s.elapsed, stepSlots := if l.standing then [] else [(0, 0)], enumerated := false }))

/-! ### The end of a launch (R147, R162, R389, R395) -/

/-- RUNNING ends: the points that no context is left to take are dropped (R165). -/
def State.endRun (s : State) (key : Nat) : Option State :=
  match s.launch? (some key) with
  | none => none
  | some l =>
    if s.runEnded key l then some (s.modLaunch key (fun l =>
      let l := l.heldPoints.foldl (fun l p => l.dropPoint p.2.n) l
      { l with
        state := .draining, enumerated := true, stepSlots := [], heldPoints := []
        issued := if l.cancelled then l.issued else l.issued + l.heldPoints.length }))
    else none

/-- Stores of a launch's contexts on a core that have not been performed. -/
def Core.storesLeft (k : Core) (key : Nat) : Bool :=
  k.ctxs.any (fun t => t.storesBelow (if t.launch = some key ∨ t.launch = none then t.seq else t.seqBase))

/-- Engine commands and copy entries of a launch that have not completed on a core. -/
def Core.workLeft (k : Core) (key : Nat) : Bool :=
  k.array.any (fun a => a.launch == key) || k.macros.any (fun m => m.launch == key) || k.rot.any (fun r => r.launch == key)
    || k.chans.any (fun c => c.queue.any (fun e => e.launch == key))

/-- The launch-end update of a coverage launch has been made, or none is to be made; after a cancellation, every skipped
point whose parents are done has been reconstructed (R186). -/
def Launch.coverageDone (l : Launch) : Bool :=
  match l.cov with
  | none => true
  | some c =>
    if l.status = 2 then c.points.all (fun q => !l.mayRecon c q.1 q.2 && (match q.2.stage with
      | .exited _ _ _ _ => false
      | _ => true))
    else c.settled || l.status != 0

/-- A launch may retire: it drains with nothing left, or it ended while it waited. -/
def State.mayRetire (s : State) (l : Launch) (key : Nat) : Bool :=
  if l.state = .waiting then l.status != 0
  else l.state == .draining && l.place.all (fun c => !(s.core c).storesLeft key && !(s.core c).workLeft key) && l.coverageDone

/-- The barriers of a launch on a core stop being live (R389). -/
def Core.endOwned (k : Core) (key : Nat) : Core :=
  (List.range 64).foldl (fun k b => if (k.barrier b).live && (k.barrier b).owner == key then k.endBarrier b else k) k

/-- The rotator of a core is cleared when its owner retires (R278). -/
def Core.clearRotator (k : Core) (key : Nat) : Core :=
  if k.rotOwner = some key then { k with rotOwner := none, tri := [], triPending := [] } else k

/-- What a retiring launch leaves on a core: its killed contexts are free, its barriers are no longer live and its rotator is
cleared. -/
def Core.release (k : Core) (key : Nat) : Core :=
  let freed := (k.ctxsOf key).foldl (fun k x => k.retireCtx x) k
  let ended := (freed.endOwned key).clearRotator key
  { ended with slates := Assoc.del ended.slates key }

/-- LAUNCH_RETIRE (R136, R147, R151, R162): the launch is no longer live; its status block and done signal are written, and the
waiting launches that depend on it strictly fail when it is not COMPLETE. -/
def execLaunchRetire (key : Nat) (s : State) : Res :=
  .next (match s.launch? (some key) with
    | none => s
    | some l =>
      if !s.mayRetire l key then s
      else
        let l := { l with status := if l.status = 0 ∧ l.killed ≠ 0 then 4 else l.status }
        let s := if l.state = .waiting then s else l.place.foldl (fun s c => s.modCore c (·.release key)) s
        let s := { s with launches := Assoc.del s.launches key }
        let s := s.report l
        { s with launches := s.launches.map (fun p =>
          (p.1, if l.status ≠ 0 ∧ p.2.state = .waiting ∧ p.2.status = 0 ∧ p.2.f 0 18 18 = 1 ∧ p.2.deps.contains key then
            { p.2 with status := 9 } else p.2)) })

/-! ### Cancellation (R164) -/

/-- The macros of a cancelled launch stop at their next step boundaries (R272). -/
def Core.stopMacros (k : Core) (key : Nat) : Core :=
  { k with macros := k.macros.map (fun (m : MacroRun) => if m.launch = key then { m with stopped := true } else m) }

/-- A CANCEL recorded for a live launch. -/
def State.cancelLaunch (s : State) (key : Nat) : State :=
  match s.launch? (some key) with
  | none => s
  | some l =>
    if l.state = .waiting then (if l.status = 0 then s.modLaunch key (fun l => { l with status := 1 }) else s)
    else if l.state = .draining ∨ l.state = .retired then s
    else
      let s := s.modLaunch key (fun l => { l with cancelled := true, status := if l.status = 0 then 2 else l.status })
      let s : State := { s with cores := s.cores.map (fun (p : Nat × Core) => (p.1, (p.2.discardSaved key).stopMacros key)) }
      if l.state = .running && !l.standing then
        let s : State := (s.launchContexts key).foldl (fun s p => s.modCtx p.1 p.2.1 (fun t => { t with nextIteration := none })) s
        s.modLaunch key (fun l => { l with heldPoints := [], stepSlots := [], enumerated := true })
      else s

/-! ### SCHEDCFG and the paddock (R169, R170) -/

/-- SCHEDCFG_WRITE (R170). -/
def execSchedcfgWrite (v : Word) (s : State) : Res :=
  .next (
    let f (hi lo : Nat) : Nat := field v.toNat hi lo
    let lo := f 39 32
    let hi := f 31 24
    let top := f 21 16
    let bottom := f 13 8
    if top < bottom || 32 < top || hi ≤ lo then s.refuseCfg
    else
      let s : State := { s with sched := { s.sched with padLo := lo, padHi := hi, padMax := top, padMin := bottom } }
      { s with launches := s.launches.map (fun p =>
        (p.1, if p.2.comm ∧ p.2.state = .waiting ∧ p.2.status = 0 ∧ top < p.2.pcount then
          { p.2 with status := 6, detail := 0 } else p.2)) })

/-- D: the waiting communication launches. -/
def State.waitComm (s : State) : Nat :=
  (s.launches.filter (fun p => p.2.comm && p.2.state == .waiting && p.2.status == 0)).length

/-- The evaluation of R169: the new size of the paddock. -/
def State.padSize (s : State) : Nat :=
  let c := s.sched
  let n := c.padN
  let d := s.waitComm
  let growOk := !s.holdsKind (paddockCore n) false
  let shrinkOk := !s.holdsKind (paddockCore (n - 1)) true
  let starved := s.launches.any (fun p => match p.2.padSince with
    | some t => p.2.state == .waiting && !p.2.comm && t + 2 ^ 16 ≤ s.cycle
    | none => false)
  if n < c.padMin && growOk then n + 1
  else if c.padMax < n && shrinkOk then n - 1
  else if c.padHi ≤ d && n < c.padMax && growOk then n + 1
  else if (d ≤ c.padLo || starved) && c.padMin < n && shrinkOk then n - 1
  else n

/-- PADDOCK_EVALUATE (R169): every 4,096 cycles. -/
def execPaddockEvaluate (s : State) : Res :=
  .next (
    if s.cycle < s.sched.evalAt + 4096 then s
    else { s with sched := { s.sched with padN := s.padSize, evalAt := s.cycle } })

/-- The waiting launches that only condition 4 keeps waiting are noted, with the cycle since which it does (R169). -/
def State.notePad (s : State) : State :=
  { s with launches := s.launches.map (fun p =>
    let only := p.2.state == .waiting && !p.2.comm && p.2.place.any s.paddock.contains
      && (s.meets p.1 p.2 false true).isSome
    (p.1, if only == p.2.padSince.isSome then p.2 else { p.2 with padSince := if only then some s.cycle else none })) }

end Sys2Proof.Machine
end

