-- ==== Sys2Proof/Machine/Queue.lean ====
section
/-!
DEFINITION. The queues of the command processor: configuration, doorbells, errors and fetching (R127 to R131, R138), and the
resets of functions (R140).
-/
namespace Sys2Proof.Machine
open Sys2Proof

/-! ### Access -/

/-- Queue q. -/
def State.queue (s : State) (q : Nat) : Queue := Assoc.get s.queues q Queue.reset
/-- The state with a queue changed. -/
def State.modQueue (s : State) (q : Nat) (f : Queue → Queue) : State :=
  { s with queues := Assoc.put s.queues q (f (s.queue q)) }

/-- The distance from one unit index up to another, modulo 2^32 (R129). -/
def indexGap (a b : Nat) : Nat := (b + 2 ^ 32 - a % 2 ^ 32) % 2 ^ 32
/-- The unit index n places after another. -/
def indexUp (a n : Nat) : Nat := (a + n) % 2 ^ 32

/-- A fetched unit. -/
def Queue.unit (q : Queue) (n : Nat) : Option Flit := (q.units.find? (fun u => u.1 == n)).map (·.2)
/-- The virtual address of unit n (R128). -/
def Queue.unitAddr (q : Queue) (n : Nat) : Nat := q.base + 64 * (n % 2 ^ q.qsize)

/-- The queue's vector fires (R126). -/
def State.fireQueue (s : State) (q : Nat) : State := s.fireVector (s.queue q).func (s.queue q).vec

/-- The live launches of a queue. -/
def State.queueLaunches (s : State) (q : Nat) : List Nat := (s.launches.filter (fun p => p.2.queue == q)).map (·.1)

/-! ### Packets (R132, R133) -/

/-- Word k of a unit. -/
def unitWord (u : Flit) (k : Nat) : Nat := field u.toNat (64 * k + 63) (64 * k)

/-- The units of a packet type: none for a reserved type. -/
def packetUnits (type : Nat) : Option Nat := if type = 3 then some 2 else if type ≤ 7 then some 1 else none

/-- Word 0 passes R132 and R133. -/
def word0Valid (w : Nat) : Bool :=
  let type := field w 7 0
  packetUnits type == some (field w 9 8 + 1) && field w 15 11 == 0 && field w 31 20 == 0
    && (type == 2 || !w.testBit 19) && ((3 ≤ type && type ≤ 6) || field w 63 32 == 0)
    && field w 18 16 < (if type = 1 then 4 else if type = 2 then 3 else 1)

/-- Words 1 to 7 of a packet's first unit pass R132 and R133. -/
def wordsValid (u : Flit) : Bool :=
  let type := field u.toNat 7 0
  let w := unitWord u
  let zeroFrom (k : Nat) : Bool := (List.range 8).all (fun i => i < k || w i == 0)
  if type = 1 then w 1 % 8 == 0 && field (w 4) 63 32 == 0 && zeroFrom 5
  else if type = 2 then w 1 % 8 == 0 && zeroFrom 3
  else if type = 3 then w 1 % 256 == 0 && w 2 % 8 == 0 && w 4 % 256 == 0 && zeroFrom 5
  else if type = 4 then field (w 1) 63 12 == 0 && w 2 % 64 == 0 && zeroFrom 3
  else if type = 5 then field (w 1) 63 12 == 0 && zeroFrom 2
  else zeroFrom 1

/-- What stands at CPTR: nothing yet, a packet that R132 refuses, or a packet's first unit. -/
inductive Head where
  | absent
  | bad
  | packet (u : Flit)
  deriving DecidableEq, Repr

/-- The packet at CPTR, as fetched (R138). -/
def Queue.head (q : Queue) : Head :=
  match q.unit q.cptr with
  | none => .absent
  | some u =>
    if !word0Valid (unitWord u 0) then .bad
    else if field u.toNat 9 8 = 0 then (if wordsValid u then .packet u else .bad)
    else match q.unit (indexUp q.cptr 1) with
      | none => .absent
      | some v => if wordsValid u && v == 0 then .packet u else .bad

/-- The units of the packet at CPTR. -/
def Queue.headUnits (q : Queue) : Nat :=
  match q.unit q.cptr with
  | some u => if word0Valid (unitWord u 0) then field u.toNat 9 8 + 1 else 1
  | none => 1

/-! ### Commit and error (R127, R129 to R131) -/

/-- The queue enters ERROR with a code: CPTR stays, and its vector fires. -/
def State.queueError (s : State) (q code : Nat) (word0 : Option Nat) : State :=
  (s.modQueue q (fun x => { x with
    st := .error, code := code, word0 := word0, started := none, stop := false, fail := false })).fireQueue q

/-- The failing packet at CPTR puts the queue into ERROR. -/
def State.packetError (s : State) (q code : Nat) : State :=
  s.queueError q code (((s.queue q).unit (s.queue q).cptr).map (fun u => unitWord u 0))

/-- The packet at CPTR commits (R130): CPTR advances and its vector fires if it asks; a queue that is to stop does so. -/
def State.commitPacket (s : State) (q : Nat) : State :=
  let x := s.queue q
  let n := x.headUnits
  let irq := ((x.unit x.cptr).map (fun u => u.toNat.testBit 10)).getD false
  let s := s.modQueue q (fun x => { x with
    cptr := indexUp x.cptr n
    units := x.units.filter (fun u => n ≤ indexGap x.cptr u.1)
    started := none
    st := if x.stop then .disabled else .running
    stop := false })
  let s := if irq then s.fireQueue q else s
  if x.fail then s.queueError q 0x92 none else s

/-- Fetching starts again at CPTR (R130). -/
def Queue.refetch (q : Queue) : Queue :=
  { q with rptr := q.cptr, units := [], started := none, word0 := none, st := if q.enable then .running else .disabled }

/-! ### QCTL and QBASE (R127, R131) -/

/-- QCTL as a reader sees it. -/
def Queue.ctl (q : Queue) : Nat :=
  q.vec * 2 ^ 32 + q.asid * 2 ^ 16 + q.func * 2 ^ 8 + q.qsize * 2 ^ 4 + b2n q.enable

/-- A QCTL write that is ignored (R127). -/
def Queue.refuses (q : Queue) (v : Nat) : Bool :=
  let size := field v 7 4
  let func := field v 13 8
  let vec := field v 37 32
  (q.enable && (field v 31 16 != q.asid || func != q.func || size != q.qsize)) || (v.testBit 1 && v.testBit 2)
    || (v.testBit 0 && (size < 4 || q.base % (64 * 2 ^ size) != 0 || (if func = 0 then vec < 4 else 7 < vec)))

/-- SKIP in ERROR (R131): the failing packet commits without effect. -/
def State.skipPacket (s : State) (q : Nat) : State :=
  let x := s.queue q
  if x.code = 0x92 then s.modQueue q (fun x => { x.refetch with code := 0 })
  else
    let n := match x.word0 with
      | some w => field w 9 8 + 1
      | none => 1
    let irq := ((x.word0).map (·.testBit 10)).getD false
    let s := s.modQueue q (fun x => { ({ x with cptr := indexUp x.cptr n } : Queue).refetch with code := 0 })
    if irq then s.fireQueue q else s

/-- A write of QCTL (R127): the fields, the change of ENABLE, and RESUME or SKIP in ERROR. -/
def State.writeQctl (s : State) (q : Nat) (v : Nat) : State :=
  let x := s.queue q
  if x.refuses v then s.refuseCfg
  else
    let on := v.testBit 0
    let s := s.modQueue q (fun x => { x with
      enable := on, vec := field v 37 32, asid := field v 31 16, func := field v 13 8, qsize := field v 7 4 })
    let s := if on && !x.enable then
        s.modQueue q (fun x => { ({ x with cptr := x.wptr } : Queue).refetch with stop := false, fail := false })
      else if !on && x.enable then
        (if x.started.isSome then s.modQueue q (fun x => { x with stop := true })
          else s.modQueue q (fun x => { x with st := .disabled, units := [], rptr := x.cptr }))
      else s
    if x.st = .error && on && x.enable then
      (if v.testBit 1 then s.modQueue q (fun x => { x.refetch with code := 0 })
        else if v.testBit 2 then s.skipPacket q else s)
    else s

/-- QUEUE_ENABLE (R127): a write of QCTL that sets ENABLE. -/
def execQueueEnable (q : Nat) (v : Word) (s : State) : Res :=
  .next (if 31 < q || (s.queue q).enable || !v.getLsbD 0 then s else s.writeQctl q v.toNat)

/-- QUEUE_DISABLE (R127): a write of QCTL that clears ENABLE. -/
def execQueueDisable (q : Nat) (v : Word) (s : State) : Res :=
  .next (if 31 < q || !(s.queue q).enable || v.getLsbD 0 then s else s.writeQctl q v.toNat)

/-- QUEUE_RESUME (R131): a write of QCTL with RESUME. -/
def execQueueResume (q : Nat) (v : Word) (s : State) : Res :=
  .next (if 31 < q || !v.getLsbD 1 then s else s.writeQctl q v.toNat)

/-- QUEUE_SKIP (R131): a write of QCTL with SKIP. -/
def execQueueSkip (q : Nat) (v : Word) (s : State) : Res :=
  .next (if 31 < q || !v.getLsbD 2 then s else s.writeQctl q v.toNat)

/-- A write of QBASE (R127). -/
def State.writeQbase (s : State) (q v : Nat) : State :=
  let va := field v 56 12 * 4096
  if (s.queue q).enable && va != (s.queue q).base then s.refuseCfg else s.modQueue q (fun x => { x with base := va })

/-! ### The queue page (R117, R128, R129) -/

/-- A function sees the page of queue q; none does in recovery (R117, R144). -/
def State.pageLive (s : State) (func q : Nat) : Bool :=
  q < 32 && (func == 0 || (s.queue q).func == func) && s.fw.run != 3

/-- The end of the packet that the thread executes, if any. -/
def Queue.executingEnd (q : Queue) : Option Nat := q.started.map (fun _ => indexUp q.cptr q.headUnits)

/-- A doorbell that takes units back (R129). -/
def Queue.takeBack (q : Queue) (x : Nat) : Queue :=
  let w := match q.executingEnd with
    | some e => if indexGap q.cptr x < indexGap q.cptr e then e else x
    | none => x
  let lim := indexGap q.cptr w
  { q with
    wptr := w
    units := q.units.filter (fun u => indexGap q.cptr u.1 < lim)
    rptr := if lim < indexGap q.cptr q.rptr then w else q.rptr }

/-- QUEUE_DOORBELL (R129): a write of WPTR. -/
def execQueueDoorbell (func q : Nat) (x : BitVec 32) (s : State) : Res :=
  .next (
    let u := s.queue q
    if !s.pageLive func q || !u.enable then s
    else if 2 ^ u.qsize < indexGap u.cptr x.toNat then
      (if u.started.isSome then s.modQueue q (fun u => { u with fail := true }) else s.queueError q 0x92 none)
    else if x.toNat ≠ u.wptr ∧ indexGap x.toNat u.wptr ≤ 2 ^ u.qsize then s.modQueue q (·.takeBack x.toNat)
    else s.modQueue q (fun u => { u with wptr := x.toNat }))

/-- STATE as a number (R128). -/
def QState.code : QState → Nat
  | .disabled => 0 | .running => 1 | .waiting => 2 | .error => 3

/-- The status word of a queue page. -/
def Queue.status (q : Queue) : Nat := q.nolid * 2 ^ 16 + q.code * 2 ^ 8 + q.st.code

/-- A word of a queue page, as a read of a function returns it (R117, R128); that of the status word is QUEUE_STATUS_READ. -/
def State.queuePageRead (s : State) (func q o : Nat) : Word :=
  let u := s.queue q
  BitVec.ofNat 64 (
    if !s.pageLive func q then 0
    else if o = 0x00 then u.wptr else if o = 0x08 then u.rptr else if o = 0x10 then u.cptr else if o = 0x18 then u.status
    else 0)

/-- QUEUE_STATUS_READ (R128): NOLID clears; a page that is not live reads as zero. -/
def execQueueStatusRead (func q : Nat) (s : State) : Res :=
  .next (
    if !s.pageLive func q then s.returnRead 0
    else (s.returnRead (s.queuePageRead func q 0x18).toNat).modQueue q (fun u => { u with nolid := 0 }))

/-! ### Fetching (R138, R139) -/

/-- An uncommitted FETCH_FENCE has been fetched: packets are followed from unit n. -/
def Queue.fencedFrom (q : Queue) : Nat → Nat → Bool
  | 0, _ => false
  | fuel + 1, n =>
    match q.unit n with
    | none => false
    | some u => field u.toNat 7 0 == 7 || q.fencedFrom fuel (indexUp n (field u.toNat 9 8 + 1))

/-- The thread runs packets: its queue is enabled and not in error, and the H die has woken into normal operation. -/
def State.threadRuns (s : State) (q : Nat) : Bool :=
  let x := s.queue q
  (x.st == .running || x.st == .waiting) && s.fw.run != 3 && s.wake.ready.contains 15

/-- The thread may fetch its next unit. -/
def State.mayFetch (s : State) (q : Nat) : Bool :=
  let x := s.queue q
  q < 32 && s.threadRuns q && !x.stop && !x.fail && x.rptr != x.wptr && indexGap x.rptr x.wptr ≤ 2 ^ x.qsize
    && indexGap x.cptr x.rptr < 8 && !x.fencedFrom 8 x.cptr

/-- The next unit belongs to the packet at CPTR. -/
def Queue.needed (q : Queue) : Bool := q.rptr == q.cptr || (q.head == .absent && indexGap q.cptr q.rptr < q.headUnits)

/-- A unit read as one access (R138). -/
def State.readUnit (s : State) (q : Nat) : Except Nat (List Byte) × State :=
  let x := s.queue q
  s.agentReadPiece .command 15 x.asid (x.unitAddr x.rptr) 64 .load

/-- PACKET_FETCH (R131, R138): the next unit; one that cannot be read counts when it belongs to the packet at CPTR. -/
def execPacketFetch (q : Nat) (s : State) : Res :=
  .next (
    if !s.mayFetch q then s
    else match s.readUnit q with
      | (.ok b, s) => s.modQueue q (fun x => { x with
          units := x.units ++ [(x.rptr, BitVec.ofNat 512 (ofBytes b))], rptr := indexUp x.rptr 1 })
      | (.error c, t) => if (s.queue q).needed && (s.queue q).started.isNone then t.packetError q c else t)

/-- CP_THREAD_RESTART (R130): the thread goes on at CPTR; what an error or a stop was to follow the executing packet
follows now. -/
def execCpThreadRestart (q : Nat) (s : State) : Res :=
  .next (
    let x := s.queue q
    if 31 < q || x.st = .error || x.st = .disabled then s
    else
      let s := s.modQueue q (fun x => { x.refetch with stop := false, fail := false })
      if x.fail then s.queueError q 0x92 none else s)

/-! ### Resets (R140) -/

/-- The live launches of a queue are cancelled and ENABLE is cleared. -/
def State.resetQueue (s : State) (q : Nat) : State :=
  let x := s.queue q
  let s := s.modQueue q (fun x => { x with
    enable := false
    stop := x.started.isSome
    st := if x.started.isSome || x.st = .error then x.st else .disabled })
  (s.queueLaunches q).foldl (fun s k => s.cancelLaunch k) (if x.st = .error then s.modQueue q (fun x => { x with st := .disabled }) else s)

/-- The queues of a function. -/
def State.ownedQueues (s : State) (func : Nat) : List Nat := (List.range 32).filter (fun q => (s.queue q).func == func)

/-- Steps 1 to 3 of R140 for one function. -/
def State.resetFunction (s : State) (func : Nat) : State :=
  ((s.ownedQueues func).foldl (fun s q => s.resetQueue q) s).modMgmt (fun m => { m with inReset := setInsert m.inReset func })

/-- The reset of every function. -/
def State.resetAll (s : State) : State :=
  { (List.range 64).foldl (fun s f => s.resetFunction f) s with busMaster := false }

/-- FUNCTION_LEVEL_RESET (R140): of a virtual function, or of the physical one, which resets all. -/
def execFunctionLevelReset (func : Nat) (s : State) : Res :=
  .next (if 63 < func then s else if func = 0 then s.resetAll else s.resetFunction func)

/-- HOT_RESET (R140): a hot reset or a link-down. -/
def execHotReset (s : State) : Res := .next s.resetAll

/-- The reset of a function may complete: no launch of its queues is live. -/
def State.resetDone (s : State) (func : Nat) : Bool :=
  s.mgmt.inReset.contains func && (s.ownedQueues func).all (fun q => (s.queueLaunches q).isEmpty)

/-- FLR_COMPLETE (R140): the function's MSI-X state is cleared. -/
def execFlrComplete (func : Nat) (s : State) : Res :=
  .next (
    if !s.resetDone func then s
    else s.modMgmt (fun m => { m with
      inReset := setErase m.inReset func
      msixOn := setErase m.msixOn func
      msix := m.msix.filter (fun p => p.1 / 64 != func) }))

end Sys2Proof.Machine
end

