-- ==== Sys2Proof/Machine/Commands.lean ====
section
/-!
DEFINITION. The packets of the command processor (R133 to R137, R139, R161, R164).
-/
namespace Sys2Proof.Machine
open Sys2Proof

/-! ### Starting a packet -/

/-- The packet of a type at CPTR, if the thread may execute it. -/
def State.executable (s : State) (q type : Nat) : Option Flit :=
  if q < 32 && s.threadRuns q then
    match (s.queue q).head with
    | .packet u => if field u.toNat 7 0 = type then some u else none
    | _ => none
  else none

/-- A packet of a type executes where it stands at CPTR; elsewhere nothing happens. -/
def State.executes (s : State) (q type : Nat) (f : Flit → State → State) : State :=
  match s.executable q type with
  | some u => f u s
  | none => s

/-- The packet at CPTR has begun to execute and waits; `waiting` says whether STATE shows it. -/
def State.holdPacket (s : State) (q : Nat) (waiting : Bool) : State :=
  s.modQueue q (fun x => { x with
    started := x.started.or (some s.ticks), st := if waiting then .waiting else .running })

/-- The packet at CPTR is one that R132 refuses: the queue enters ERROR with 0x91. -/
def State.refusePacket (s : State) (q : Nat) : Option State :=
  if q < 32 && s.threadRuns q && (s.queue q).head == .bad then some (s.packetError q 0x91) else none

/-- Every launch of the queue that was accepted before has retired (R135, R139). -/
def State.launchesGone (s : State) (q : Nat) : Bool := (s.queueLaunches q).isEmpty

/-! ### The packets -/

/-- NOP (R133). -/
def execNop (q : Nat) (s : State) : Res := .next (s.executes q 0 (fun _ s => s.commitPacket q))

/-- The test of a WAIT (R134): (m AND MASK) against VALUE. -/
def waitTest (sub m value : Nat) : Bool :=
  if sub = 0 then m == value else if sub = 1 then m != value else if sub = 2 then value ≤ m else m < value

/-- The thread reads ADDR of a WAIT: it commits, waits on, or fails. -/
def State.readWait (s : State) (q : Nat) (u : Flit) : State :=
  match s.agentRead .command 15 (s.queue q).asid (unitWord u 1) 8 .load with
  | (.error c, s) => s.packetError q c
  | (.ok b, s) =>
    if waitTest (field u.toNat 18 16) (ofBytes b &&& unitWord u 3) (unitWord u 2) then s.commitPacket q
    else (s.holdPacket q true).modQueue q (fun x => { x with polled := s.ticks + 100 })

/-- WAIT (R134): the first read. -/
def execWait (q : Nat) (s : State) : Res :=
  .next (s.executes q 1 (fun u s => if (s.queue q).started.isSome then s else s.readWait q u))

/-- WAIT_POLL (R134): a further read. -/
def execWaitPoll (q : Nat) (s : State) : Res :=
  .next (s.executes q 1 (fun u s => if (s.queue q).started.isSome then s.readWait q u else s))

/-- The time-out of the WAIT has elapsed (R134): TIMEOUT counts µs, 100 reference ticks each. -/
def State.waitOver (s : State) (q : Nat) (u : Flit) : Bool :=
  match (s.queue q).started with
  | some t => field (unitWord u 4) 31 0 != 0 && t + 100 * field (unitWord u 4) 31 0 ≤ s.ticks
  | none => false

/-- WAIT_TIMEOUT (R134). -/
def execWaitTimeout (q : Nat) (s : State) : Res :=
  .next (s.executes q 1 (fun u s => if s.waitOver q u then s.packetError q 0x95 else s))

/-- The operation of a SIGNAL (R135). -/
def signalOp (sub value x : Nat) : Nat :=
  if sub = 0 then value else if sub = 1 then (x + value) % 2 ^ 64 else (x + 2 ^ 64 - value) % 2 ^ 64

/-- SIGNAL (R135): with DRAIN it waits for the queue's earlier launches. -/
def execSignal (q : Nat) (s : State) : Res :=
  .next (s.executes q 2 (fun u s =>
    if u.toNat.testBit 19 && !s.launchesGone q then s.holdPacket q false
    else match s.updateWord (s.queue q).asid (unitWord u 1) (signalOp (field u.toNat 18 16) (unitWord u 2)) with
      | (some c, s) => s.packetError q c
      | (none, s) => s.commitPacket q))

/-- LID of a packet. -/
def packetLid (u : Flit) : BitVec 32 := BitVec.ofNat 32 (field u.toNat 63 32)

/-- LAUNCH (R136, R148): it commits when the record is accepted or rejected. -/
def execLaunch (q : Nat) (s : State) : Res :=
  .next (s.executes q 3 (fun u s =>
    match s.acceptLaunch q (packetLid u) (unitWord u 1) (unitWord u 2) (BitVec.ofNat 64 (unitWord u 3)) (unitWord u 4) with
    | .done s => s.commitPacket q
    | .full => s.holdPacket q true
    | .fault c s => s.packetError q c))

/-- A packet that acts on the live launch of its LID (R137): without one, NOLID counts it. -/
def State.onLaunch (s : State) (q : Nat) (u : Flit) (f : Nat → State → State) : State :=
  match s.liveLid q (packetLid u) with
  | some (key, _) => (f key s).commitPacket q
  | none => (s.modQueue q (fun x => { x with nolid := satInc 0xFFFF x.nolid })).commitPacket q

/-- The next state of a slot of a launch. -/
def Launch.slotNext (l : Launch) (slot : Nat) : Option Word := (Assoc.get l.slots slot (none, none)).2
/-- The launch with the next state of a slot replaced. -/
def Launch.setNext (l : Launch) (slot : Nat) (x : Option Word) : Launch :=
  { l with slots := Assoc.put l.slots slot ((Assoc.get l.slots slot (none, none)).1, x) }

/-- ADMIT to a launch (R161). -/
def Launch.admitAt (l : Launch) (slot : Nat) (req : Word) : Launch :=
  if !l.standing || l.maxSlot ≤ slot then { l with badSlot := satInc 0xFFFF l.badSlot }
  else if (l.slotNext slot).isSome then { l with admitDup := satInc 0xFFFF l.admitDup }
  else l.setNext slot (some req)

/-- EVICT to a launch (R161). -/
def Launch.evict (l : Launch) (slot : Nat) : Launch :=
  if !l.standing || l.maxSlot ≤ slot then { l with badSlot := satInc 0xFFFF l.badSlot }
  else if (l.slotNext slot).isSome then l.setNext slot none
  else { l with evictEmpty := satInc 0xFFFF l.evictEmpty }

/-- ADMIT (R137, R161). -/
def execAdmitSlot (q : Nat) (s : State) : Res :=
  .next (s.executes q 4 (fun u s => s.onLaunch q u (fun key s =>
    s.modLaunch key (fun l => l.admitAt (field (unitWord u 1) 11 0) (BitVec.ofNat 64 (unitWord u 2))))))

/-- EVICT (R137, R161). -/
def execEvict (q : Nat) (s : State) : Res :=
  .next (s.executes q 5 (fun u s => s.onLaunch q u (fun key s => s.modLaunch key (fun l => l.evict (field (unitWord u 1) 11 0)))))

/-- CANCEL (R137, R164). -/
def execCancel (q : Nat) (s : State) : Res :=
  .next (s.executes q 6 (fun u s => s.onLaunch q u (fun key s => s.cancelLaunch key)))

/-- FETCH_FENCE (R139): it commits once every earlier launch of its queue has retired. -/
def execFetchFence (q : Nat) (s : State) : Res :=
  .next (s.executes q 7 (fun _ s => if s.launchesGone q then s.commitPacket q else s.holdPacket q false))

/-! ### What is due -/

/-- The step of a packet at CPTR that is due. -/
def State.duePacket (s : State) (q : Nat) (u : Flit) : Option (State → Res) :=
  let x := s.queue q
  let type := field u.toNat 7 0
  let fresh := x.started.isNone
  if type = 0 then some (execNop q)
  else if type = 1 then
    (if fresh then some (execWait q)
      else if x.polled ≤ s.ticks then some (execWaitPoll q)
      else if s.waitOver q u then some (execWaitTimeout q) else none)
  else if type = 2 then (if fresh || s.launchesGone q then some (execSignal q) else none)
  else if type = 3 then (if fresh || s.launches.length < 256 then some (execLaunch q) else none)
  else if type = 4 then some (execAdmitSlot q)
  else if type = 5 then some (execEvict q)
  else if type = 6 then some (execCancel q)
  else if fresh || s.launchesGone q then some (execFetchFence q) else none

/-- The fetch of a queue is due: the next unit can be read, or belongs to the packet at CPTR. -/
def State.fetchDue (s : State) (q : Nat) : Bool :=
  s.mayFetch q && ((s.queue q).needed && (s.queue q).started.isNone || (match (s.readUnit q).1 with
    | .ok _ => true
    | .error _ => false))

/-- The step of queue q that is due. -/
def State.dueQueue (s : State) (q : Nat) : Option (State → Res) :=
  if s.fetchDue q then some (execPacketFetch q)
  else if !s.threadRuns q then none
  else match (s.queue q).head with
    | .absent => none
    | .bad => (s.refusePacket q).map (fun t _ => .next t)
    | .packet u => s.duePacket q u

end Sys2Proof.Machine
end

