-- ==== Sys2Proof/Machine/Sha.lean ====
section
/-!
DEFINITION. SHA-384, which checks a firmware image (R143).
-/
namespace Sys2Proof.Machine.Sha
open Sys2Proof

/-- The round constants. -/
def roundK : List Nat :=
  [0x428A2F98D728AE22, 0x7137449123EF65CD, 0xB5C0FBCFEC4D3B2F, 0xE9B5DBA58189DBBC,
   0x3956C25BF348B538, 0x59F111F1B605D019, 0x923F82A4AF194F9B, 0xAB1C5ED5DA6D8118,
   0xD807AA98A3030242, 0x12835B0145706FBE, 0x243185BE4EE4B28C, 0x550C7DC3D5FFB4E2,
   0x72BE5D74F27B896F, 0x80DEB1FE3B1696B1, 0x9BDC06A725C71235, 0xC19BF174CF692694,
   0xE49B69C19EF14AD2, 0xEFBE4786384F25E3, 0x0FC19DC68B8CD5B5, 0x240CA1CC77AC9C65]
    ++ [0x2DE92C6F592B0275, 0x4A7484AA6EA6E483, 0x5CB0A9DCBD41FBD4, 0x76F988DA831153B5,
   0x983E5152EE66DFAB, 0xA831C66D2DB43210, 0xB00327C898FB213F, 0xBF597FC7BEEF0EE4,
   0xC6E00BF33DA88FC2, 0xD5A79147930AA725, 0x06CA6351E003826F, 0x142929670A0E6E70,
   0x27B70A8546D22FFC, 0x2E1B21385C26C926, 0x4D2C6DFC5AC42AED, 0x53380D139D95B3DF,
   0x650A73548BAF63DE, 0x766A0ABB3C77B2A8, 0x81C2C92E47EDAEE6, 0x92722C851482353B]
    ++ [0xA2BFE8A14CF10364, 0xA81A664BBC423001, 0xC24B8B70D0F89791, 0xC76C51A30654BE30,
   0xD192E819D6EF5218, 0xD69906245565A910, 0xF40E35855771202A, 0x106AA07032BBD1B8,
   0x19A4C116B8D2D0C8, 0x1E376C085141AB53, 0x2748774CDF8EEB99, 0x34B0BCB5E19B48A8,
   0x391C0CB3C5C95A63, 0x4ED8AA4AE3418ACB, 0x5B9CCA4F7763E373, 0x682E6FF3D6B2B8A3,
   0x748F82EE5DEFB2FC, 0x78A5636F43172F60, 0x84C87814A1F0AB72, 0x8CC702081A6439EC]
    ++ [0x90BEFFFA23631E28, 0xA4506CEBDE82BDE9, 0xBEF9A3F7B2C67915, 0xC67178F2E372532B,
   0xCA273ECEEA26619C, 0xD186B8C721C0C207, 0xEADA7DD6CDE0EB1E, 0xF57D4F7FEE6ED178,
   0x06F067AA72176FBA, 0x0A637DC5A2C898A6, 0x113F9804BEF90DAE, 0x1B710B35131C471B,
   0x28DB77F523047D84, 0x32CAAB7B40C72493, 0x3C9EBE0A15C9BEBC, 0x431D67C49C100D4C,
   0x4CC5D4BECB3E42B6, 0x597F299CFC657E2A, 0x5FCB6FAB3AD6FAEC, 0x6C44198C4A475817]

/-- The initial chaining value. -/
def start : List Nat :=
  [0xCBBB9D5DC1059ED8, 0x629A292A367CD507, 0x9159015A3070DD17, 0x152FECD8F70E5939,
   0x67332667FFC00B31, 0x8EB44A8768581511, 0xDB0C2E0D64F98FA7, 0x47B5481DBEFA4FA4]

/-- A sum modulo 2^64. -/
def add64 (a b : Nat) : Nat := (a + b) % 2 ^ 64
/-- A rotation to the right by n of 64 bits. -/
def rotr (n x : Nat) : Nat := x >>> n ||| (x <<< (64 - n)) % 2 ^ 64
/-- The complement of 64 bits. -/
def not64 (x : Nat) : Nat := 2 ^ 64 - 1 - x

/-- The functions of the message schedule. -/
def small0 (x : Nat) : Nat := rotr 1 x ^^^ rotr 8 x ^^^ x >>> 7
/-- The second function of the message schedule. -/
def small1 (x : Nat) : Nat := rotr 19 x ^^^ rotr 61 x ^^^ x >>> 6
/-- The functions of a round. -/
def big0 (x : Nat) : Nat := rotr 28 x ^^^ rotr 34 x ^^^ rotr 39 x
/-- The second function of a round. -/
def big1 (x : Nat) : Nat := rotr 14 x ^^^ rotr 18 x ^^^ rotr 41 x

/-- The message schedule extended by n words; the list holds the newest word first. -/
def extend : Nat → List Nat → List Nat
  | 0, w => w
  | n + 1, w =>
    let x := add64 (add64 (small1 (w.getD 1 0)) (w.getD 6 0)) (add64 (small0 (w.getD 14 0)) (w.getD 15 0))
    extend n (x :: w)

/-- One round with its constant and schedule word. -/
def round (h : List Nat) (kw : Nat × Nat) : List Nat :=
  match h with
  | [a, b, c, d, e, f, g, x] =>
    let t1 := add64 (add64 (add64 x (big1 e)) (e &&& f ^^^ not64 e &&& g)) (add64 kw.1 kw.2)
    let t2 := add64 (big0 a) (a &&& b ^^^ a &&& c ^^^ b &&& c)
    [add64 t1 t2, a, b, c, add64 d t1, e, f, g]
  | h => h

/-- The number that big-endian bytes hold. -/
def bigEndian (l : List Byte) : Nat := l.foldl (fun a b => 256 * a + b.toNat) 0

/-- A block of 128 bytes taken into the chaining value. -/
def block (h : List Nat) (l : List Byte) : List Nat :=
  let w := (List.range 16).map (fun i => bigEndian ((l.drop (8 * i)).take 8))
  let sched := (extend 64 w.reverse).reverse
  (h.zip ((roundK.zip sched).foldl round h)).map (fun p => add64 p.1 p.2)

/-- The blocks of a padded message. -/
def blocks : Nat → List Nat → List Byte → List Nat
  | 0, h, _ => h
  | n + 1, h, l => blocks n (block h (l.take 128)) (l.drop 128)

/-- SHA-384 of a message, as 48 bytes. -/
def sha384 (l : List Byte) : List Byte :=
  let zeros := (239 - l.length % 128) % 128
  let padded := l ++ [0x80] ++ List.replicate zeros 0 ++ (bytesOf 16 (8 * l.length)).reverse
  let h := blocks (padded.length / 128) start padded
  ((h.take 6).map (fun x => (bytesOf 8 x).reverse)).flatten

end Sys2Proof.Machine.Sha
end

