-- ==== Sys2Proof/Machine/Ecdsa.lean ====
section
/-!
DEFINITION. The check of an ECDSA signature on the curve P-384, which a slot header carries (R143).
-/
namespace Sys2Proof.Machine.Ecdsa
open Sys2Proof

/-! ### Residues -/

/-- a - b modulo m, for b below m. -/
def subMod (m a b : Nat) : Nat := (a + m - b % m) % m

/-- b to the power of the low n bits of e, modulo m. -/
def powMod (m b e : Nat) : Nat → Nat
  | 0 => 1 % m
  | n + 1 =>
    let h := powMod m b (e / 2) n
    if e % 2 = 1 then h * h % m * (b % m) % m else h * h % m

/-- The inverse modulo a prime of 384 bits. -/
def invMod (m a : Nat) : Nat := powMod m a (m - 2) 384

/-! ### The curve y² = x³ - 3x + b -/

/-- The prime of the field. -/
def prime : Nat := 2 ^ 384 - 2 ^ 128 - 2 ^ 96 + 2 ^ 32 - 1
/-- The order of the base point. -/
def order : Nat :=
  0xFFFFFFFFFFFFFFFFFFFFFFFFFFFFFFFFFFFFFFFFFFFFFFFFC7634D81F4372DDF581A0DB248B0A77AECEC196ACCC52973
/-- The base point. -/
def base : Nat × Nat :=
  (0xAA87CA22BE8B05378EB1C71EF320AD746E1D3B628BA79B9859F741E082542A385502F25DBF55296C3A545E3872760AB7,
   0x3617DE4A96262C6F5D9E98BF9292DC29F8F41DBD289A147CE9DA3113B5F0B8C00A60B1CE1D7E819D7A431D7C90EA0E5F)

/-- A point (x/z², y/z³); z = 0 is the point at infinity. -/
structure Point where
  x : Nat
  y : Nat
  z : Nat
  deriving DecidableEq, Repr

/-- A point of the plane. -/
def Point.of (p : Nat × Nat) : Point := ⟨p.1, p.2, 1⟩
/-- The point at infinity. -/
def Point.zero : Point := ⟨1, 1, 0⟩

/-- Twice a point. -/
def Point.double (p : Point) : Point :=
  let d := p.z * p.z % prime
  let g := p.y * p.y % prime
  let b := p.x * g % prime
  let a := 3 * (subMod prime p.x d * (p.x + d)) % prime
  let x := subMod prime (a * a % prime) (8 * b)
  ⟨x, subMod prime (a * subMod prime (4 * b) x) (8 * (g * g)), 2 * (p.y * p.z) % prime⟩

/-- The sum of two points. -/
def Point.add (p q : Point) : Point :=
  if p.z = 0 then q
  else if q.z = 0 then p
  else
    let pz := p.z * p.z % prime
    let qz := q.z * q.z % prime
    let u := p.x * qz % prime
    let s := p.y * (q.z * qz) % prime
    let h := subMod prime (q.x * pz % prime) u
    let r := subMod prime (q.y * (p.z * pz) % prime) s
    if h = 0 then (if r = 0 then p.double else Point.zero)
    else
      let hh := h * h % prime
      let uh := u * hh % prime
      let hhh := h * hh % prime
      let x := subMod prime (r * r % prime) (hhh + 2 * uh)
      ⟨x, subMod prime (r * subMod prime uh x) (s * hhh), p.z * q.z * h % prime⟩

/-- The multiple of a point by the low n bits of k. -/
def Point.mul (p : Point) (k : Nat) : Nat → Point
  | 0 => Point.zero
  | n + 1 =>
    let h := (p.mul (k / 2) n).double
    if k % 2 = 1 then h.add p else h

/-- The signature (r, s) of a message verifies under a public key. -/
def verify (key : Nat × Nat) (r s : Nat) (message : List Byte) : Bool :=
  let e := Sha.bigEndian (Sha.sha384 message)
  let w := invMod order s
  1 ≤ r && r < order && 1 ≤ s && s < order
    && (let p := ((Point.of base).mul (e * w % order) 384).add ((Point.of key).mul (r * w % order) 384)
        p.z ≠ 0 && p.x * powMod prime p.z (2 * (prime - 2)) 385 % prime % order == r)

end Sys2Proof.Machine.Ecdsa
end

