-- ==== Sys2Proof/Machine/Region.lean ====
section
/-!
DEFINITION. The region table, its versions and their drain, migration, the memory controllers, error counters, far ports
and key slots (R86 to R102).
-/
namespace Sys2Proof.Machine
open Sys2Proof

/-! ### The region table (R88, R90) -/

/-- The writable bits of a region entry; the others are reserved (R8, R88). -/
def regMask : Nat :=
  0x3F + 0xFFF * 2 ^ 8 + (2 ^ 52 - 1) * 2 ^ 64 + (2 ^ 53 - 1) * 2 ^ 128 + (2 ^ 64 - 1) * 2 ^ 192

/-- The capacity of a unit (R87). -/
def State.unitCap (s : State) (u : Nat) : Nat := if u < 12 then 2 ^ 36 else Assoc.get s.mem.farCap (u - 12) 0

/-- The bytes that a region takes at most in each of its units, from DOFF (R90). -/
def regSpan (r : Nat) : Nat :=
  ceilDiv (regLimit r - regBase r) ((regUnits r).length * regGranule r) * regGranule r
/-- The bytes that a region takes in the i-th of its units, from DOFF: granule g lies in unit g mod n (R89). -/
def regUsed (r i : Nat) : Nat :=
  let n := (regUnits r).length
  ceilDiv (ceilDiv (regLimit r - regBase r) (regGranule r) - i) n * regGranule r

/-- DOFF. -/
def regOff (r : Nat) : Nat := field r 255 192
/-- An entry passes the checks of R90 that concern it alone; what R88 says must be 0 is checked too. -/
def State.regionOk (s : State) (r : Nat) : Bool :=
  let aligned := regBase r % 2 ^ 21 == 0 && regLimit r % 2 ^ 21 == 0 && regLimit r ≤ 2 ^ 52 && regBase r < regLimit r
  let units := regAllUnits r
  field r 5 4 != 3 && regTarget r < 4 && aligned && (
    if regTarget r = 1 || regTarget r = 2 then
      regOff r % 2 ^ 21 == 0 && !units.isEmpty && units.all (fun u => regOff r + regSpan r ≤ s.unitCap u)
        && (regTarget r = 1 || units.all (fun u => u < 20 && s.unitUp u))
    else if regTarget r = 3 then regOff r % 2 ^ 12 == 0
    else true)

/-- The lowest entry of bank b that keeps it from becoming current (R90). -/
def State.bankFault (s : State) (b : Nat) : Option Nat :=
  let valid (e : Nat) : Bool := s.region b e % 2 == 1
  let overlaps (e : Nat) : Bool := (List.range 16).any (fun f =>
    f != e && valid f && regBase (s.region b e) < regLimit (s.region b f) && regBase (s.region b f) < regLimit (s.region b e))
  (List.range 16).find? (fun e => valid e && (!s.regionOk (s.region b e) || overlaps e))

/-! ### Versions and their drain (R92) -/

/-- A message is a drain marker or the announcement of a version. -/
def IMsg.isMarker (m : IMsg) : Bool :=
  match m.payload with
  | .marker _ => true
  | _ => false

/-- The next version. -/
def State.nextVer (s : State) : Nat := (s.mem.cur + 1) % 4

/-- Drain markers of version v sent on every stream that has left a die (R92), behind what is on it. -/
def State.sendMarkers (s : State) (die v : Nat) : State :=
  ((s.streamNum.map (·.1)).filter (fun k => k % 16 == die)).foldl (fun s k =>
    s.sendInternal die (k / 128 % 16) (k / 16 % 8) (k / 2048) (.marker v)) s

/-- An accepted advance (R92): bank CUR + 1 becomes current and is announced to every die; until a die has heard of it, it
stamps the old version. The H die itself has. -/
def State.advance (s : State) : State :=
  let old := s.mem.cur
  let v := s.nextVer
  let s := s.modMem (fun m => { m with
    old := old, cur := v, draining := true, dieVer := (List.range 15).map (fun d => (d, old)) })
  let s := s.sendMarkers 15 v
  (List.range 15).foldl (fun s d => s.sendInternal 15 d 5 (fixedUnit 15 31) (.marker (4 + v))) s

/-- A refused advance or migration start (R91). -/
def State.refuseMap (s : State) (e : Nat) : State := s.modMem (fun m => { m with err := true, errEnt := e })

/-- REGION_ADVANCE (R92): MAPCTL.ADVANCE. -/
def execRegionAdvance (s : State) : Res :=
  .next (
    if s.mem.draining || s.mem.migActive then s.modMem (fun m => { m with err := true })
    else match s.bankFault s.nextVer with
      | some e => s.refuseMap e
      | none => s.advance)

/-- DRAIN_MARKER (R92): a die takes marker i of those that have arrived. An announcement changes the version it stamps, and
the die sends a marker on each of its streams, behind the last request of the old version. -/
def execDrainMarker (die i : Nat) (s : State) : Res :=
  .next (match s.mem.markers[i]? with
    | none => s
    | some (d, v) =>
      if d ≠ die then s
      else
        let s := s.modMem (fun m => { m with markers := m.markers.eraseIdx i })
        if v < 4 then s
        else
          (s.modMem (fun m => { m with dieVer := Assoc.del m.dieVer die })).sendMarkers die (v - 4))

/-- Every die that can be reached stamps the current version, and every marker has been received (R92). -/
def State.drained (s : State) : Bool :=
  s.mem.draining && s.mem.markers.isEmpty && s.mem.dieVer.all (fun p => !s.reach 15 p.1)
    && s.messages.all (fun m => !m.isMarker)

/-- DRAIN_COMPLETE (R92, R95). -/
def execDrainComplete (s : State) : Res :=
  .next ((if s.drained then s.modMem (fun m => { m with draining := false, dieVer := [] }) else s).endMigration)

/-! ### Migration (R93 to R95) -/

/-- A migration of entry e may start from bank CUR to bank b (R93), apart from the checks of R90. -/
def State.migrationOk (s : State) (e b : Nat) : Bool :=
  let x := s.region s.mem.cur e
  let y := s.region b e
  let tierOk (r : Nat) : Bool := r % 2 == 1 && (regTarget r == 1 || regTarget r == 2)
  let used (r : Nat) : List (Nat × Nat) := (regAllUnits r).mapIdx (fun i u => (u, regUsed r i))
  let apart := (used x).all (fun p => (used y).all (fun q => p.1 != q.1 || p.2 == 0 || q.2 == 0
    || regOff x + p.2 ≤ regOff y || regOff y + q.2 ≤ regOff x))
  tierOk x && tierOk y && regBase x == regBase y && regLimit x == regLimit y
    && (List.range 16).all (fun f => f == e || s.region s.mem.cur f == s.region b f) && apart

/-- MIGRATION_START (R93): MIGCTL.GO, with REGION as written. -/
def execMigrationStart (v : Word) (s : State) : Res :=
  .next (
    let e := field v.toNat 3 0
    let s := s.modMem (fun m => { m with migSel := e, migResume := v.getLsbD 6 })
    if s.mem.draining || s.mem.migActive then s.modMem (fun m => { m with err := true })
    else match s.bankFault s.nextVer with
      | some f => s.refuseMap f
      | none =>
        if !s.migrationOk e s.nextVer then s.refuseMap e
        else (s.modMem (fun m => { m with migRegion := e, migActive := true, migStopped := false, cursor := 0 })).advance)

/-- MIGRATION_RESUME (R95): MIGCTL.RESUME. -/
def execMigrationResume (s : State) : Res :=
  .next (if s.mem.migActive then s.modMem (fun m => { m with migStopped := false }) else s)

/-- MIGSTAT_READ (R93): the register is returned; LATE and EARLY are cleared. -/
def execMigstatRead (s : State) : Res :=
  .next ((s.returnRead (s.mem.cursor * 2 ^ 32 + s.mem.late * 2 ^ 16 + s.mem.early)).modMem (fun m => { m with
    late := 0, early := 0 }))

/-- MIGRATION_BLOCK_COPY (R94, R95). -/
def execMigrationBlockCopy (s : State) : Res := .next s.copyBlock

/-! ### The memory controllers (R94, R98, R100, R371) -/

/-- The order that R235 and R284 keep among the requests of one party to one block: the party with the kind of access, and
the place in its order. -/
def Requester.order : Requester → Option (Nat × Nat)
  | .load c x _ seq _ => some (4 * (4 * c + x), seq)
  | .store c x seq _ => some (4 * (4 * c + x) + 1, seq)
  | .atomic c x _ _ w => some (4 * (4 * c + x) + 1, w)
  | .copySrc c ch uid row _ => some (4 * (16 * c + ch) + 2, uid * 2 ^ 20 + row)
  | .copyDst c ch uid row _ => some (4 * (16 * c + ch) + 3, uid * 2 ^ 20 + row)
  | .host _ | .none => Option.none

/-- An earlier request of the same party to the same block is still on its way. -/
def State.hasOlder (s : State) (r : MemReq) : Bool :=
  match r.who.order with
  | none => false
  | some (party, n) =>
    let older (q : MemReq) : Bool := q.pa / 64 == r.pa / 64 && (match q.who.order with
      | some (p, k) => p == party && k < n
      | none => false)
    s.mem.reqs.any older || s.messages.any (fun m => m.request?.any older)

/-- What becomes of a request at its controller (R94). -/
inductive AtUnit where
  | waits
  | forward (unit uaddr : Nat) (late : Bool)
  | serve

/-- R94 for a request. -/
def State.atUnit (s : State) (r : MemReq) : AtUnit :=
  if s.hasOlder r then .waits
  else if r.forwarded then .serve
  else match s.migBlock r.pa with
    | none => .serve
    | some b =>
      if b = s.mem.cursor then .waits
      else
        let moved := b < s.mem.cursor
        match s.unitPlace (if moved then s.mem.cur else s.mem.old) r.pa with
        | none => .serve
        | some (u, a) => if u = r.unit ∧ a = r.uaddr then .serve else .forward u a moved

/-- A request may leave its controller now, forwarded or performed. -/
def State.reqReady (s : State) (r : MemReq) : Bool :=
  match s.atUnit r with
  | .waits => false
  | _ => true

/-- A request that another controller serves is forwarded to it and counted (R94). -/
def State.forwardReq (s : State) (r : MemReq) (u a : Nat) (late : Bool) : State :=
  (s.countForward r.ver late).sendInternal (unitDie r.unit) (unitDie u) 0 (fixedUnit (unitDie r.unit) 16) (.request { r with unit := u, uaddr := a, forwarded := true })

/-- The answer of a controller. -/
def State.answerReq (s : State) (r : MemReq) (res : Answer) : State :=
  s.reply (unitDie r.unit) (fixedUnit (unitDie r.unit) (r.unit % 16)) r.who res

/-- The fault of a request at its unit: a far port that is down (R97), or a key slot disabled since translation (R101). -/
def State.reqFault (s : State) (r : MemReq) : Option Nat :=
  if !s.unitUp r.unit then some 0x2D else if !s.keyEnabled r.key then some 0x19 else none

/-- Request i taken from its controller when it may be, and served with `f`. -/
def State.takeReq (s : State) (i : Nat) (f : MemReq → State → State) : State :=
  match s.mem.reqs[i]? with
  | none => s
  | some r =>
    let s' := s.modMem (fun m => { m with reqs := m.reqs.eraseIdx i })
    match s.atUnit r with
    | .waits => s
    | .forward u a late => s'.forwardReq r u a late
    | .serve => match s.reqFault r with
      | some c => s'.answerReq r (.err c)
      | none => f r s'

/-- MEMORY_READ (R98): request i is a read. -/
def execMemoryRead (i : Nat) (finding : Finding) (s : State) : Res :=
  .next (match (s.mem.reqs[i]?).map MemReq.op with
    | some (.read n) => s.takeReq i (fun r s =>
        let s := s.checkBlock r.unit r.uaddr finding
        if s.poisoned r.unit r.uaddr then s.answerReq r (.err 0x2E)
        else s.answerReq r (.ok (((s.blockRead r.unit r.uaddr r.pa r.key).drop (r.uaddr % 64)).take n)))
    | _ => s)

/-- MEMORY_WRITE (R98, R369): request i is a write; a part of a poisoned block is discarded and answered with 0x2E. -/
def execMemoryWrite (i : Nat) (s : State) : Res :=
  .next (match (s.mem.reqs[i]?).map MemReq.op with
    | some (.write data) => s.takeReq i (fun r s =>
        let lost := s.lost r.unit r.uaddr && data.length < 64
        (s.blockWrite r.unit r.uaddr r.pa r.key data).answerReq r (if lost then .err 0x2E else .ok []))
    | _ => s)

/-- MEMORY_ATOMIC (R371): request i is an atomic, performed as one step on its word. -/
def execMemoryAtomic (i : Nat) (finding : Finding) (s : State) : Res :=
  .next (match (s.mem.reqs[i]?).map MemReq.op with
    | some (.atomic op v c) => s.takeReq i (fun r s =>
        let s := s.checkBlock r.unit r.uaddr finding
        if s.poisoned r.unit r.uaddr then s.answerReq r (.err 0x2E)
        else
          let old := BitVec.ofNat 64 (ofBytes (((s.blockRead r.unit r.uaddr r.pa r.key).drop (r.uaddr % 64)).take 8))
          ((s.cleanBlock r.unit r.uaddr).blockWrite r.unit r.uaddr r.pa r.key (bytesOf 8 (amoApply op old v c).1.toNat)).answerReq r
            (.ok (bytesOf 8 old.toNat)))
    | _ => s)

/-- The step that serves request i, with no error found. -/
def MemReq.step (r : MemReq) (i : Nat) : State → Res :=
  match r.op with
  | .read _ => execMemoryRead i .clean
  | .write _ => execMemoryWrite i
  | .atomic _ _ _ => execMemoryAtomic i .clean

/-! ### Scrubbing and counters (R99) -/

/-- SCRUB_READ (R99): the scrubber reads a block while no request waits for its unit, and rewrites it if corrected. -/
def execScrubRead (u block : Nat) (finding : Finding) (s : State) : Res :=
  .next (
    if s.mem.scrub = 0 || 20 ≤ u || s.unitCap u < 64 * block + 64 || !s.unitUp u || s.mem.reqs.any (fun r => r.unit == u) then s
    else
      let s := s.checkBlock u (64 * block) finding
      if s.poisoned u (64 * block) then s else s.cleanBlock u (64 * block))

/-- ECCCNT_READ (R99): the register is returned and its counts are cleared. -/
def execEcccntRead (u : Nat) (s : State) : Res :=
  .next (
    let (c, n) := Assoc.get s.mem.ecc u (0, 0)
    (s.returnRead (c * 2 ^ 32 + n * 2 ^ 16)).modMem (fun m => { m with ecc := Assoc.del m.ecc u }))

/-! ### Far ports (R95, R97) -/

/-- A placement of the migrating region uses a far port. -/
def State.migUses (s : State) (port : Nat) : Bool :=
  s.mem.migActive && [s.mem.old, s.mem.cur].any (fun v => (regAllUnits (s.region v s.mem.migRegion)).contains (12 + port))

/-- CXL_PORT_DOWN (R95, R97). -/
def execCxlPortDown (port : Nat) (s : State) : Res :=
  .next (
    let stop := s.migUses port && s.mem.cursor < s.migBlocks
    s.modMem (fun m => { m with
      farUp := setErase m.farUp port, migErr := m.migErr || stop, migStopped := m.migStopped || stop }))

/-- CXL_PORT_RETRAIN (R97): a port that has an expander is up again. -/
def execCxlPortRetrain (port : Nat) (s : State) : Res :=
  .next (if (Assoc.find s.mem.farCap port).isSome then s.modMem (fun m => { m with farUp := setInsert m.farUp port }) else s)

/-! ### Key slots (R101) -/

/-- The fields of a KEYCTL write. -/
def State.keyFields (s : State) (v : Word) : State :=
  s.modMem (fun m => { m with
    keySrc := field v.toNat 57 12, keySlotSel := field v.toNat 11 4, keyOp := field v.toNat 2 1
    keyErr := m.keyErr && !v.getLsbD 3 })

/-- An operation refused. -/
def State.refuseKey (s : State) : State := s.modMem (fun m => { m with keyErr := true })

/-- The key block of KEYCTL.SRC, when it lies in a near region that can be reached: its unit and unit address. -/
def State.keyBlock (s : State) : Option (Nat × Nat) :=
  match s.servedAt s.mem.cur (64 * s.mem.keySrc) with
  | some (.memory u a) => if u < 12 && s.unitLive u then some (u, a) else none
  | _ => none

/-- KEY_LOAD (R101): KEYCTL with OP 1. -/
def execKeyLoad (v : Word) (s : State) : Res :=
  .next (
    let s := s.keyFields v
    let k := s.mem.keySlotSel
    let s := s.meetMigration 15 (64 * s.mem.keySrc)
    match s.keyBlock with
    | none => s.refuseKey
    | some (u, a) =>
      let s := s.checkBlock u a .clean
      let d := s.rawRead u a 64
      let dk := BitVec.ofNat 256 (ofBytes (d.take 32))
      let tk := BitVec.ofNat 256 (ofBytes (d.drop 32))
      if k = 0 || s.keyEnabled k || s.poisoned u a || dk = tk then s.refuseKey
      else ((s.rawWrite u a (List.replicate 64 0)).cleanBlock u a).modMem (fun m => { m with keys := Assoc.put m.keys k ⟨dk, tk, true, false⟩ }))

/-- KEY_ENABLE (R101): KEYCTL with OP 2. -/
def execKeyEnable (v : Word) (s : State) : Res :=
  .next (
    let s := s.keyFields v
    let k := s.mem.keySlotSel
    if k = 0 || !(s.key k).loaded then s.refuseKey
    else s.modMem (fun m => { m with keys := Assoc.put m.keys k { s.key k with enabled := true } }))

/-- KEY_DISABLE (R101): KEYCTL with OP 3. -/
def execKeyDisable (v : Word) (s : State) : Res :=
  .next (
    let s := s.keyFields v
    let k := s.mem.keySlotSel
    if k = 0 then s.refuseKey
    else s.modMem (fun m => { m with keys := Assoc.put m.keys k { s.key k with enabled := false } }))

end Sys2Proof.Machine
end

