-- ==== Sys2Proof/Machine/Firmware.lean ====
section
/-!
DEFINITION. The boot flash, its marker copies and slots, boot, and the firmware operations (R141 to R146).
-/
namespace Sys2Proof.Machine
open Sys2Proof

/-! ### The flash (R141) -/

/-- The byte at a flash offset: of the newest erased or programmed run that holds it, else as shipped. An erased byte reads
0xFF. -/
def flashAt (l : List (Nat × Nat × List Byte)) (a : Nat) : Byte :=
  match l.find? (fun p => p.1 ≤ a && a < p.1 + p.2.1) with
  | some p => p.2.2.getD (a - p.1) 0xFF
  | none => Config.flashByte a

/-- n bytes of the flash. -/
def Firmware.read (f : Firmware) (a n : Nat) : List Byte := (List.range n).map (fun i => flashAt f.flash (a + i))

/-- The state with the firmware unit changed. -/
def State.modFw (s : State) (f : Firmware → Firmware) : State := { s with fw := f s.fw }

/-- A run of the flash erased and programmed from its start. -/
def Firmware.program (f : Firmware) (a n : Nat) (d : List Byte) : Firmware := { f with flash := (a, n, d) :: f.flash }

/-- The flash offset of a slot. -/
def slotBase (slot : Nat) : Nat := if slot = 0 then 0x00100000 else 0x01900000
/-- The size of a slot. -/
def slotSize : Nat := 24 * 2 ^ 20

/-! ### Markers (R142) -/

/-- Marker copy c: SEQ and SLOT, if it is valid. -/
def Firmware.marker (f : Firmware) (c : Nat) : Option (Nat × Nat) :=
  let b := f.read (4096 * c) 32
  let w (i n : Nat) : Nat := ofBytes ((b.drop i).take n)
  if w 0 4 = 0x4B574D4B && w 8 1 ≤ 1 && w 9 19 = 0 && w 28 4 = crc32 (b.take 28) then some (w 4 4, w 8 1) else none

/-- The bytes of a marker copy. -/
def markerBytes (seq slot : Nat) : List Byte :=
  let b := bytesOf 4 0x4B574D4B ++ bytesOf 4 seq ++ bytesOf 20 slot
  b ++ bytesOf 4 (crc32 b)

/-! ### Slots (R143) -/

/-- The signature (r, s) in bytes 159:64 of a header, each 48 bytes little-endian (R4), verifies over bytes 63:0. -/
def signatureOk (h : List Byte) : Bool :=
  Ecdsa.verify Config.publicKey (ofBytes ((h.drop 64).take 48)) (ofBytes ((h.drop 112).take 48)) (h.take 64)

/-- The slot is good. -/
def Firmware.good (f : Firmware) (slot : Nat) : Bool :=
  let h := f.read (slotBase slot) 160
  let w (i : Nat) : Nat := ofBytes ((h.drop i).take 4)
  w 0 == 0x4B574649 && w 12 ≤ slotSize - 4096 && Config.minSecurity ≤ w 8
    && Sha.sha384 (f.read (slotBase slot + 4096) (w 12)) == (h.drop 16).take 48 && signatureOk h

/-- The version of a slot, 0 when it is not good. -/
def Firmware.version (f : Firmware) (slot : Nat) : Nat :=
  if f.good slot then ofBytes (f.read (slotBase slot + 4) 4) else 0

/-! ### Boot (R144) -/

/-- The preferred slot. -/
def Firmware.preferred (f : Firmware) : Nat :=
  match f.marker 0, f.marker 1 with
  | some (a, x), some (b, y) => if a < b then y else x
  | some (_, x), none => x
  | none, some (_, y) => y
  | none, none => 0

/-- R144: the slot that boots, a fallback with its event, or recovery. -/
def State.boot (s : State) : State :=
  let p := s.fw.preferred
  if s.fw.good p then s.modFw (fun f => { f with active := p, run := 0, fallback := false })
  else if s.fw.good (1 - p) then
    (s.modFw (fun f => { f with active := 1 - p, run := 0, fallback := true })).logEvent 15 0x103 (1 - p)
  else s.modFw (fun f => { f with run := 3 })

/-! ### Operations (R145) -/

/-- An operation of FWCTL ends: GO clears and vector 3 fires. -/
def State.endFw (s : State) (bad : Bool) : State :=
  (s.modFw (fun f => { f with work := none, err := f.err || bad })).fireVector 0 3

/-- An operation of FWCTL has come to its place n. -/
def Firmware.goOn (f : Firmware) (op n : Nat) : Firmware := { f with work := some (op, n) }

/-- A write of FWCTL (R145): GO begins an operation; a GO while GO = 1, or with a reserved OP, is ignored. -/
def State.writeFwctl (s : State) (v : Word) : State :=
  let op := field v.toNat 3 1
  if !v.getLsbD 0 then s.modFw (fun f => { f with op := op })
  else if s.fw.work.isSome || op = 0 || 3 < op then s.refuseCfg
  else s.modFw (fun f => { f with op := op, work := some (op, 0) })

/-- The slot not running. -/
def Firmware.inactive (f : Firmware) : Nat := 1 - f.active

/-- The unit and unit address of a staged byte, in a near region that can be reached. -/
def State.stagedPlace (s : State) (pa : Nat) : Option (Nat × Nat) :=
  match s.servedAt s.mem.cur pa with
  | some (.memory u a) => if u < 12 && s.unitLive u then some (u, a) else none
  | _ => none

/-- n staged bytes of near memory, read without a key; none where they cannot be read. -/
def State.staged (s : State) (pa n : Nat) : Option (List Byte) :=
  ((blockPieces (n + 1) pa n).mapM (fun (p : Nat × Nat) => match s.stagedPlace p.1 with
    | some (u, a) => if s.lost u a then none else some (s.rawRead u a p.2)
    | none => none)).map List.flatten

/-- The staged blocks that a read of n bytes meets are checked (R98). -/
def State.checkStaged (s : State) (pa n : Nat) : State :=
  ((blockPieces (n + 1) pa n).filterMap (fun p => s.stagedPlace p.1)).foldl (fun s p => s.checkBlock p.1 p.2 .clean) s

/-- FW_WRITE_SLOT (R145): a write of FWCTL that begins OP 1, or one part of OP 1 while it lasts. The inactive slot is erased;
its body is programmed from FWSRC sector by sector; last the header is programmed and all is compared, which `readback` says
comes out equal. So the slot is not good while the operation lasts (R146). DESIGN CHOICE (log 63): an image that cannot be
read, or whose LEN is beyond its limit, ends it with ERR. -/
def execFwWriteSlot (v : Word) (readback : Bool) (s : State) : Res :=
  .next (
    let base := slotBase s.fw.inactive
    match s.fw.work with
    | some (1, 0) => s.modFw (fun f => (f.program base slotSize []).goOn 1 1)
    | some (1, n + 1) =>
      match s.staged (4096 * s.fw.src) 4096 with
      | none => (s.checkStaged (4096 * s.fw.src) 4096).endFw true
      | some h =>
        let s := s.checkStaged (4096 * s.fw.src) 4096
        let len := ofBytes ((h.drop 12).take 4)
        if slotSize - 4096 < len then s.endFw true
        else if 4096 * n < len then
          let pa := 4096 * (s.fw.src + 1 + n)
          let size := min 4096 (len - 4096 * n)
          match s.staged pa size with
          | none => (s.checkStaged pa size).endFw true
          | some d => (s.checkStaged pa size).modFw (fun f => (f.program (base + 4096 * (n + 1)) 4096 d).goOn 1 (n + 2))
        else (s.modFw (fun f => f.program base 4096 h)).endFw (!readback)
    | _ => s.writeFwctl v)

/-- FW_VERIFY_SLOT (R145): a write of FWCTL that begins OP 2, or OP 2 itself. -/
def execFwVerifySlot (v : Word) (s : State) : Res :=
  .next (match s.fw.work with
    | some (2, _) => s.endFw (!s.fw.good s.fw.inactive)
    | _ => s.writeFwctl v)

/-- The marker copy that an activation writes. -/
def Firmware.markerTarget (f : Firmware) : Nat :=
  match f.marker 0, f.marker 1 with
  | none, _ => 0
  | some _, none => 1
  | some (a, _), some (b, _) => if a < b then 0 else 1

/-- The highest SEQ of the valid marker copies, or 0. -/
def Firmware.topSeq (f : Firmware) : Nat := max (((f.marker 0).map (·.1)).getD 0) (((f.marker 1).map (·.1)).getD 0)

/-- FW_ACTIVATE_SLOT (R145): a write of FWCTL that begins OP 3, or one part of OP 3 while it lasts. The inactive slot is
verified; the sector of a marker copy is erased; it is programmed with a marker that names the slot (R146). -/
def execFwActivateSlot (v : Word) (s : State) : Res :=
  .next (match s.fw.work with
    | some (3, 0) =>
      if !s.fw.good s.fw.inactive || s.fw.topSeq = 0xFFFFFFFF then s.endFw true else s.modFw (·.goOn 3 1)
    | some (3, 1) => s.modFw (fun f => (f.program (4096 * f.markerTarget) 4096 []).goOn 3 2)
    | some (3, _) =>
      (s.modFw (fun f => f.program (4096 * f.markerTarget) 4096 (markerBytes (f.topSeq + 1) f.inactive))).endFw false
    | _ => s.writeFwctl v)

/-- The part of a firmware operation that is due (R145). -/
def State.dueFirmware (s : State) : Option (State → Res) :=
  match s.fw.work with
  | some (1, _) => some (execFwWriteSlot 0 true)
  | some (2, _) => some (execFwVerifySlot 0)
  | some (3, _) => some (execFwActivateSlot 0)
  | _ => none

end Sys2Proof.Machine
end

