-- ==== Sys2Proof/Machine/Power.lean ====
section
/-!
DEFINITION. Power, throttling and telemetry (R27 to R31). A reference tick is 10 ns.
-/
namespace Sys2Proof.Machine
open Sys2Proof

/-- The state with the power controllers changed. -/
def State.modPower (s : State) (f : Power → Power) : State := { s with power := f s.power }

/-- K (R29): the largest of the controllers' values and the floor. -/
def Power.k (p : Power) : Nat := max (max p.kPower p.kThermal) (max p.kDroop p.kmin)

/-- CAUSE (R29). -/
def Power.cause (p : Power) : Nat :=
  if p.k = 0 then 0 else if p.kDroop = p.k then 3 else if p.kThermal = p.k then 2 else if p.kPower = p.k then 1 else 4

/-- PWRSTRETCH (R30). -/
def Power.stretch (p : Power) : Nat := p.cause * 2 ^ 16 + p.kmin * 2 ^ 8 + p.k

/-- A new power limit, clamped to 3,200 W (R27). -/
def State.setLimit (s : State) (w : Nat) : State :=
  let s' := s.modPower (fun p => { p with limit := min 3200 w })
  if 3200 < w then s'.clamped else s'

/-- PWRLIMIT_WRITE (R27, R30). -/
def execPwrlimitWrite (v : Word) (s : State) : Res := .next (s.setLimit (field v.toNat 11 0))

/-- PWRSTRETCH_WRITE (R30, R119): KMIN above 16 stores 16 and sets CLAMP. -/
def execPwrstretchWrite (v : Word) (s : State) : Res :=
  .next (
    let s := s.modPower (fun p => { p with kmin := min 16 (field v.toNat 12 8) })
    if 16 < field v.toNat 12 8 then s.clamped else s)

/-- POWER_CONTROLLER_TICK (R29): every 10 µs, with the measured package power. -/
def execPowerControllerTick (watts : Nat) (s : State) : Res :=
  .next (
    if s.ticks < s.power.tickAt + 1000 then s
    else s.modPower (fun p =>
      let p := { p with tickAt := s.ticks }
      if p.limit < watts then { p with kPower := min 16 (p.kPower + 1), below := 0 }
      else if 100 * watts < 95 * p.limit then
        if 9 ≤ p.below then { p with kPower := p.kPower - 1, below := 0 } else { p with below := p.below + 1 }
      else { p with below := 0 }))

/-- The telemetry counters alone, all else at reset: what a thermal trip leaves of the power controllers (R29, R31). -/
def Power.counters (p : Power) : Power :=
  { Power.reset with
    droops := p.droops, ticksAt := p.ticksAt, energy := p.energy, temps := p.temps, peaks := p.peaks
    seenTicks := p.seenTicks, seenCycles := p.seenCycles, seenDroops := p.seenDroops, cycleBase := p.cycleBase }

/-- A thermal trip (R29): power is removed from all but the management block of the H die. The event log, with the trip, and
the telemetry counters remain. -/
def State.trip (s : State) (die : Nat) : State :=
  let s := s.logEvent die 0x101 die
  { State.reset with
    eventLog := s.eventLog
    agenda := s.agenda
    fw := { State.reset.fw with flash := s.fw.flash }
    power := { s.power.counters with cycleBase := s.power.cycleBase + s.cycle, off := true } }

/-- THERMAL_THRESHOLD (R29, R125): the junction temperatures of the dies in 1/16 °C. The first die at 115 °C trips; the
controller's rise to 16 is the thermal warning. -/
def execThermalThreshold (temps : List Nat) (s : State) : Res :=
  .next (
    if temps.any (fun t => 115 * 16 ≤ t) then s.trip (temps.findIdx (fun t => 115 * 16 ≤ t))
    else if temps.any (fun t => 105 * 16 ≤ t) then
      let s' := s.modPower (fun p => { p with kThermal := 16 })
      if s.power.kThermal = 16 then s' else s'.fireVector 0 0
    else if temps.all (fun t => t ≤ 100 * 16) then s.modPower (fun p => { p with kThermal := 0 })
    else s)

/-- DROOP_DETECT (R29): a detector on a C die fires; the clamp holds for 10 µs. -/
def execDroopDetect (die : Nat) (s : State) : Res :=
  .next (
    if 7 < die then s
    else s.modPower (fun p => { p with kDroop := 16, droopEnd := s.ticks + 1000, droops := (p.droops + 1) % 2 ^ 64 }))

/-- The droop clamp's hold has expired. -/
def State.droopOver (s : State) : Bool := s.power.kDroop == 16 && s.power.droopEnd ≤ s.ticks

/-- DROOP_HOLD_END (R29). -/
def execDroopHoldEnd (s : State) : Res := .next (if s.droopOver then s.modPower (fun p => { p with kDroop := 0 }) else s)

/-- THERMAL_TRIP (R29): a die has reached 115 °C. -/
def execThermalTrip (die : Nat) (s : State) : Res := .next (s.trip die)

/-- Two lists combined place by place, the first one's length kept. -/
def zipLong (f : Nat → Nat → Nat) : List Nat → List Nat → List Nat
  | [], _ => []
  | x :: t, [] => x :: t
  | x :: t, y :: u => f x y :: zipLong f t u

/-- TELEMETRY_SAMPLE (R31): every 1 µs, with the energy used by each die group since the last sample in µJ and the junction
temperatures in 1/16 °C. -/
def execTelemetrySample (energy temps : List Nat) (s : State) : Res :=
  .next (
    if s.ticks < s.power.sampleAt + 100 then s
    else s.modPower (fun p => { p with
      sampleAt := s.ticks
      energy := zipLong (fun a b => (a + b) % 2 ^ 64) p.energy energy
      temps := zipLong (fun _ b => b % 2 ^ 64) p.temps temps
      peaks := zipLong (fun a b => max a (b % 2 ^ 64)) p.peaks temps
      seenTicks := p.ticksAt
      seenCycles := s.elapsed
      seenDroops := p.droops }))

end Sys2Proof.Machine
end

