-- ==== Sys2Proof/Machine/Wake.lean ====
section
/-!
DEFINITION. Power-on, the wake sequence, and the removal of a core (R32, R38, R86).
-/
namespace Sys2Proof.Machine
open Sys2Proof

/-- POWER_ON_RESET (R29, R32, R36, R141): the package at reset, with what the H die keeps: the event log, the flash and the
telemetry counters of a thermal trip. CORESAVAIL holds the cores that pass their self-test (R38), which is a free value. -/
def execPowerOnReset (s : State) : Res :=
  .next { State.reset with
    coresAvail := Config.selfTest s.free
    free := s.free + 1
    eventLog := s.eventLog
    agenda := s.agenda
    fw := { State.reset.fw with flash := s.fw.flash }
    power := if s.power.off then s.power.counters else Power.reset }

/-- The state with the wake sequence changed. -/
def State.modWake (s : State) (f : Wakeup → Wakeup) : State := { s with wake := f s.wake }

/-- The dies of a wake step. -/
def Wakeup.dies (w : Wakeup) : List Nat :=
  if w.step = 1 then [15] else if w.step = 2 then [14] else if w.step = 3 then [8, 9, 10, 11]
  else if w.step = 4 then [12, 13] else if w.step = 5 then [w.die] else []

/-- The limit of a wake step in reference ticks (R32). -/
def Wakeup.limit (w : Wakeup) : Nat :=
  if w.step = 1 then 40000000 else if w.step = 2 then 500000 else if w.step = 3 then 5000000
  else if w.step = 4 then 20000000 else if w.step = 5 then 200000 else 10000000

/-- The next step of the sequence begins. -/
def State.nextWake (s : State) : State :=
  s.modWake (fun w =>
    if w.step = 5 && w.die < 7 then { w with die := w.die + 1, since := s.ticks }
    else { w with step := w.step + 1, since := s.ticks })

/-- A region entry of 4 KiB granules, of its target, unit mask, base and limit. -/
def regionEntry (target units base limit : Nat) : BitVec 256 :=
  BitVec.ofNat 256 (1 + target * 2 + units * 2 ^ 8 + base * 2 ^ 64 + limit * 2 ^ 128)

/-- Regions 0 and 2 of the default map, written at boot (R86). -/
def State.bootMap (s : State) : State :=
  let near := regionEntry 1 0xFFF 0 0xC000000000
  let out := regionEntry 3 0 0x8000000000000 0x10000000000000
  s.modMem (fun m => { m with regions := Assoc.put (Assoc.put m.regions 0 near) 2 out })

/-- The far ports that trained, with their capacities, and region 1 (R86, R87). -/
def State.farMap (s : State) (capacities : List Nat) : State :=
  let ports := ((List.range 8).map (fun p => (p, min (capacities.getD p 0) (2 ^ 39)))).filter (fun p => p.2 != 0)
  let least := (ports.map (·.2)).foldl min (2 ^ 39)
  let f := least / 2 ^ 21 * 2 ^ 21 * ports.length
  let mask := (ports.map (fun p => 2 ^ p.1)).foldl (· + ·) 0
  let base := 0x10000000000
  s.modMem (fun m => { m with
    farUp := ports.map (·.1)
    farCap := ports
    regions := if f = 0 then m.regions else Assoc.put m.regions 1 (regionEntry 2 mask base (base + f)) })

/-- WAKE_STEP_READY (R32): the step reports ready; `capacities` are those behind the far ports that trained, in step 4. -/
def execWakeStepReady (capacities : List Nat) (s : State) : Res :=
  .next (
    if 6 < s.wake.step then s
    else
      let step := s.wake.step
      let s := s.modWake (fun w => { w with ready := w.dies.foldl setInsert w.ready })
      let s := if step = 1 then (let t := s.boot; if t.fw.run = 3 then t else t.bootMap)
        else if step = 4 then s.farMap capacities else s
      s.nextWake)

/-- The paths of a die (R14, R15). -/
def diePaths (d : Nat) : List (Nat × Nat) :=
  if d < 8 then [(d, 8 + d / 2), (d, 14)]
  else if d < 12 then [(2 * (d - 8), d), (2 * (d - 8) + 1, d), (d, 14)]
  else if d = 14 then ((List.range 16).filter (· != 14)).map (fun x => (min x 14, max x 14))
  else [(min d 14, max d 14)]

/-- A die that is absent: its paths are down and its cores are not available. -/
def State.absent (s : State) (d : Nat) : State :=
  let s : State := { s with unreachable := addPaths s.unreachable (diePaths d) }
  if d < 8 then { s with coresAvail := (dieCores d).foldl (fun m c => m &&& ~~~ BitVec.ofNat 320 (2 ^ c)) s.coresAvail } else s
where
  /-- Paths added without repeats. -/
  addPaths (l m : List (Nat × Nat)) : List (Nat × Nat) := m.foldl (fun l p => if l.contains p then l else l ++ [p]) l

/-- The dies of a wake step that a number selects; none of its values selects no die (log 18). -/
def Wakeup.late (w : Wakeup) (n : Nat) : List Nat :=
  let m := 1 + n % (2 ^ w.dies.length - 1)
  ((List.range w.dies.length).zip w.dies).filterMap (fun p => if m.testBit p.1 then some p.2 else none)

/-- WAKE_STEP_TIMEOUT (R20, R32): the step has passed its limit; each of its dies that has not reported, which is a free value, is
logged, reported and absent, and the others are ready. The sixth step is the Z die's ports: the Z die is logged and stays. -/
def execWakeStepTimeout (s : State) : Res :=
  .next (
    if 6 < s.wake.step || s.ticks < s.wake.since + s.wake.limit then s
    else if s.wake.step = 6 then (s.logEvent 14 0x102 14).nextWake
    else
      let late := s.wake.late (Config.lateDies s.free)
      let up := s.wake.dies.filter (fun d => !late.contains d)
      let far := (List.range 8).map (fun p => if up.contains (unitDie (12 + p)) then Config.farCapacity s.free p else 0)
      let s : State := { s with free := s.free + 1 }
      let s := s.modWake (fun w => { w with ready := up.foldl setInsert w.ready })
      let s := if s.wake.step = 4 then s.farMap far else s
      (late.foldl (fun s d => (s.health d 0x102 d).absent d) s).nextWake)

/-- CORE_REMOVED (R38). -/
def execCoreRemoved (c : Nat) (s : State) : Res :=
  .next (if 319 < c || !s.coresAvail.getLsbD c then s else s.removeCore c)

end Sys2Proof.Machine
end

