-- ==== Sys2Proof/Machine/Mailbox.lean ====
section
/-!
DEFINITION. The management mailbox (R35, R36).
-/
namespace Sys2Proof.Machine
open Sys2Proof

/-- The command code of the request. -/
def Mailbox.command (m : Mailbox) : Nat := field m.req.toNat 31 0
/-- Word 1 of the request. -/
def Mailbox.word1 (m : Mailbox) : Nat := field m.req.toNat 63 32

/-- MBOXCTL (R35). -/
def Mailbox.ctl (m : Mailbox) : Nat := m.len * 2 ^ 16 + m.status * 2 ^ 8 + 2 * b2n m.go + b2n m.go

/-- A write of MBOXCTL (R7, R35): LEN is set, and a request is submitted, or refused as a whole while one is served. DESIGN CHOICE
(log 62): a refused request leaves STATUS 4 in the shared register until the served one completes. -/
def State.submitMail (s : State) (v : Word) (smbus : Bool) : State :=
  if s.mbox.go then
    { s with mbox := if v.getLsbD 0 then { s.mbox with status := 4 } else { s.mbox with len := field v.toNat 31 16 } }
  else { s with mbox := { s.mbox with
    len := field v.toNat 31 16, go := v.getLsbD 0, smbus := if v.getLsbD 0 then smbus else s.mbox.smbus } }

/-- A request completes with its STATUS and response (R35, R125). -/
def State.endMail (s : State) (status : Nat) (rsp : List Byte) : State :=
  State.fireVector { s with mbox := { s.mbox with
    rsp := BitVec.ofNat 2048 (ofBytes rsp), len := rsp.length, status := status, go := false, smbus := false } } 0 1

/-- The request of a command that needs a number of bytes is served: with STATUS 2 when its length is bad. -/
def State.serveMail (s : State) (code need : Nat) (f : State → State) : State :=
  if !s.mbox.go || s.mbox.command ≠ code then s
  else if s.mbox.len < need || 256 < s.mbox.len then s.endMail 2 []
  else f s

/-- The telemetry block: energies, temperatures and their peaks, ticks at each K, cycles and droop events. -/
def Power.telemetry (p : Power) : List Byte :=
  (p.energy.map (bytesOf 8)).flatten ++ (p.temps.map (bytesOf 2)).flatten ++ (p.peaks.map (bytesOf 2)).flatten
    ++ (p.seenTicks.map (bytesOf 8)).flatten ++ bytesOf 8 p.seenCycles ++ bytesOf 8 p.seenDroops

/-- MBOX_READ_TELEMETRY (R31, R36): the peaks start anew. -/
def execMboxReadTelemetry (s : State) : Res :=
  .next (s.serveMail 1 4 (fun s =>
    (s.endMail 0 s.power.telemetry).modPower (fun p => { p with peaks := p.temps })))

/-- MBOX_READ_STATUS (R36): the ready bits of the dies and the low byte of each D2DSTAT. -/
def execMboxReadStatus (s : State) : Res :=
  .next (s.serveMail 2 4 (fun s =>
    s.endMail 0 (bytesOf 4 ((s.wake.ready.map (2 ^ ·)).foldl (· + ·) 0)
      ++ (List.range 240).map (fun m => BitVec.ofNat 8 (s.mod m).stat))))

/-- MBOX_SET_POWER_LIMIT (R27, R36): over SMBus only while SMBWRITE = 1. -/
def execMboxSetPowerLimit (s : State) : Res :=
  .next (s.serveMail 3 8 (fun s =>
    if s.mbox.smbus && !s.mgmt.smbWrite then s.endMail 3 []
    else
      let s := s.setLimit s.mbox.word1
      s.endMail 0 (bytesOf 4 s.power.limit)))

/-- An entry of the event log in 16 bytes: reference time, die id, event code and argument word. -/
def logEntry (e : Nat × Nat × Nat × Nat) : List Byte :=
  bytesOf 8 e.1 ++ bytesOf 2 e.2.1 ++ bytesOf 2 e.2.2.1 ++ bytesOf 4 e.2.2.2

/-- MBOX_READ_EVENT_LOG (R36): up to 15 entries from entry n, the oldest being entry 0. -/
def execMboxReadEventLog (s : State) : Res :=
  .next (s.serveMail 4 8 (fun s => s.endMail 0 (((s.eventLog.drop s.mbox.word1).take 15).map logEntry).flatten))

/-- MBOX_READ_FW_VERSIONS (R36, R145). -/
def execMboxReadFwVersions (s : State) : Res :=
  .next (s.serveMail 5 4 (fun s => s.endMail 0 (bytesOf 4 (s.fw.version 0) ++ bytesOf 4 (s.fw.version 1))))

/-- MBOX_READ_SCREENING (R36, R37). -/
def execMboxReadScreening (s : State) : Res :=
  .next (s.serveMail 6 4 (fun s => s.endMail 0 ((List.range 256).map Config.screeningByte)))

/-- MBOX_UNKNOWN_COMMAND (R36). -/
def execMboxUnknownCommand (s : State) : Res :=
  .next (
    let c := s.mbox.command
    if !s.mbox.go || (1 ≤ c && c ≤ 6) then s else s.endMail (if s.mbox.len < 4 || 256 < s.mbox.len then 2 else 1) [])

/-- The mailbox step that is due. -/
def State.dueMail (s : State) : Option (State → Res) :=
  if !s.mbox.go then none
  else
    let c := s.mbox.command
    if c = 1 then some execMboxReadTelemetry else if c = 2 then some execMboxReadStatus
    else if c = 3 then some execMboxSetPowerLimit else if c = 4 then some execMboxReadEventLog
    else if c = 5 then some execMboxReadFwVersions else if c = 6 then some execMboxReadScreening
    else some execMboxUnknownCommand

end Sys2Proof.Machine
end

