-- ==== Sys2Proof/Machine/Pcie.lean ====
section
/-!
DEFINITION. The PCI Express port: the apertures, outbound requests and MSI-X (R116 to R126).
-/
namespace Sys2Proof.Machine
open Sys2Proof

/-! ### The apertures (R120, R121) -/

/-- APERCTL of a function; SIZE of the physical function resets to 64. -/
def State.aperctl (s : State) (f : Nat) : Nat :=
  (Assoc.get s.mgmt.aper f (if f = 0 then 0x400000000000000000#128 else 0)).toNat

/-- APERCTL_WRITE (R120): one 64-bit half; SIZE is clamped to 64 for a virtual function and to 8,192 for the physical one. -/
def execAperctlWrite (f : Nat) (high : Bool) (v : Word) (s : State) : Res :=
  .next (
    if 63 < f then s
    else
      let x := s.aperctl f
      let size := field v.toNat 13 0
      let top := if f = 0 then 8192 else 64
      let y := if high then setField x 127 64 (min size top)
        else setField x 63 0 (field v.toNat 51 30 * 2 ^ 30 + field v.toNat 7 0)
      let s := s.modMgmt (fun m => { m with aper := Assoc.put m.aper f (BitVec.ofNat 128 y) })
      if high && top < size then s.clamped else s)

/-- A request answered with Unsupported Request. -/
def State.unsupported (s : State) : State :=
  s.modMgmt (fun m => { m with unsupported := true, hostData := [], poisonedRead := false })

/-- The unit and unit address at which an aperture access of a block is served (R121); none gives Unsupported Request. -/
def State.aperPlace (s : State) (pa : Nat) : Option (Nat × Nat) :=
  match s.servedAt s.mem.cur pa with
  | some (.memory u a) => if (s.unitFault 15 u).isNone then some (u, a) else none
  | _ => none

/-- The function's aperture answers requests at an offset of a length; none does in recovery (R144). -/
def State.aperOpen (s : State) (f o n : Nat) : Bool :=
  let size := field (s.aperctl f) 77 64
  let bar := if f = 0 then s.mgmt.bar4 else 64
  let key := field (s.aperctl f) 7 0
  f < 64 && o + n ≤ min size bar * 2 ^ 30 && !s.mgmt.inReset.contains f && s.keyEnabled key && s.fw.run != 3

/-- The blocks that an aperture request touches: offset in the request, length, unit, unit address and physical address. -/
def State.aperBlocks (s : State) (r : HostReq) : Option (List (Nat × Nat × Nat × Nat × Nat)) :=
  let pa0 := field (s.aperctl r.func) 51 30 * 2 ^ 30 + r.offset
  (blockPieces (r.size + 1) pa0 r.size).mapM (fun p =>
    (s.aperPlace p.1).map (fun q => (p.1 - pa0, p.2, q.1, q.2, p.1)))

/-- The blocks of an aperture request meet a running migration (R94). -/
def State.aperMeets (s : State) (r : HostReq) : State :=
  (blockPieces (r.size + 1) (field (s.aperctl r.func) 51 30 * 2 ^ 30 + r.offset) r.size).foldl
    (fun s p => s.meetMigration 15 p.1) s

/-- APERTURE_REQUEST (R94, R121). -/
def execApertureRequest (r : HostReq) (s : State) : Res :=
  .next (
    if !s.aperOpen r.func r.offset r.size then s.unsupported
    else
      let s := s.aperMeets r
      match s.aperBlocks r with
      | none => s.unsupported
      | some l =>
        let key := field (s.aperctl r.func) 7 0
        match r.write with
        | some d => l.foldl (fun s (i, n, u, a, pa) => s.blockWrite u a pa key ((d.drop i).take n))
            (s.modMgmt (fun m => { m with unsupported := false, hostData := [], poisonedRead := false }))
        | none =>
          let bad := l.any (fun (_, _, u, a, _) => s.lost u a)
          let data := (l.map (fun (_, n, u, a, pa) => ((s.blockRead u a pa key).drop (a % 64)).take n)).flatten
          let s := l.foldl (fun s (_, _, u, a, _) => s.checkBlock u a .clean) s
          s.modMgmt (fun m => { m with unsupported := false, hostData := if bad then [] else data, poisonedRead := bad }))

/-- PCIE_ATOMICOP (R116): Unsupported Request. -/
def execPcieAtomicop (_func : Nat) (s : State) : Res := .next s.unsupported

/-! ### Outbound requests (R122 to R124) -/

/-- The context or channel whose outbound writes keep an order. -/
def Requester.writer : Requester → Option Nat
  | .store c x _ _ => some (2 * (4 * c + x))
  | .copyDst c ch _ _ _ => some (2 * (16 * c + ch) + 1)
  | _ => Option.none

/-- R123 for an outbound write of a context: its earlier stores, to any target, have all been performed. -/
def State.storesBefore (s : State) : Requester → Bool
  | .store c x seq _ =>
    let t := s.ctxOf c x
    !t.writes.any (fun w => w.seq < seq) && !t.sq.any (fun e => e.seq < seq) && !t.localWrites.any (fun w => w.seq ≤ seq)
      && !t.remote.any (fun r => r.write && r.seq < seq && r.copy.isNone)
  | _ => true

/-- Outbound request i may leave the port now. -/
def State.outReady (s : State) (i : Nat) : Bool :=
  match s.outReqs[i]? with
  | none => false
  | some r => !r.sent && (r.data.isNone || (s.storesBefore r.who
      && !((s.outReqs.take i).any (fun q => q.data.isSome && q.who.writer == r.who.writer))))

/-- The answer of the port to a requester. -/
def State.answerOut (s : State) (r : OutReq) (res : Answer) : State := s.reply 15 (fixedUnit 15 2) r.who res

/-- OUTBOUND_REQUEST_SEND (R122, R123): request i leaves the port, or is discarded or faulted with 0x93 while Bus Master Enable
is 0. A write is posted; a read awaits its completion. -/
def execOutboundRequestSend (i : Nat) (s : State) : Res :=
  .next (
    if !s.outReady i then s
    else match s.outReqs[i]? with
      | none => s
      | some r =>
        let gone := { s with outReqs := s.outReqs.eraseIdx i }
        if !s.busMaster then gone.answerOut r (.err 0x93)
        else match r.data with
        | some d => gone.answerOut r (.ok d)
        | none => { s with outReqs := s.outReqs.set i { r with sent := true, sentAt := s.ticks } })

/-- OUTBOUND_COMPLETION (R124): read i completes. -/
def execOutboundCompletion (i : Nat) (c : Completion) (s : State) : Res :=
  .next (match s.outReqs[i]? with
    | none => s
    | some r =>
      if !r.sent then s
      else
        let gone := { s with outReqs := s.outReqs.eraseIdx i }
        match c with
        | .data bytes => gone.answerOut r (.ok ((bytes ++ List.replicate r.size 0).take r.size))
        | _ => gone.answerOut r (.err 0x93))

/-- A read whose completion has not come within 10 ms (R124). -/
def OutReq.expired (r : OutReq) (ticks : Nat) : Bool := r.sent && r.sentAt + 1000000 ≤ ticks

/-- OUTBOUND_READ_TIMEOUT (R124). -/
def execOutboundReadTimeout (i : Nat) (s : State) : Res :=
  .next (match s.outReqs[i]? with
    | none => s
    | some r => if r.expired s.ticks then State.answerOut { s with outReqs := s.outReqs.eraseIdx i } r (.err 0x94) else s)

/-! ### MSI-X (R125, R126) -/

/-- The number of vectors of a function (R125). -/
def vectorCount (func : Nat) : Nat := if func = 0 then 64 else 8

/-- MSIX_UNMASK (R126): the mask is cleared, and a pending message is sent. -/
def execMsixUnmask (func v : Nat) (s : State) : Res :=
  .next (
    if 63 < func || vectorCount func ≤ v then s
    else (s.modMgmt (fun m => m.setVector func v { m.vector func v with
      data := (m.vector func v).data &&& ~~~ 0x100000000#64 })).releaseVector func v)

/-- The outbound step that is due. -/
def State.dueOutbound (s : State) : Option (State → Res) :=
  let l := List.range s.outReqs.length
  match l.find? (fun i => (s.outReqs[i]?).any (fun r => r.expired s.ticks)) with
  | some i => some (execOutboundReadTimeout i)
  | none => (l.find? s.outReady).map execOutboundRequestSend

end Sys2Proof.Machine
end

