-- ==== Sys2Proof/Machine/Preempt.lean ====
section
/-!
DEFINITION. Priority, pre-emption and resumption (R154, R163, R200, R201, R215).
-/
namespace Sys2Proof.Machine
open Sys2Proof

/-! ### Priority (R154, R163) -/

/-- The core cycle at which a waiting launch reaches effective priority 7. -/
def Launch.urgentCycle (l : Launch) : Nat := l.accepted + (7 - l.prio) * 2 ^ 16

/-- A waiting launch has reached effective priority 7 and has not been noted. -/
def State.agesNow (s : State) (l : Launch) : Bool :=
  l.state == .waiting && l.status == 0 && l.urgentAt.isNone && l.urgentCycle ≤ s.cycle

/-- PRIORITY_AGEING (R163, R154): effective priority 7, from which the reservation of R154 counts. -/
def execPriorityAgeing (key : Nat) (s : State) : Res :=
  .next (match s.launch? (some key) with
    | none => s
    | some l => if s.agesNow l then s.modLaunch key (fun l => { l with urgentAt := some l.urgentCycle }) else s)

/-! ### Pre-emption (R163) -/

/-- A context that a launch of effective priority p may pre-empt, with the key of its order: lowest priority, most recent
dispatch, highest context number. -/
def State.candidate (s : State) (p c x : Nat) : Option (Nat × Nat × Nat) :=
  let t := s.ctxOf c x
  match s.launch? t.launch with
  | none => none
  | some l =>
    if l.f 0 14 14 = 0 && l.save != 0 && l.prio < p && (l.state == .running || l.state == .draining) && t.mode != .killed
      && t.mode != .saved then some (l.prio, l.order, x) else none

/-- The first candidate is taken before the second. -/
def takenFirst (a b : Nat × Nat × Nat) : Bool :=
  a.1 < b.1 || (a.1 == b.1 && (b.2.1 < a.2.1 || (a.2.1 == b.2.1 && b.2.2 < a.2.2)))

/-- A candidate placed among the others, in the order in which they are taken. -/
def insertCandidate : List (Nat × Nat × Nat) → Nat × Nat × Nat → List (Nat × Nat × Nat)
  | [], y => [y]
  | x :: t, y => if takenFirst y x then y :: x :: t else x :: insertCandidate t y

/-- The candidates of core c in the order in which they are taken, by context number. -/
def State.preemptible (s : State) (p c : Nat) : List Nat :=
  (((List.range 4).filterMap (fun x => s.candidate p c x)).foldl insertCandidate []).map (fun q => q.2.2)

/-- The contexts that a launch lacks on core c, those being saved for it already counted as there. -/
def State.lacks (s : State) (key : Nat) (l : Launch) (c : Nat) : Nat :=
  let k := s.core c
  l.ctxPer - (s.freeFor (some key) c).length
    - ((List.range 4).filter (fun x => (k.ctx x).mode == .saved && k.kept.contains (x, key))).length

/-- The contexts that a waiting launch pre-empts now, all that it lacks or none (R163). -/
def State.victims (s : State) (key : Nat) (l : Launch) : Option (List (Nat × Nat)) :=
  match s.mayDispatch key l true false with
  | none => none
  | some place =>
    let short := place.filter (fun c => s.lacks key l c != 0)
    if short.isEmpty || short.any (fun c => (s.preemptible (s.effPrio l) c).length < s.lacks key l c) then none
    else some ((short.map (fun c => ((s.preemptible (s.effPrio l) c).take (s.lacks key l c)).map (fun x => (c, x)))).flatten)

/-- A context is pre-empted for a launch, which its hardware context then waits for: it is drained into its reel where it is the
one that issues (R200). -/
def State.preempt (s : State) (key c x : Nat) : State :=
  let s := s.modCore c (fun k => { k with kept := k.kept.filter (fun p => p.1 != x) ++ [(x, key)] })
  let s := match (s.ctxOf c x).launch with
    | some k => s.modLaunch k (fun l => { l with preempts := min 0xFFFF (l.preempts + 1) })
    | none => s
  if (s.core c).cur = some x then s.leave c x .saved else s.modCtx c x (fun t => { t with mode := .saved })

/-- CONTEXT_PREEMPT (R163): the launch takes the contexts that it lacks. -/
def execContextPreempt (key : Nat) (s : State) : Res :=
  .next (match s.launch? (some key) with
    | none => s
    | some l => match s.victims key l with
      | none => s
      | some v => v.foldl (fun s p => s.preempt key p.1 p.2) s)

/-! ### The save (R215) -/

/-- Every request of a context that has left the core has been answered: what its load queue still awaits has not left, or belongs
to a held store-queue entry. -/
def Context.answered (t : Context) : Bool :=
  t.writes.isEmpty && t.remote.isEmpty && t.sq.all (fun e => e.status == .held)
    && t.lq.all (fun e => (setBits 8 e.missing).length == e.reqs.length || t.sq.any (fun q => q.lq == some e.seq))

/-- A pre-empted context may be saved: its requests are answered and, where its region restarts, the region's engine commands
have completed (R204). -/
def State.maySave (s : State) (c x : Nat) : Bool :=
  let t := s.ctxOf c x
  t.mode == .saved && t.answered && (t.restartKind == 0 || t.regionCmds.all (s.core c).commandDone)

/-- The hardware context that a saved one leaves: it belongs to no launch. -/
def Core.vacate (k : Core) (x : Nat) : Core :=
  k.setCtx x { Context.reset with cc := (k.ctx x).cc, ccBase := (k.ctx x).ccBase, seq := (k.ctx x).seq, seqBase := (k.ctx x).seq }

/-- A pre-empted context whose restart is due takes it before it is saved (R204 steps 6 and 7). -/
def Context.settleRestart (t : Context) : Context :=
  if t.restartKind = 0 then t else { t.resumeRegion with mode := .saved }

/-- CONTEXT_SAVE_COMPLETE (R163, R215): the record is written and the hardware context passes on; a write that fails kills the
context with its fault. -/
def execContextSaveComplete (c x : Nat) (s : State) : Res :=
  .next (
    if !s.maySave c x then s
    else
      let s := s.modCtx c x (·.settleRestart)
      let t := s.ctxOf c x
      match s.launch? t.launch with
      | none => s.modCore c (·.vacate x)
      | some l =>
        match s.writeRecord c t .saved 0 with
        | (some (code, _), s) => (s.takeFault c x code 0 t.pc).modCore c (·.retireCtx x)
        | (none, s) =>
          let addr := l.save + 65536 * (l.ordinal c * 4 + t.home)
          let s := s.modCore c (fun k => { k.vacate x with saved := k.saved ++ [⟨t, addr⟩] })
          if l.cancelled then { s with cores := s.cores.map (fun (p : Nat × Core) =>
            (p.1, if p.1 = c then p.2.discardSaved (t.launch.getD 0) else p.2)) } else s)

/-! ### Resumption (R163, R201, R215) -/

/-- A waiting launch of higher effective priority could use core c. -/
def State.wanted (s : State) (l : Launch) (c : Nat) : Bool :=
  s.launches.any (fun p => l.prio < s.effPrio p.2 && ((s.mayDispatch p.1 p.2 true false).map (·.contains c)).getD false)

/-- A hardware context has no request of an earlier launch left. -/
def Context.clean (t : Context) : Bool := t.sq.isEmpty && t.writes.isEmpty && t.remote.isEmpty

/-- The issue numbers of a context's accesses moved up by d, past those that a hardware context has given out. -/
def Context.shiftSeq (t : Context) (d : Nat) : Context :=
  { t with
    lq := t.lq.map (fun e => { e with seq := e.seq + d })
    sq := t.sq.map (fun e => { e with seq := e.seq + d, lq := e.lq.map (· + d) })
    fences := t.fences.map (fun f => { f with seq := f.seq + d })
    seq := t.seq + d
    seqBase := t.seqBase + d }

/-- The issue numbers of a context's copy entries moved up by d. -/
def Core.shiftCopies (k : Core) (key home d : Nat) : Core :=
  let f (e : CopyEntry) : CopyEntry := if e.launch = key ∧ e.home = home then { e with seq := e.seq + d } else e
  { k with chans := k.chans.map (fun c => { c with queue := c.queue.map f }) }

/-- The saved context of a launch with a home number that resumes now on core c: its place in the list, and the lowest free
hardware context. -/
def State.resumable (s : State) (key c home : Nat) : Option (Nat × Nat) :=
  match s.launch? (some key) with
  | none => none
  | some l =>
    if s.wanted l c then none
    else match (s.core c).saved.findIdx? (fun v => v.ctx.launch == some key && v.ctx.home == home), s.freeFor none c with
      | some i, x :: _ => if (s.ctxOf c x).clean then some (i, x) else none
      | _, _ => none

/-- The 64-bit number at an offset of a record. -/
def word8 (b : List Byte) (a : Nat) : Nat := ofBytes ((b.drop a).take 8)
/-- n numbers of `size` bytes each from an offset of a record. -/
def wordsAt {w : Nat} (b : List Byte) (a size n : Nat) : Vector (BitVec w) n :=
  Vector.ofFn (fun i => BitVec.ofNat w (ofBytes ((b.drop (a + size * i.val)).take size)))

/-- The opaque bytes of a record, which CHECK covers (R215). -/
def checkedBytes (b : List Byte) : List Byte := (b.drop 0xE00).take 512 ++ b.drop 0x5000

/-- The bits that a window register has (R113). -/
def windowBits : BitVec 128 := 0x00FF3FFFFFFFFFFF01FFFFFFFFFFF1F7#128
/-- The bits that a scope-table entry has (R334). -/
def scopeBits : BitVec 512 := BitVec.ofNat 512 (2 ^ 384 - 1) &&& ~~~ BitVec.ofNat 512 (0xFFFFF000E000FFFC)

/-- The architected registers of a record (R214, R215), with the bits that each register has. -/
def Context.restore (t : Context) (b : List Byte) : Context :=
  let st := word8 b 0x10
  { t with
    pc := word8 b 0 % 2 ^ 14
    lpc := BitVec.ofNat 14 (word8 b 8)
    ttcount := field st 63 48
    priv := st.testBit 15
    inh := st.testBit 14
    patient := st.testBit 13
    guardChk := st.testBit 12
    pendChk := st.testBit 11
    shp := BitVec.ofNat 3 (word8 b 0x18)
    fpflags := BitVec.ofNat 64 (word8 b 0x20 % 2 ^ 46)
    fpfirst := BitVec.ofNat 64 (word8 b 0x28) &&& 0x8000000007C1FFFF#64
    uctl := BitVec.ofNat 64 (word8 b 0x30 % 2 ^ 16)
    uip := BitVec.ofNat 17 (word8 b 0x38)
    ucause := BitVec.ofNat 64 (word8 b 0x40) &&& 0x0FFFFFFF00001FFF#64
    g := if word8 b 0x58 % 2 ^ 32 = 0 then 1 else BitVec.ofNat 32 (word8 b 0x58)
    s := wordsAt b 0x100 8 64
    h := wordsAt b 0x300 8 8
    q := wordsAt b 0x340 8 8
    sc := wordsAt b 0x380 1 16
    xp := (wordsAt b 0x390 8 8).map (fun x => x &&& 0x00000FFFFFFF07FF#64)
    kb := wordsAt b 0x400 32 8
    w := (wordsAt b 0x500 16 16).map (fun x => x &&& windowBits)
    scopes := (wordsAt b 0x600 64 32).map (fun x => x &&& scopeBits)
    v := wordsAt b 0x1000 256 64 }

/-- The context as it resumes: idle without an iteration, else ready to issue the bundle at which it stopped. -/
def Context.resumed (t : Context) : Context :=
  { t with mode := if t.iteration.isNone then .free else .ready, block := 0, wakeOn := none }

/-- CONTEXT_RESUME (R163, R201, R215): the record is read and checked, and the context goes on in the lowest free hardware
context; a mismatch kills it with 0x98. -/
def execContextResume (key c home : Nat) (s : State) : Res :=
  .next (match s.resumable key c home with
    | none => s
    | some (i, x) =>
      match (s.core c).saved[i]?, s.launch? (some key) with
      | some v, some l =>
        let old := (s.core c).ctx x
        let put (s : State) (t : Context) : State := s.modCore c (fun k =>
          { (k.setCtx x (t.shiftSeq old.seq)).shiftCopies key home old.seq with saved := k.saved.eraseIdx i })
        match s.agentRead (.core c) (coreDie c) l.asid v.addr 65536 .load with
        | (.error code, s) => (put s v.ctx.resumed).takeFault c x code 0 v.ctx.pc
        | (.ok b, s) =>
          if crc32 (checkedBytes b) ≠ word8 b 0x50 % 2 ^ 32 then (put s v.ctx.resumed).takeFault c x 0x98 0 v.ctx.pc
          else put s (v.ctx.restore b).resumed
      | _, _ => s)

/-! ### What is due -/

/-- The saved contexts, by launch, core and home number. -/
def State.savedContexts (s : State) : List (Nat × Nat × Nat) :=
  (s.cores.map (fun p => p.2.saved.filterMap (fun v => v.ctx.launch.map (fun k => (k, p.1, v.ctx.home))))).flatten

/-- The step of pre-emption and resumption that is due. -/
def State.duePreempt (s : State) : Option (State → Res) :=
  match s.cores.findSome? (fun p => ((List.range 4).find? (fun x => s.maySave p.1 x)).map (fun x => (p.1, x))) with
  | some (c, x) => some (execContextSaveComplete c x)
  | none =>
    match s.waitingOrder.find? (fun p => (s.victims p.1 p.2).isSome) with
    | some p => some (execContextPreempt p.1)
    | none => (s.savedContexts.find? (fun q => (s.resumable q.1 q.2.1 q.2.2).isSome)).map
        (fun q => execContextResume q.1 q.2.1 q.2.2)

end Sys2Proof.Machine
end

