-- ==== Sys2Proof/Machine/Ring.lean ====
section
/-!
DEFINITION. Staging rings (R84, R85), management packets (R48), and the next packet handed to a Z-die resource.
-/
namespace Sys2Proof.Machine
open Sys2Proof

/-- RINGCFG of a ring, its writable fields. -/
def State.ringCfg (s : State) (r : Nat) : Nat := (Assoc.get s.fab.rings r 0).toNat
/-- FULLCNT of a ring. -/
def State.ringFull (s : State) (r : Nat) : Nat := (s.fab.ringSlots.filter (fun p => p.1 / 256 == r)).length

/-- RINGCFG_WRITE (R84): ignored while slots are full or where its entries overlap a valid group's or another ring's. -/
def execRingcfgWrite (ring : Nat) (v : Word) (s : State) : Res :=
  .next (
    let x := v.toNat
    let base := field x 39 26
    let n := field x 47 40
    if 15 < ring then s
    else if s.ringFull ring ≠ 0 || s.groupTakes none base n || s.ringTakes (fun r _ => r != ring) base n then s.refuseCfg
    else s.modFab (fun f => { f with rings := Assoc.put f.rings ring (BitVec.ofNat 64 (field x 55 26 * 2 ^ 26)) }))

/-- The ring and slot of an address, if the ring is enabled and has the slot (R85). -/
def State.ringPlace (s : State) (dest : Nat) : Option (Nat × Nat) :=
  let ring := field dest 21 18
  let slot := field dest 17 10
  if field dest 9 0 = 0 ∧ field (s.ringCfg ring) 55 48 ≠ 0 ∧ slot < field (s.ringCfg ring) 47 40 then some (ring, slot)
  else none

/-- A response of the Z die: to a fan-out point, or as a packet. -/
def State.zRespond (s : State) (z : ZPacket) (opc : Nat) (payload : List Flit) : State :=
  match z.fan with
  | some (id, place) => s.fanAck id place 0
  | none => { s with zin := s.zin ++ [⟨none, none, false, false, z.pkt.respond s.zSrc opc 0 payload⟩] }

/-- Packet i handed over, if it is an access to a ring of one of two operations. -/
def State.ringAt (s : State) (i a b : Nat) : Option ZPacket := (s.handedAt i a).or (s.handedAt i b)

/-- The Z die's sequence table replaced. -/
def State.setZTable (s : State) (t : List SeqEntry) : State := s.modFab (fun f => { f with seqTable := t })

/-- RING_WRITE (R85): an empty slot is filled with its count set to READERS. The packet is classified first, and the table
keeps that whatever becomes of it (R378). -/
def execRingWrite (i : Nat) (s : State) : Res :=
  .next (match s.ringAt i 0x01 0x0E with
    | none => s
    | some z =>
      let p := z.pkt
      let (v, t) := classify s.fab.seqTable p.src p.cls p.seq s.cycle
      let s := (s.dropHanded i).setZTable t
      match v, s.ringPlace p.dest with
      | .full, _ => s.discard z 0x8C
      | .duplicate, _ => s.zRespond z 0x08 []
      | .stale, _ => s
      | .accept, none => s.discard z 0x86
      | .accept, some (ring, slot) =>
        if p.len ≠ 16 then s.discard z 0x86
        else if (Assoc.find s.fab.ringSlots (256 * ring + slot)).isSome then s.discard z 0x8A
        else
          let n := field (s.ringCfg ring) 55 48
          (s.modFab (fun f =>
            { f with ringSlots := Assoc.put f.ringSlots (256 * ring + slot) (n, p.payload) })).zRespond z 0x08 [])

/-- RING_READ (R85): the slot is returned and its count falls, and at 0 it is empty. A repeated read is served again (R379). -/
def execRingRead (i : Nat) (s : State) : Res :=
  .next (match s.ringAt i 0x02 0x0F with
    | none => s
    | some z =>
      let p := z.pkt
      let (v, t) := classify s.fab.seqTable p.src p.cls p.seq s.cycle
      let s := (s.dropHanded i).setZTable t
      match v, s.ringPlace p.dest with
      | .full, _ => s.discard z 0x8C
      | _, none => s.discard z 0x86
      | _, some (ring, slot) =>
        if p.oparg ≠ 4 then s.discard z 0x86
        else match Assoc.find s.fab.ringSlots (256 * ring + slot) with
          | none => s.discard z 0x8B
          | some (n, data) =>
            let key := 256 * ring + slot
            let slots := if n ≤ 1 then Assoc.del s.fab.ringSlots key else Assoc.put s.fab.ringSlots key (n - 1, data)
            (s.modFab (fun f => { f with ringSlots := slots })).zRespond z (if p.opc = 0x02 then 0x03 else 0x10) data)

/-- MGMT (R48). DESIGN CHOICE (log 64): the spec gives a management packet (OPC 0x0D) no operation at its destination; the Z die
takes it and it has no effect. -/
def execMgmt (i : Nat) (s : State) : Res :=
  .next (match s.handedAt i 0x0D with
    | none => s
    | some _ => s.dropHanded i)

/-- The step that takes packet i handed to a Z-die resource. -/
def handedStep (i : Nat) (z : ZPacket) : State → Res :=
  let p := z.pkt
  if p.opc = 0x04 then execReduce i
  else if p.opc = 0x09 then execBarrierArrive i
  else if p.opc = 0x05 then if p.oparg = 1 then execReduceResultStatus i else execReduceResultData i
  else if p.opc = 0x0A then execBarrierRelease i
  else if p.opc = 0x0B then
    if Packet.step p = 1 then execAgreePrepare i
    else if Packet.step p = 2 then execAgreeReady i
    else if Packet.step p = 3 then execAgreeCommit i
    else if Packet.step p = 4 then execAgreeAbort i
    else execAgreeInvalidStep i
  else if p.opc = 0x01 ∨ p.opc = 0x0E then execRingWrite i
  else if p.opc = 0x02 ∨ p.opc = 0x0F then execRingRead i
  else execMgmt i

/-- An access to a staging ring, or an input of a slot: those that reach the Z die in one cycle have an order of their own, a
slot's inputs by ascending index (R74) and a ring's writes before its reads (R85). -/
def ZPacket.ordered (z : ZPacket) : Bool := [0x04, 0x09, 0x01, 0x0E, 0x02, 0x0F].contains z.pkt.opc

/-- The step of a packet handed to a Z-die resource that f picks and whose turn has come. -/
def State.handedWhere (s : State) (f : ZPacket → Bool) : Option (State → Res) :=
  ((List.range s.fab.handed.length).zip s.fab.handed).findSome? (fun q =>
    if f q.2 && !s.handedBehind q.1 q.2 && !s.inputBehind q.2 then some (handedStep q.1 q.2) else none)

/-- The step of the Z die's resources that is due, apart from the ordered packets. -/
def State.dueHanded (s : State) : Option (State → Res) := s.handedWhere (fun z => !z.ordered)

/-- The step of the Z die's resources that is due when every core has issued in this cycle: the cycle's ordered packets are all
there (R74, R85). -/
def State.dueOrdered (s : State) : Option (State → Res) :=
  (s.handedWhere (fun z => z.ordered && !(z.pkt.opc == 0x02 || z.pkt.opc == 0x0F))).or (s.handedWhere ZPacket.ordered)

end Sys2Proof.Machine
end

