-- ==== Sys2Proof/Machine/Walk.lean ====
section
/-!
DEFINITION. The walker complex and invalidations (R105 to R112).
-/
namespace Sys2Proof.Machine
open Sys2Proof

/-! ### Walks (R105, R107, R110) -/

/-- A message asks for a walk for a core. -/
def IMsg.walkOf (m : IMsg) (c : Nat) : Bool :=
  match m.payload with
  | .walk core _ => core == c
  | _ => false

/-- A core whose missed translations have all been walked issues again. -/
def State.release (s : State) (h : Holder) : State :=
  match h with
  | .core c =>
    if s.mem.walks.any (fun w => w.waiters.any (·.1 == h)) || s.messages.any (·.walkOf c) then s
    else s.modCore c (fun k => { k with stalled := false })
  | _ => s

/-- The fault of a walk is left to the stalled bundles of the cores that wait for it. -/
def State.walkFault (s : State) (w : WalkReq) (l : List (Holder × AccessKind)) : State :=
  s.modMem (fun m => { m with walkFaults := m.walkFaults ++ l.filterMap (fun p => match p.1 with
    | .core c => some (c, w.asid, w.page)
    | _ => none) })

/-- PAGE_WALK_COMPLETE (R105 to R107, R110): walk i, one of the 64 in flight, ends. One that an invalidation overlapped installs
nothing and is walked again; one that faults, by its entries or for the kind of access, leaves nothing in a cache and its fault
to the stalled bundle. -/
def execPageWalkComplete (i : Nat) (s : State) : Res :=
  .next (if 64 ≤ i then s else match s.mem.walks[i]? with
    | none => s
    | some w =>
      let rest := s.mem.walks.eraseIdx i
      if w.stale then s.modMem (fun m => { m with walks := rest ++ [{ w with stale := false }] })
      else
        let s := (s.modMem (fun m => { m with walks := rest })).checkWalk w.asid (4096 * w.page)
        let s := match s.walk w.asid (4096 * w.page) with
          | .ok (e, seen) =>
            let good := w.waiters.filter (fun p => (s.leafFault e p.2).isNone)
            let s' := good.foldl (fun s p => s.installTlb p.1 e) (if good.isEmpty then s else s.installWalk seen)
            s'.walkFault w (w.waiters.filter (fun p => (s.leafFault e p.2).isSome))
          | .error _ => s.walkFault w w.waiters
        w.waiters.foldl (fun s p => s.release p.1) s)

/-! ### Posting (R109) -/

/-- INVALIDATION_POST (R109): INVCTL with GO = 1. The request is queued at once, so GO reads 0 again. -/
def execInvalidationPost (v : Word) (s : State) : Res :=
  .next (
    if 16 ≤ s.mem.invQueue.length then s.refuseCfg
    else
      let i : Invalidation :=
        ⟨field v.toNat 63 48, v.getLsbD 3, s.mem.invAddr / 4096, field v.toNat 39 8, none⟩
      let ctl := v &&& 0xFFFF00FFFFFFFF08#64
      s.modMem (fun m => { m with invQueue := m.invQueue ++ [i], invDone := false, invCtl := ctl }))

/-! ### Performing (R110) -/

/-- The range from address a over n bytes of an address space overlaps an invalidation. -/
def Invalidation.hits (i : Invalidation) (asid a n : Nat) : Bool :=
  (i.all || i.asid == asid) && (i.pages == 0 || (a < 4096 * (i.page + i.pages) && 4096 * i.page < a + n))

/-- The holders of TLBs: the cores with state, and the three of the H die. -/
def State.holders (s : State) : List Holder :=
  s.cores.map (fun p => Holder.core p.1) ++ [.frontEnd, .command, .migration]

/-- The access, as four times the core plus the context and the issue number, that waits for a request. -/
def Requester.access? : Requester → Option (Nat × Nat)
  | .load core x _ seq _ | .store core x seq _ | .atomic core x _ seq _ => some (4 * core + x, seq)
  | _ => Option.none

/-- The copy entry, as core, channel and number, that waits for a request. -/
def Requester.copy? : Requester → Option (Nat × Nat × Nat)
  | .copySrc core ch uid _ _ | .copyDst core ch uid _ _ => some (core, ch, uid)
  | _ => Option.none

/-- Who waits for the request that a message carries. -/
def IMsg.asker? (m : IMsg) : Option Requester :=
  match m.payload with
  | .request r => some r.who
  | .outbound r => some r.who
  | _ => none

/-- Who waits for the requests that have left and have not been performed. -/
def State.askers (s : State) : List Requester :=
  s.mem.reqs.map (·.who) ++ s.messages.filterMap (·.asker?) ++ s.outReqs.map (·.who)

/-- The issue numbers of a context's accesses that have been translated and are not performed. A store that is held has no
translation (R111). -/
def Context.openSeqs (t : Context) : List Nat :=
  (t.sq.filter (·.pa.isSome)).map (·.seq) ++ t.writes.map (·.seq)
    ++ (t.lq.filter (fun e => e.missing != 0 && (e.kind == .global || e.kind == .outbound)
      && !t.sq.any (fun q => q.lq == some e.seq && q.pa.isNone))).map (·.seq)

/-- The accesses of core c that have been translated and are not performed, those of loads that the core has dropped (R198) and of
iterations that have ended (R208) among them. -/
def State.openOf (s : State) (c : Nat) : List (Nat × Nat) :=
  ((List.range 4).map (fun x => ((s.ctxOf c x).openSeqs).map (fun n => (4 * c + x, n)))).flatten
    ++ (s.askers.filterMap (·.access?)).filter (fun p => p.1 / 4 == c)

/-- An access may have been made in the address space of an invalidation: it was, or its launch has left the context. -/
def State.accessIn (s : State) (i : Invalidation) (p : Nat × Nat) : Bool :=
  let t := s.ctxOf (p.1 / 4) (p.1 % 4)
  i.all || p.2 < t.seqBase || (s.launch? t.launch).all (fun l => l.asid == i.asid)

/-- The accesses that must be performed before their holders acknowledge (R110). -/
def State.accessesOpen (s : State) (i : Invalidation) : List (Nat × Nat) :=
  ((s.cores.map (fun p => s.openOf p.1)).flatten).filter (s.accessIn i)

/-- A pin of a copy entry matches the invalidation; its launch, while there is one, names the address space. -/
def State.pinHit (s : State) (i : Invalidation) (e : CopyEntry) : Bool :=
  e.pins.any (fun p => match s.launch? (some e.launch) with
    | some l => i.hits l.asid p.va p.size
    | none => i.hits i.asid p.va p.size)

/-- The copy entries of core c that pin a matching page (R112): queued, or abandoned with requests on their way; a request whose
entry the channel no longer holds counts. -/
def State.openCopies (s : State) (i : Invalidation) (c : Nat) : List (Nat × Nat × Nat) :=
  let held (ch : Nat) : List CopyEntry := ((s.core c).chan ch).queue ++ ((s.core c).chan ch).abandoned
  ((List.range 16).map (fun ch => ((held ch).filter (s.pinHit i)).map (fun e => (c, ch, e.uid)))).flatten
    ++ (s.askers.filterMap (·.copy?)).filter (fun p => p.1 == c && (held p.2.1).all (·.uid != p.2.2))

/-- INVALIDATION_START (R109, R110): the oldest queued invalidation is taken; the walk caches and TLBs drop what matches, and
walks that overlap will install nothing. -/
def execInvalidationStart (s : State) : Res :=
  .next (match s.mem.invNow, s.mem.invQueue with
    | none, i :: rest =>
      let run : InvRun := ⟨i, s.ticks, s.holders, s.accessesOpen i, (s.cores.map (fun p => s.openCopies i p.1)).flatten⟩
      let cacheHit (e : WalkCacheEntry) : Bool := i.hits e.asid (e.va * 2 ^ lvlShift e.level) (2 ^ lvlShift e.level)
      let walkHit (w : WalkReq) : Bool := i.hits w.asid (4096 * w.page / 2 ^ 30 * 2 ^ 30) (2 ^ 30)
      let keep (l : List TlbEntry) : List TlbEntry := l.filter (fun e => !i.hits e.asid e.va e.size)
      let s := s.modMem (fun m => { m with
        invNow := some run
        invQueue := rest ++ m.invWaiting.take 1
        invWaiting := m.invWaiting.drop 1
        walkCache := m.walkCache.filter (fun e => !cacheHit e)
        walks := m.walks.map (fun w => if walkHit w then { w with stale := true } else w)
        tlbs := m.tlbs.map (fun p => (p.1, keep p.2)) })
      { s with cores := s.cores.map (fun p => (p.1, { p.2 with tlb := keep p.2.tlb })) }
    | _, _ => s)

/-- The entry of a copy that an invalidation waits for, while its channel holds it queued. -/
def State.pinned (s : State) (p : Nat × Nat × Nat) : Option CopyEntry :=
  ((s.core p.1).chan p.2.1).queue.find? (fun e => e.uid == p.2.2)

/-- The channels of a core that pin a matching page (R112). -/
def State.pinning (s : State) (r : InvRun) (c : Nat) : List Nat :=
  (r.copies.filter (fun p => p.1 == c && (s.pinned p).isSome)).map (·.2.1)

/-- A holder as the table of steps numbers it: cores 0 to 319, the front end, the command processor, the migration engine. -/
def holderOf (n : Nat) : Holder :=
  if n < 320 then .core n else if n = 320 then .frontEnd else if n = 321 then .command else .migration
/-- The number of a holder. -/
def Holder.num : Holder → Nat
  | .core c => c
  | .frontEnd => 320
  | .command => 321
  | .migration => 322

/-- A holder may acknowledge (R110, R112): every access that it made under a removed entry has been performed, and no copy entry
that it had issued pins a matching page. -/
def State.mayAck (s : State) (r : InvRun) (h : Holder) : Bool :=
  match h with
  | .core c =>
    r.accesses.all (fun p => p.1 / 4 != c || !(s.openOf c).contains p) && (s.pinning r c).isEmpty
      && s.askers.all (fun q => (q.copy?).all (fun p => p.1 != c || !r.copies.contains p))
  | _ => true

/-- The invalidation is complete: DONE, or the completion of the instruction. -/
def State.endInvalidation (s : State) (i : Invalidation) : State :=
  let s := s.modMem (fun m => { m with invNow := none })
  match i.origin with
  | none =>
    let more := s.mem.invQueue.any (fun j => j.origin.isNone)
    s.modMem (fun m => { m with invDone := !more })
  | some (core, ctx, lq, seq) => s.reply 15 (fixedUnit 15 1) (.load core ctx lq seq 0) (.ok (bytesOf 8 0))

/-- TLB_INVALIDATION_ACK (R110, R112). -/
def execTlbInvalidationAck (n : Nat) (s : State) : Res :=
  .next (match s.mem.invNow with
    | none => s
    | some r =>
      let h := holderOf n
      if !r.holders.contains h || !s.mayAck r h then s
      else
        let rest := r.holders.filter (· != h)
        if rest.isEmpty then s.endInvalidation r.inv
        else s.modMem (fun m => { m with invNow := some { r with holders := rest } }))

/-- A pin may time out: 64 µs of reference time have passed since the holder received the invalidation (R112). -/
def State.pinExpired (s : State) (r : InvRun) (c ch : Nat) : Bool :=
  r.holders.contains (.core c) && r.since + 6400 ≤ s.ticks && (s.pinning r c).contains ch

/-- PIN_TIMEOUT (R112): the channel that pins a matching page enters error with 0x18. -/
def execPinTimeout (c ch : Nat) (s : State) : Res :=
  .next (match s.mem.invNow with
    | none => s
    | some r =>
      if s.pinExpired r c ch then
        match (r.copies.filter (fun p => p.1 == c && p.2.1 == ch)).findSome? s.pinned with
        | some e => s.modCore c (fun k => k.failChannel s.cycle ch 0x18 e.launch e.home)
        | none => s
      else s)

/-! ### The internal steps -/

/-- The step of translation that is due. -/
def State.dueWalk (s : State) : Option (State → Res) :=
  if !s.mem.walks.isEmpty then some (execPageWalkComplete 0)
  else match s.mem.invNow with
    | none => if s.mem.invQueue.isEmpty then none else some execInvalidationStart
    | some r =>
      match r.holders.find? (s.mayAck r) with
      | some h => some (execTlbInvalidationAck h.num)
      | none => r.holders.findSome? (fun h => match h with
        | .core c => ((List.range 16).find? (s.pinExpired r c)).map (execPinTimeout c)
        | _ => none)

end Sys2Proof.Machine
end

