-- ==== Sys2Proof/Machine/Registers.lean ====
section
/-!
DEFINITION. Writes of the management block by their offset (R118), of the configuration space (R116, R117, R122, R126) and of
the mailbox over SMBus (R35). A register whose write has a row of its own is written by that row's meaning. Offsets from 2^32
on are the model's own (log 30).
-/
namespace Sys2Proof.Machine
open Sys2Proof

/-- The state that a meaning leaves. -/
def Res.state (r : Res) (s : State) : State :=
  match r with
  | .next t => t
  | _ => s

/-- Word w of a register of several words, replaced. -/
def putWord (x w : Nat) (v : Word) : Nat := setField x (64 * w + 63) (64 * w) v.toNat

/-! ### Memory and translation -/

/-- A word of a region entry (R88, R92): entries of bank CUR, and of bank OLD while it drains, are not written. -/
def State.writeRegion (s : State) (o : Nat) (v : Word) : State :=
  let b := o / 512
  if b = s.mem.cur || (b = s.mem.old && s.mem.draining) then s.refuseCfg
  else
    let k := 16 * b + o % 512 / 32
    let x := putWord (Assoc.get s.mem.regions k 0).toNat (o % 32 / 8) v &&& regMask
    s.modMem (fun m => { m with regions := Assoc.put m.regions k (BitVec.ofNat 256 x) })

/-- MAPCTL (R91). -/
def State.writeMapctl (s : State) (v : Word) : State :=
  let s := s.modMem (fun m => { m with err := m.err && !v.getLsbD 7 })
  if v.getLsbD 5 then (execRegionAdvance s).state s else s

/-- MIGCTL (R93): GO acts with REGION as written; RESUME is stored as written (R7). -/
def State.writeMigctl (s : State) (v : Word) : State :=
  let s := s.modMem (fun m => { m with
    migErr := m.migErr && !v.getLsbD 7, migSel := field v.toNat 3 0, migResume := v.getLsbD 6 })
  let s := if v.getLsbD 4 then (execMigrationStart v s).state s else s
  if v.getLsbD 6 then (execMigrationResume s).state s else s

/-- SCRUBCFG (R99). -/
def State.writeScrub (s : State) (v : Word) : State := s.modMem (fun m => { m with scrub := field v.toNat 7 0 })

/-- INVCTL (R109). -/
def State.writeInvctl (s : State) (v : Word) : State :=
  if v.getLsbD 0 then (execInvalidationPost v s).state s
  else s.modMem (fun m => { m with invCtl := v &&& 0xFFFF00FFFFFFFF08#64 })

/-- KEYCTL (R101). -/
def State.writeKeyctl (s : State) (v : Word) : State :=
  let op := field v.toNat 2 1
  if !v.getLsbD 0 then s.keyFields v
  else if op = 1 then (execKeyLoad v s).state s
  else if op = 2 then (execKeyEnable v s).state s
  else if op = 3 then (execKeyDisable v s).state s
  else (s.keyFields v).refuseKey

/-! ### The mailbox -/

/-- The mailbox (R35), from the host or over SMBus: the request buffer and MBOXCTL. DESIGN CHOICE (log 62): a write of the buffer
while GO = 1 changes the one shared buffer. -/
def State.writeMailbox (s : State) (o : Nat) (v : Word) (smbus : Bool) : State :=
  if o < 256 then { s with mbox := { s.mbox with req := BitVec.ofNat 2048 (putWord s.mbox.req.toNat (o / 8) v) } }
  else if o = 512 then s.submitMail v smbus
  else s

/-! ### Fabric tables -/

/-- A word of a fan-out set (R55). -/
def State.writeFanSet (s : State) (o : Nat) (v : Word) : State :=
  let set := o / 64
  let x := putWord (s.fanSet set) (o % 64 / 8) v % 2 ^ 462
  s.modFab (fun f => { f with fanSets := Assoc.put f.fanSets set (BitVec.ofNat 512 x) })

/-- The writable fields of words 1 to 7 of a control block (R65). -/
def groupFields : List (Nat × Nat) :=
  [(73, 64), (86, 80), (115, 88), (149, 128), (181, 160), (207, 192), (415, 224)]

/-- A control block with word w replaced, where it can be written. -/
def GroupHalf.writeWord (h : GroupHalf) (w : Nat) (v : Word) : GroupHalf :=
  let x := putWord h.ctl.toNat w v
  groupFields.foldl (fun h p => h.set p.1 p.2 (field x p.1 p.2)) h

/-- An input map with word j replaced: entries 4j to 4j + 3 (R66). -/
def GroupHalf.writeMap (h : GroupHalf) (j : Nat) (v : Word) : GroupHalf :=
  { h with map := (List.range 4).foldl (fun m i =>
    Assoc.put m (4 * j + i) (BitVec.ofNat 16 (field v.toNat (16 * i + 15) (16 * i)))) h.map }

/-- A word of the group table (R65, R67). -/
def State.writeGroup (s : State) (o : Nat) (v : Word) : State :=
  let g := o / 2048
  let staged := decide (1024 ≤ o % 2048)
  let a := o % 1024
  let h := s.half g staged
  let live := !staged && h.ctl.getLsbD 0
  if a = 0 then
    if live && !v.getLsbD 0 then
      let s := (execGroupDelete g s).state s
      s.setHalf g false (((s.half g false).set 0 0 1).writeWord0 v.toNat |>.set 0 0 0)
    else if live && v.getLsbD 2 then (execGroupPropose g s).state s
    else
      let s := (execGroupValidWrite g staged v s).state s
      let h := s.half g staged
      if !staged && !live && h.ctl.getLsbD 0 && h.ctl.getLsbD 2 then
        (execGroupPropose g (s.setHalf g false (h.set 2 2 0))).state s
      else s
  else if live then s.refuseCfg
  else if a < 64 then s.setHalf g staged (h.writeWord (a / 8) v)
  else if a < 576 then s.setHalf g staged (h.writeMap ((a - 64) / 8) v)
  else s

/-! ### MSI-X and configuration space -/

/-- A word of an MSI-X table entry: the message address, or its data with the mask in bit 32 (R126). -/
def State.writeVector (s : State) (func n w : Nat) (v : Word) : State :=
  if vectorCount func ≤ n then s
  else
    let x := s.mgmt.vector func n
    (s.modMgmt (fun m => m.setVector func n (if w = 0 then { x with addr := v } else { x with data := v &&& 0x1FFFFFFFF#64 }))).releaseVector func n

/-- The sizes that Max Payload Size and Max Read Request Size select, by their code. -/
def payloadSize (code top : Nat) : Nat := min top (128 * 2 ^ code)

/-- The configuration of a function: Bus Master Enable, the sizes and BAR4's of the physical one, and MSI-X Enable. -/
def State.writeConfig (s : State) (func : Nat) (v : Word) : State :=
  let s : State := if func = 0 then { s with
    busMaster := v.getLsbD 0
    writeSize := payloadSize (field v.toNat 10 8) 512
    readSize := payloadSize (field v.toNat 14 12) 4096
    mgmt := { s.mgmt with bar4 := 2 ^ min 13 (field v.toNat 19 16) } } else s
  let s := s.modMgmt (fun m => { m with
    msixOn := if v.getLsbD 1 then setInsert m.msixOn func else setErase m.msixOn func })
  (List.range (vectorCount func)).foldl (fun s n => s.releaseVector func n) s

/-! ### The whole map -/

/-- Offsets below 0x0007_0000. -/
def State.writeLow (s : State) (o : Nat) (v : Word) : State :=
  if o = 0 then s.modMgmt (fun m => { m with cfgErr := m.cfgErr && !v.getLsbD 0, clamp := m.clamp && !v.getLsbD 1 })
  else if o = 8 then s.modMgmt (fun m => { m with smbWrite := v.getLsbD 0 })
  else if o = 0x100 then s.writeFwctl v
  else if o = 0x108 then s.modFw (fun f => { f with src := field v.toNat 51 12 })
  else if o = 0x110 then s.modFw (fun f => { f with err := f.err && !v.getLsbD 4 })
  else if 0x10000 ≤ o && o < 0x10000 + 8 * 240 then
    if v.getLsbD 3 then (execD2dstatRetrain ((o - 0x10000) / 8) s).state s else s
  else if 0x20000 ≤ o && o < 0x20000 + 8 * 384 then (execPermitcfgWrite ((o - 0x20000) / 8) v s).state s
  else if o = 0x30000 then (execPwrstretchWrite v s).state s
  else if o = 0x30008 then (execPwrlimitWrite v s).state s
  else if 0x40000 ≤ o && o < 0x40300 then s.writeMailbox (o - 0x40000) v false
  else if 0x60000 ≤ o && o < 0x60000 + 8 * 128 then
    if v.getLsbD 3 then (execFpstatRetrain ((o - 0x60000) / 8) s).state s else s
  else if o = 0x60800 then (execFabcfgWrite v s).state s
  else s

/-- Offsets from 0x0007_0000 to 0x000F_FFFF. -/
def State.writeMid (s : State) (o : Nat) (v : Word) : State :=
  if o < 0x70800 then s.writeRegion (o - 0x70000) v
  else if o = 0x71000 then s.writeMapctl v
  else if o = 0x71008 then s.writeMigctl v
  else if o = 0x71018 then s.modMem (fun m => { m with asidBase := field v.toNat 51 19 * 2 ^ 19 })
  else if o = 0x72100 then s.writeScrub v
  else if o = 0x78000 then s.modMem (fun m => { m with invAddr := field v.toNat 56 12 * 4096 })
  else if o = 0x78008 then s.writeInvctl v
  else if o = 0x79000 then s.writeKeyctl v
  else if 0x80000 ≤ o && o < 0x80000 + 64 * 32 then
    let q := (o - 0x80000) / 64
    if o % 64 = 0 then s.writeQctl q v.toNat else if o % 64 = 8 then s.writeQbase q v.toNat else s
  else if 0x90000 ≤ o && o < 0x90000 + 16 * 64 then
    (execAperctlWrite ((o - 0x90000) / 16) (o % 16 == 8) v s).state s
  else if o = 0xA0000 then (execSchedcfgWrite v s).state s
  else s

/-- Offsets from 0x0100_0000. -/
def State.writeHigh (s : State) (o : Nat) (v : Word) : State :=
  if o < 0x1000000 + 128 * 8192 then
    (if o % 32 = 24 then execRouteTablePublish o v s else execRouteTableStageWrite o v s).state s
  else if 0x1100000 ≤ o && o < 0x1100000 + 64 * 4096 then s.writeFanSet (o - 0x1100000) v
  else if 0x1400000 ≤ o && o < 0x1400000 + 2048 * 4096 then s.writeGroup (o - 0x1400000) v
  else if 0x1C00000 ≤ o && o < 0x1C00000 + 8 * 16 then (execRingcfgWrite ((o - 0x1C00000) / 8) v s).state s
  else if 0x1F00000 ≤ o && o < 0x1F00000 + 16 * 64 then
    s.writeVector 0 ((o - 0x1F00000) / 16) (o % 16 / 8) v
  else s

/-- What the model adds to the map: the mailbox over SMBus at 2^32, configuration spaces at 2^33 + 8 × function, and the MSI-X
tables of the virtual functions at 2^34 + 1,024 × function. -/
def State.writeBeyond (s : State) (o : Nat) (v : Word) : State :=
  if o < 2 ^ 33 then s.writeMailbox (o - 2 ^ 32 - 0x40000) v true
  else if o < 2 ^ 34 then (if o < 2 ^ 33 + 8 * 64 then s.writeConfig ((o - 2 ^ 33) / 8) v else s)
  else if 2 ^ 34 + 1024 ≤ o && o < 2 ^ 34 + 1024 * 64 then
    let a := o - 2 ^ 34
    s.writeVector (a / 1024) (a % 1024 / 16) (a % 16 / 8) v
  else s

/-- MGMT_REGISTER_WRITE (R8, R118): a 64-bit write at an offset; offsets not listed ignore it. -/
def execMgmtRegisterWrite (offset : Nat) (v : Word) (s : State) : Res :=
  .next (
    if offset % 8 ≠ 0 then s
    else if offset < 0x70000 then s.writeLow offset v
    else if offset < 0x100000 then s.writeMid offset v
    else if offset < 0x1000000 then s
    else if offset < 2 ^ 32 then s.writeHigh offset v
    else s.writeBeyond offset v)

end Sys2Proof.Machine
end

