-- ==== Sys2Proof/Machine/Rep.lean ====
section
/-!
DEFINITION. Held words and rep chains (R295 to R297, R312, R346).
-/
namespace Sys2Proof.Machine
open Sys2Proof

/-- The operation that a holdable word names, at its own meaning (R295); any other word does nothing. -/
def heldExec (i : Instr) (s : State) : Res :=
  match i with
  | .add f => execAdd f s
  | .sub f => execSub f s
  | .and f => execAnd f s
  | .or f => execOr f s
  | .xor f => execXor f s
  | .andn f => execAndn f s
  | .sll f => execSll f s
  | .srl f => execSrl f s
  | .sra f => execSra f s
  | .rol f => execRol f s
  | .min f => execMin f s
  | .max f => execMax f s
  | .minn f => execMinn f s
  | .maxn f => execMaxn f s
  | .cmov f => execCmov f s
  | .mul f => execMul f s
  | .mulh f => execMulh f s
  | .mulhn f => execMulhn f s
  | .div f => execDiv f s
  | .divn f => execDivn f s
  | .rem f => execRem f s
  | .remn f => execRemn f s
  | .clz f => execClz f s
  | .ctz f => execCtz f s
  | .popc f => execPopc f s
  | .brev f => execBrev f s
  | .addi f => execAddi f s
  | .andi f => execAndi f s
  | .ori f => execOri f s
  | .xori f => execXori f s
  | .slli f => execSlli f s
  | .srli f => execSrli f s
  | .srai f => execSrai f s
  | .slti f => execSlti f s
  | .sltni f => execSltni f s
  | .seqi f => execSeqi f s
  | .movl f => execMovl f s
  | .movh f => execMovh f s
  | .vadd f => execVadd f s
  | .vsub f => execVsub f s
  | .vmul f => execVmul f s
  | .vfma f => execVfma f s
  | .vfms f => execVfms f s
  | .vmin f => execVmin f s
  | .vmax f => execVmax f s
  | .vabs f => execVabs f s
  | .vneg f => execVneg f s
  | .vadds f => execVadds f s
  | .vsubs f => execVsubs f s
  | .vaddsn f => execVaddsn f s
  | .vand f => execVand f s
  | .vor f => execVor f s
  | .vxor f => execVxor f s
  | .vshl f => execVshl f s
  | .vshr f => execVshr f s
  | .vsra f => execVsra f s
  | .vshli f => execVshli f s
  | .vcmpEq f => execVcmpEq f s
  | .vcmpLt f => execVcmpLt f s
  | .vcmpLe f => execVcmpLe f s
  | .vcmpNe f => execVcmpNe f s
  | .vcmpLtn f => execVcmpLtn f s
  | .vcvt f => execVcvt f s
  | .vcvts f => execVcvts f s
  | .vsel f => execVsel f s
  | .vmov f => execVmov f s
  | .vbcast f => execVbcast f s
  | .vperm f => execVperm f s
  | .vtrans f => execVtrans f s
  | .vrsum f => execVrsum f s
  | .vcsum f => execVcsum f s
  | .vrmax f => execVrmax f s
  | .vcmax f => execVcmax f s
  | .vrmin f => execVrmin f s
  | .vcmin f => execVcmin f s
  | .vmovz f => execVmovz f s
  | .qand f => execQand f s
  | .qor f => execQor f s
  | .qxor f => execQxor f s
  | .vdq f => execVdq f s
  | .vmac f => execVmac f s
  | .vrot f => execVrot f s
  | .vsplat f => execVsplat f s
  | .xexp2 f => execXexp2 f s
  | .xlog2 f => execXlog2 f s
  | .xrcp f => execXrcp f s
  | .xrsqrt f => execXrsqrt f s
  | .xsqrt f => execXsqrt f s
  | .xsin f => execXsin f s
  | .xcos f => execXcos f s
  | .xtanh f => execXtanh f s
  | .xsigm f => execXsigm f s
  | .xgelu f => execXgelu f s
  | .xdiv f => execXdiv f s
  | .cmpCc f c => execCmpCc f c s
  | .bfx f n => execBfx f n s
  | .bins f n => execBins f n s
  | .ldl k h d i => execLdl k h d i s
  | .vshp k h c => execVshp k h c s
  | .vpfx k h p w d a => execVpfx k h p w d a s
  | .qnot k h w d a => execQnot k h w d a s
  | .rrd h p w d a => execRrd h p w d a s
  | .rang h p w d a b => execRang h p w d a b s
  | _ => .next s

/-- The latency of a holdable word in a slot (R192, R299, R301, R303). -/
def holdLatency (k : Slot) (w : SlotWord) : Nat :=
  let op := Decode.fld w.toNat 25 6
  if k.isS then
    if 0x11 ≤ op ∧ op ≤ 0x13 then 3 else if 0x14 ≤ op ∧ op ≤ 0x17 then 12 else 1
  else if k.isV then
    if op = 0x03 ∨ op = 0x1D ∨ op = 0x1E ∨ op = 0x2D ∨ op = 0x31 ∨ op = 0x32 then 3
    else if op = 0x04 ∨ op = 0x05 ∨ op = 0x1F ∨ op = 0x30 then 4
    else if 0x20 ≤ op ∧ op ≤ 0x25 then 6
    else 2
  else 8

/-- A register field moved on by d; a selector that names no register stays (R296). -/
def advanceField (w lo width d : Nat) : Nat :=
  let x := Decode.fld w lo width
  if x ≤ 63 then setField w (lo + width - 1) lo ((x + d) % 64) else w

/-- A V or X word whose b is an immediate (R346). -/
def immediateB (k : Slot) (op : Nat) : Bool :=
  if k.isV then [0x13, 0x1D, 0x31, 0x26, 0x19, 0x1A, 0x2D].contains op else op == 0x17

/-- A held word with its register fields moved on; none for an advance that its format refuses (R312, R346). -/
def advanceWord (k : Slot) (w : SlotWord) (dd da db : Nat) : Option SlotWord :=
  let op := Decode.fld w.toNat 25 6
  if k.isS then
    let x := advanceField w.toNat 19 6 dd
    if op ≤ 0x1D then some (BitVec.ofNat 32 (advanceField (advanceField x 12 7 da) 5 7 db))
    else if op ≤ 0x29 then if db = 0 then some (BitVec.ofNat 32 (advanceField x 12 7 da)) else none
    else if da = 0 ∧ db = 0 then some (BitVec.ofNat 32 x) else none
  else
    let x := advanceField (advanceField w.toNat 14 6 dd) 7 7 da
    if immediateB k op then if db = 0 then some (BitVec.ofNat 32 x) else none
    else some (BitVec.ofNat 32 (advanceField x 0 7 db))

/-- The words of n instances after a held word, in order; none when one of them does not decode (R296). -/
def repWords (k : Slot) (dd da db : Nat) : Nat → SlotWord → Option (List SlotWord)
  | 0, _ => some []
  | n + 1, w => do
    let w' ← advanceWord k w dd da db
    match decodeSlot k w' with
    | .bad _ => none
    | .ok _ => (repWords k dd da db n w').map (w' :: ·)

/-- An instance of a rep runs: it reads its sources now. -/
def runInstance (k : Slot) (w : SlotWord) (s : State) : State :=
  match decodeSlot k w with
  | .ok i => match heldExec i s with
    | .next s' => s'
    | _ => s
  | .bad _ => s

/-- rep (R296): CNT + 1 instances of the held word as a chain. The first reads in the bundle's own cycle, or when the last
instance before it has become visible. -/
def execRep (k : Slot) (cnt : BitVec 4) (dd da db : BitVec 2) (s : State) : Res :=
  .next (match vget s.cx.holds k.num with
    | none => s.fail k 0xA3
    | some h =>
      match repWords k dd.toNat da.toNat db.toNat (cnt.toNat + 1) h.word with
      | none => s.fail k 0xA1
      | some l =>
        let c := s.issue.cc
        let lat := holdLatency k h.word
        let r := max c h.visible
        let chain := (l.zip (List.range l.length)).map (fun p => (⟨k, p.1, s.issue.issued, r + lat * p.2, s.issue.pc⟩ : Pending))
        let s := s.modCx (fun t => { t with
          holds := vset t.holds k.num (some ⟨l.getLastD h.word, r + lat * l.length, false⟩)
          chain := t.chain ++ chain.filter (fun p => c < p.readAt) })
        if r = c then runInstance k (l.headD h.word) s else s)

/-- The unread instances of a context that are due, earliest first and then in ascending slot order. -/
def Context.dueInstance (t : Context) : Option Pending :=
  (t.chain.filter (fun p => p.readAt ≤ t.cc)).foldl (fun b p => match b with
    | none => some p
    | some q => if p.readAt < q.readAt || (p.readAt == q.readAt && p.slot.num < q.slot.num) then some p else b) none

/-- An instance ends: its flags are recorded, and a fault of kind K waits for the context's next bundle (R296). -/
def Context.endInstance (t : Context) (p : Pending) (r : IssueRec) : Context :=
  let t := (r.flags ++ r.events).foldl (fun t f => t.raise f.1 f.2 p.pc) t
  match r.faults with
  | (_, code) :: _ => { t with pendingFault := t.pendingFault.or (some ⟨code, some p.pc, p.slot.num⟩) }
  | [] => t

/-- REP_INSTANCE (R296): the earliest unread instance of a slot reads its sources in its read cycle, while its context issues. -/
def execRepInstance (core ctx slot : Nat) (s : State) : Res :=
  .next (
    let k := s.core core
    match (k.ctx ctx).dueInstance with
    | none => s
    | some p =>
      if p.slot.num ≠ slot ∨ k.cur ≠ some ctx then s
      else
        let cc := (k.ctx ctx).cc
        let s := s.modCore core (fun k => (k.landDue ctx cc).performDue ctx cc)
        let s := s.modCtx core ctx (fun t => { t with chain := t.chain.erase p })
        let old := s.issue
        let s := { s with issue := { IssueRec.reset with core := core, ctx := ctx, pc := p.pc, cc := p.readAt, issued := p.issued } }
        let s := runInstance p.slot p.instr s
        { s.modCtx core ctx (fun t => t.endInstance p s.issue) with issue := old })

end Sys2Proof.Machine
end

