-- ==== Sys2Proof/Machine/Dispatch.lean ====
section
/-!
DEFINITION. The dispatch of an instruction to its meaning.
-/
namespace Sys2Proof.Machine
open Sys2Proof

/-- The meaning of each instruction. -/
def exec (i : Instr) (s : State) : Host.Outcome State Fault Refusal :=
  match i with
  | .idle slot => Sys2Proof.Machine.execIdle slot s
  | .rep slot cnt dd da db => Sys2Proof.Machine.execRep slot cnt dd da db s
  | .kmark slot => Sys2Proof.Machine.execKmark slot s
  | .hint slot h bits => Sys2Proof.Machine.execHint slot h bits s
  | .add f => Sys2Proof.Machine.execAdd f s
  | .sub f => Sys2Proof.Machine.execSub f s
  | .and f => Sys2Proof.Machine.execAnd f s
  | .or f => Sys2Proof.Machine.execOr f s
  | .xor f => Sys2Proof.Machine.execXor f s
  | .andn f => Sys2Proof.Machine.execAndn f s
  | .sll f => Sys2Proof.Machine.execSll f s
  | .srl f => Sys2Proof.Machine.execSrl f s
  | .sra f => Sys2Proof.Machine.execSra f s
  | .rol f => Sys2Proof.Machine.execRol f s
  | .min f => Sys2Proof.Machine.execMin f s
  | .max f => Sys2Proof.Machine.execMax f s
  | .minn f => Sys2Proof.Machine.execMinn f s
  | .maxn f => Sys2Proof.Machine.execMaxn f s
  | .cmpCc f cc => Sys2Proof.Machine.execCmpCc f cc s
  | .cmov f => Sys2Proof.Machine.execCmov f s
  | .mul f => Sys2Proof.Machine.execMul f s
  | .mulh f => Sys2Proof.Machine.execMulh f s
  | .mulhn f => Sys2Proof.Machine.execMulhn f s
  | .div f => Sys2Proof.Machine.execDiv f s
  | .divn f => Sys2Proof.Machine.execDivn f s
  | .rem f => Sys2Proof.Machine.execRem f s
  | .remn f => Sys2Proof.Machine.execRemn f s
  | .clz f => Sys2Proof.Machine.execClz f s
  | .ctz f => Sys2Proof.Machine.execCtz f s
  | .popc f => Sys2Proof.Machine.execPopc f s
  | .bfx f fn => Sys2Proof.Machine.execBfx f fn s
  | .bins f fn => Sys2Proof.Machine.execBins f fn s
  | .brev f => Sys2Proof.Machine.execBrev f s
  | .addi f => Sys2Proof.Machine.execAddi f s
  | .andi f => Sys2Proof.Machine.execAndi f s
  | .ori f => Sys2Proof.Machine.execOri f s
  | .xori f => Sys2Proof.Machine.execXori f s
  | .slli f => Sys2Proof.Machine.execSlli f s
  | .srli f => Sys2Proof.Machine.execSrli f s
  | .srai f => Sys2Proof.Machine.execSrai f s
  | .slti f => Sys2Proof.Machine.execSlti f s
  | .sltni f => Sys2Proof.Machine.execSltni f s
  | .seqi f => Sys2Proof.Machine.execSeqi f s
  | .movl f => Sys2Proof.Machine.execMovl f s
  | .movh f => Sys2Proof.Machine.execMovh f s
  | .ldl slot h dst idx => Sys2Proof.Machine.execLdl slot h dst idx s
  | .brCc c a off => Sys2Proof.Machine.execBrCc c a off s
  | .loop a off => Sys2Proof.Machine.execLoop a off s
  | .call dst target => Sys2Proof.Machine.execCall dst target s
  | .jr a => Sys2Proof.Machine.execJr a s
  | .exit => Sys2Proof.Machine.execExit s
  | .yield => Sys2Proof.Machine.execYield s
  | .trap num => Sys2Proof.Machine.execTrap num s
  | .uret => Sys2Proof.Machine.execUret s
  | .srd slot dst num => Sys2Proof.Machine.execSrd slot dst num s
  | .swr a num => Sys2Proof.Machine.execSwr a num s
  | .scopew e a => Sys2Proof.Machine.execScopew e a s
  | .winw w a b => Sys2Proof.Machine.execWinw w a b s
  | .winr slot dst w hi => Sys2Proof.Machine.execWinr slot dst w hi s
  | .inval a b => Sys2Proof.Machine.execInval a b s
  | .vadd f => Sys2Proof.Machine.execVadd f s
  | .vsub f => Sys2Proof.Machine.execVsub f s
  | .vmul f => Sys2Proof.Machine.execVmul f s
  | .vfma f => Sys2Proof.Machine.execVfma f s
  | .vfms f => Sys2Proof.Machine.execVfms f s
  | .vmin f => Sys2Proof.Machine.execVmin f s
  | .vmax f => Sys2Proof.Machine.execVmax f s
  | .vabs f => Sys2Proof.Machine.execVabs f s
  | .vneg f => Sys2Proof.Machine.execVneg f s
  | .vadds f => Sys2Proof.Machine.execVadds f s
  | .vsubs f => Sys2Proof.Machine.execVsubs f s
  | .vaddsn f => Sys2Proof.Machine.execVaddsn f s
  | .vand f => Sys2Proof.Machine.execVand f s
  | .vor f => Sys2Proof.Machine.execVor f s
  | .vxor f => Sys2Proof.Machine.execVxor f s
  | .vshl f => Sys2Proof.Machine.execVshl f s
  | .vshr f => Sys2Proof.Machine.execVshr f s
  | .vsra f => Sys2Proof.Machine.execVsra f s
  | .vshli f => Sys2Proof.Machine.execVshli f s
  | .vcmpEq f => Sys2Proof.Machine.execVcmpEq f s
  | .vcmpLt f => Sys2Proof.Machine.execVcmpLt f s
  | .vcmpLe f => Sys2Proof.Machine.execVcmpLe f s
  | .vcmpNe f => Sys2Proof.Machine.execVcmpNe f s
  | .vcmpLtn f => Sys2Proof.Machine.execVcmpLtn f s
  | .vcvt f => Sys2Proof.Machine.execVcvt f s
  | .vcvts f => Sys2Proof.Machine.execVcvts f s
  | .vsel f => Sys2Proof.Machine.execVsel f s
  | .vmov f => Sys2Proof.Machine.execVmov f s
  | .vbcast f => Sys2Proof.Machine.execVbcast f s
  | .vperm f => Sys2Proof.Machine.execVperm f s
  | .vtrans f => Sys2Proof.Machine.execVtrans f s
  | .vrsum f => Sys2Proof.Machine.execVrsum f s
  | .vcsum f => Sys2Proof.Machine.execVcsum f s
  | .vrmax f => Sys2Proof.Machine.execVrmax f s
  | .vcmax f => Sys2Proof.Machine.execVcmax f s
  | .vrmin f => Sys2Proof.Machine.execVrmin f s
  | .vcmin f => Sys2Proof.Machine.execVcmin f s
  | .vshp slot h code => Sys2Proof.Machine.execVshp slot h code s
  | .vmovz f => Sys2Proof.Machine.execVmovz f s
  | .vpfx slot h p w dst a => Sys2Proof.Machine.execVpfx slot h p w dst a s
  | .qand f => Sys2Proof.Machine.execQand f s
  | .qor f => Sys2Proof.Machine.execQor f s
  | .qxor f => Sys2Proof.Machine.execQxor f s
  | .qnot slot h w dst a => Sys2Proof.Machine.execQnot slot h w dst a s
  | .vdq f => Sys2Proof.Machine.execVdq f s
  | .vmac f => Sys2Proof.Machine.execVmac f s
  | .vrot f => Sys2Proof.Machine.execVrot f s
  | .vsplat f => Sys2Proof.Machine.execVsplat f s
  | .xexp2 f => Sys2Proof.Machine.execXexp2 f s
  | .xlog2 f => Sys2Proof.Machine.execXlog2 f s
  | .xrcp f => Sys2Proof.Machine.execXrcp f s
  | .xrsqrt f => Sys2Proof.Machine.execXrsqrt f s
  | .xsqrt f => Sys2Proof.Machine.execXsqrt f s
  | .xsin f => Sys2Proof.Machine.execXsin f s
  | .xcos f => Sys2Proof.Machine.execXcos f s
  | .xtanh f => Sys2Proof.Machine.execXtanh f s
  | .xsigm f => Sys2Proof.Machine.execXsigm f s
  | .xgelu f => Sys2Proof.Machine.execXgelu f s
  | .xdiv f => Sys2Proof.Machine.execXdiv f s
  | .mm due a b => Sys2Proof.Machine.execMm due a b s
  | .mmacro due a b => Sys2Proof.Machine.execMmacro due a b s
  | .accz t => Sys2Proof.Machine.execAccz t s
  | .rqr due deferred a b => Sys2Proof.Machine.execRqr due deferred a b s
  | .rap due deferred a b => Sys2Proof.Machine.execRap due deferred a b s
  | .rrd h p w dst a => Sys2Proof.Machine.execRrd h p w dst a s
  | .rcl due => Sys2Proof.Machine.execRcl due s
  | .rang h p w dst a half => Sys2Proof.Machine.execRang h p w dst a half s
  | .cp due a => Sys2Proof.Machine.execCp due a s
  | .cpadv due => Sys2Proof.Machine.execCpadv due s
  | .wmwait a b => Sys2Proof.Machine.execWmwait a b s
  | .cpreset a => Sys2Proof.Machine.execCpreset a s
  | .ld f => Sys2Proof.Machine.execLd f s
  | .st f => Sys2Proof.Machine.execSt f s
  | .ldt f => Sys2Proof.Machine.execLdt f s
  | .stt f => Sys2Proof.Machine.execStt f s
  | .ldsc buf v a imm => Sys2Proof.Machine.execLdsc buf v a imm s
  | .ldbf buf v a xp imm => Sys2Proof.Machine.execLdbf buf v a xp imm s
  | .amoOp slot op v a b => Sys2Proof.Machine.execAmoOp slot op v a b s
  | .ldgRow slot a b => Sys2Proof.Machine.execLdgRow slot a b s
  | .ldgWord slot a b => Sys2Proof.Machine.execLdgWord slot a b s
  | .stgRow slot v a b => Sys2Proof.Machine.execStgRow slot v a b s
  | .stgWord slot v a b => Sys2Proof.Machine.execStgWord slot v a b s
  | .ldff slot a b q => Sys2Proof.Machine.execLdff slot a b q s
  | .amogOp slot op v a b => Sys2Proof.Machine.execAmogOp slot op v a b s
  | .rst slot v a => Sys2Proof.Machine.execRst slot v a s
  | .rld slot a => Sys2Proof.Machine.execRld slot a s
  | .rred slot v a ifmt arrival nr => Sys2Proof.Machine.execRred slot v a ifmt arrival nr s
  | .rfaaI64 slot a b => Sys2Proof.Machine.execRfaaI64 slot a b s
  | .rfaaI32 slot a b => Sys2Proof.Machine.execRfaaI32 slot a b s
  | .rmc slot v a b => Sys2Proof.Machine.execRmc slot v a b s
  | .clap slot => Sys2Proof.Machine.execClap slot s
  | .fence slot e => Sys2Proof.Machine.execFence slot e s
  | .barInit slot b a => Sys2Proof.Machine.execBarInit slot b a s
  | .barArr slot b => Sys2Proof.Machine.execBarArr slot b s
  | .barWait slot b => Sys2Proof.Machine.execBarWait slot b s
  | .barSync slot b => Sys2Proof.Machine.execBarSync slot b s
  | .barDep slot b => Sys2Proof.Machine.execBarDep slot b s
  | .barEnd slot b => Sys2Proof.Machine.execBarEnd slot b s
  | .fbar slot e a => Sys2Proof.Machine.execFbar slot e a s
  | .guardSet slot a b => Sys2Proof.Machine.execGuardSet slot a b s
  | .guardClr slot a b => Sys2Proof.Machine.execGuardClr slot a b s
  | .rmg slot dst a b c => Sys2Proof.Machine.execRmg slot dst a b c s
  | .tagwFull slot a => Sys2Proof.Machine.execTagwFull slot a s
  | .tagwEmpty slot a => Sys2Proof.Machine.execTagwEmpty slot a s
  | .contextWake core ctx => Sys2Proof.Machine.execContextWake core ctx s
  | .regionRestart core ctx => Sys2Proof.Machine.execRegionRestart core ctx s
  | .engineHung core ctx => Sys2Proof.Machine.execEngineHung core ctx s
  | .uintDelivery core ctx => Sys2Proof.Machine.execUintDelivery core ctx s
  | .repInstance core ctx slot => Sys2Proof.Machine.execRepInstance core ctx slot s
  | .globalLoadReturn core n => Sys2Proof.Machine.execGlobalLoadReturn core n s
  | .storeQueueSend core ctx => Sys2Proof.Machine.execStoreQueueSend core ctx s
  | .remoteTimeout core n => Sys2Proof.Machine.execRemoteTimeout core n s
  | .seqEntryExpire core n => Sys2Proof.Machine.execSeqEntryExpire core n s
  | .matrixCommandStart core => Sys2Proof.Machine.execMatrixCommandStart core s
  | .matrixCommandComplete core => Sys2Proof.Machine.execMatrixCommandComplete core s
  | .macroStep core => Sys2Proof.Machine.execMacroStep core s
  | .rotatorCommandStart core => Sys2Proof.Machine.execRotatorCommandStart core s
  | .rotatorCommandComplete core => Sys2Proof.Machine.execRotatorCommandComplete core s
  | .copyEntryStart core ch => Sys2Proof.Machine.execCopyEntryStart core ch s
  | .copyRowLand core ch row => Sys2Proof.Machine.execCopyRowLand core ch row s
  | .followOnEnqueue core ch => Sys2Proof.Machine.execFollowOnEnqueue core ch s
  | .copyEntryComplete core ch => Sys2Proof.Machine.execCopyEntryComplete core ch s
  | .copyChannelError core ch => Sys2Proof.Machine.execCopyChannelError core ch s
  | .store core n => Sys2Proof.Machine.execStore core n s
  | .loadReq core n => Sys2Proof.Machine.execLoadReq core n s
  | .loadRsp core n => Sys2Proof.Machine.execLoadRsp core n s
  | .amo core n => Sys2Proof.Machine.execAmo core n s
  | .amoRsp core n => Sys2Proof.Machine.execAmoRsp core n s
  | .ack core n => Sys2Proof.Machine.execAck core n s
  | .error core n => Sys2Proof.Machine.execError core n s
  | .bulkWrite core n => Sys2Proof.Machine.execBulkWrite core n s
  | .bulkReadReq core n => Sys2Proof.Machine.execBulkReadReq core n s
  | .bulkReadRsp core n => Sys2Proof.Machine.execBulkReadRsp core n s
  | .mgmt n => Sys2Proof.Machine.execMgmt n s
  | .ringWrite n => Sys2Proof.Machine.execRingWrite n s
  | .ringRead n => Sys2Proof.Machine.execRingRead n s
  | .packetRouteFill n => Sys2Proof.Machine.execPacketRouteFill n s
  | .routeFwd n => Sys2Proof.Machine.execRouteFwd n s
  | .routeDeliver n => Sys2Proof.Machine.execRouteDeliver n s
  | .routeCombine n => Sys2Proof.Machine.execRouteCombine n s
  | .routeFanout n => Sys2Proof.Machine.execRouteFanout n s
  | .fanoutAck n => Sys2Proof.Machine.execFanoutAck n s
  | .fanoutAckTimeout fan => Sys2Proof.Machine.execFanoutAckTimeout fan s
  | .routeTableStageWrite offset v => Sys2Proof.Machine.execRouteTableStageWrite offset v s
  | .routeTablePublish offset v => Sys2Proof.Machine.execRouteTablePublish offset v s
  | .pageWalkComplete n => Sys2Proof.Machine.execPageWalkComplete n s
  | .invalidationPost v => Sys2Proof.Machine.execInvalidationPost v s
  | .invalidationStart => Sys2Proof.Machine.execInvalidationStart s
  | .tlbInvalidationAck holder => Sys2Proof.Machine.execTlbInvalidationAck holder s
  | .pinTimeout core ch => Sys2Proof.Machine.execPinTimeout core ch s
  | .launchDispatch launch => Sys2Proof.Machine.execLaunchDispatch launch s
  | .loadingComplete launch => Sys2Proof.Machine.execLoadingComplete launch s
  | .priorityAgeing launch => Sys2Proof.Machine.execPriorityAgeing launch s
  | .contextPreempt launch => Sys2Proof.Machine.execContextPreempt launch s
  | .contextSaveComplete core ctx => Sys2Proof.Machine.execContextSaveComplete core ctx s
  | .contextResume launch core home => Sys2Proof.Machine.execContextResume launch core home s
  | .iterationHandout launch => Sys2Proof.Machine.execIterationHandout launch s
  | .stepBoundary launch => Sys2Proof.Machine.execStepBoundary launch s
  | .launchRetire launch => Sys2Proof.Machine.execLaunchRetire launch s
  | .paddockEvaluate => Sys2Proof.Machine.execPaddockEvaluate s
  | .schedcfgWrite v => Sys2Proof.Machine.execSchedcfgWrite v s
  | .reconstructPoint launch n => Sys2Proof.Machine.execReconstructPoint launch n s
  | .auditCompare launch n => Sys2Proof.Machine.execAuditCompare launch n s
  | .dailiesUpdate launch => Sys2Proof.Machine.execDailiesUpdate launch s
  | .drainMarker die n => Sys2Proof.Machine.execDrainMarker die n s
  | .drainComplete => Sys2Proof.Machine.execDrainComplete s
  | .migrationBlockCopy => Sys2Proof.Machine.execMigrationBlockCopy s
  | .memoryRead n finding => Sys2Proof.Machine.execMemoryRead n finding s
  | .memoryWrite n => Sys2Proof.Machine.execMemoryWrite n s
  | .memoryAtomic n finding => Sys2Proof.Machine.execMemoryAtomic n finding s
  | .regionAdvance => Sys2Proof.Machine.execRegionAdvance s
  | .migrationStart v => Sys2Proof.Machine.execMigrationStart v s
  | .migrationResume => Sys2Proof.Machine.execMigrationResume s
  | .migstatRead => Sys2Proof.Machine.execMigstatRead s
  | .scrubRead unit block finding => Sys2Proof.Machine.execScrubRead unit block finding s
  | .ecccntRead u => Sys2Proof.Machine.execEcccntRead u s
  | .cxlPortDown port => Sys2Proof.Machine.execCxlPortDown port s
  | .cxlPortRetrain port => Sys2Proof.Machine.execCxlPortRetrain port s
  | .keyLoad v => Sys2Proof.Machine.execKeyLoad v s
  | .keyEnable v => Sys2Proof.Machine.execKeyEnable v s
  | .keyDisable v => Sys2Proof.Machine.execKeyDisable v s
  | .reduce n => Sys2Proof.Machine.execReduce n s
  | .barrierArrive n => Sys2Proof.Machine.execBarrierArrive n s
  | .slotTimeout group k => Sys2Proof.Machine.execSlotTimeout group k s
  | .reduceResultData n => Sys2Proof.Machine.execReduceResultData n s
  | .statusPhaseSend group k => Sys2Proof.Machine.execStatusPhaseSend group k s
  | .reduceResultStatus n => Sys2Proof.Machine.execReduceResultStatus n s
  | .resultWaitTimeout group k => Sys2Proof.Machine.execResultWaitTimeout group k s
  | .barrierRelease n => Sys2Proof.Machine.execBarrierRelease n s
  | .groupValidWrite group staged v => Sys2Proof.Machine.execGroupValidWrite group staged v s
  | .groupDelete group => Sys2Proof.Machine.execGroupDelete group s
  | .groupPropose group => Sys2Proof.Machine.execGroupPropose group s
  | .agreePrepare n => Sys2Proof.Machine.execAgreePrepare n s
  | .agreeReady n => Sys2Proof.Machine.execAgreeReady n s
  | .agreeCommit n => Sys2Proof.Machine.execAgreeCommit n s
  | .agreeAbort n => Sys2Proof.Machine.execAgreeAbort n s
  | .agreeInvalidStep n => Sys2Proof.Machine.execAgreeInvalidStep n s
  | .agreeDeadline group => Sys2Proof.Machine.execAgreeDeadline group s
  | .agreeCommitDone group => Sys2Proof.Machine.execAgreeCommitDone group s
  | .leaveComplete group => Sys2Proof.Machine.execLeaveComplete group s
  | .ringcfgWrite ring v => Sys2Proof.Machine.execRingcfgWrite ring v s
  | .queueEnable q v => Sys2Proof.Machine.execQueueEnable q v s
  | .queueDisable q v => Sys2Proof.Machine.execQueueDisable q v s
  | .queueResume q v => Sys2Proof.Machine.execQueueResume q v s
  | .queueSkip q v => Sys2Proof.Machine.execQueueSkip q v s
  | .queueDoorbell func q x => Sys2Proof.Machine.execQueueDoorbell func q x s
  | .queueStatusRead func q => Sys2Proof.Machine.execQueueStatusRead func q s
  | .packetFetch q => Sys2Proof.Machine.execPacketFetch q s
  | .nop q => Sys2Proof.Machine.execNop q s
  | .wait q => Sys2Proof.Machine.execWait q s
  | .waitPoll q => Sys2Proof.Machine.execWaitPoll q s
  | .waitTimeout q => Sys2Proof.Machine.execWaitTimeout q s
  | .signal q => Sys2Proof.Machine.execSignal q s
  | .launch q => Sys2Proof.Machine.execLaunch q s
  | .admitSlot q => Sys2Proof.Machine.execAdmitSlot q s
  | .evict q => Sys2Proof.Machine.execEvict q s
  | .cancel q => Sys2Proof.Machine.execCancel q s
  | .fetchFence q => Sys2Proof.Machine.execFetchFence q s
  | .cpThreadRestart q => Sys2Proof.Machine.execCpThreadRestart q s
  | .functionLevelReset func => Sys2Proof.Machine.execFunctionLevelReset func s
  | .hotReset => Sys2Proof.Machine.execHotReset s
  | .flrComplete func => Sys2Proof.Machine.execFlrComplete func s
  | .apertureRequest r => Sys2Proof.Machine.execApertureRequest r s
  | .pcieAtomicop func => Sys2Proof.Machine.execPcieAtomicop func s
  | .aperctlWrite func high v => Sys2Proof.Machine.execAperctlWrite func high v s
  | .outboundRequestSend n => Sys2Proof.Machine.execOutboundRequestSend n s
  | .outboundCompletion n c => Sys2Proof.Machine.execOutboundCompletion n c s
  | .outboundReadTimeout n => Sys2Proof.Machine.execOutboundReadTimeout n s
  | .msixUnmask func vector => Sys2Proof.Machine.execMsixUnmask func vector s
  | .mgmtRegisterWrite offset v => Sys2Proof.Machine.execMgmtRegisterWrite offset v s
  | .ucieFlitReceive m dir crcOk => Sys2Proof.Machine.execUcieFlitReceive m dir crcOk s
  | .ucieNak m dir => Sys2Proof.Machine.execUcieNak m dir s
  | .ucieAcknowledgement m dir => Sys2Proof.Machine.execUcieAcknowledgement m dir s
  | .moduleRetrainEnd m failed0 failed1 => Sys2Proof.Machine.execModuleRetrainEnd m failed0 failed1 s
  | .crcRateRetrain m dir => Sys2Proof.Machine.execCrcRateRetrain m dir s
  | .internalMessageReceive die n => Sys2Proof.Machine.execInternalMessageReceive die n s
  | .d2dstatRetrain m => Sys2Proof.Machine.execD2dstatRetrain m s
  | .d2dstatRead m => Sys2Proof.Machine.execD2dstatRead m s
  | .streamMappingEpoch => Sys2Proof.Machine.execStreamMappingEpoch s
  | .flitTransmit link dir => Sys2Proof.Machine.execFlitTransmit link dir s
  | .permitcfgWrite link v => Sys2Proof.Machine.execPermitcfgWrite link v s
  | .pwrlimitWrite v => Sys2Proof.Machine.execPwrlimitWrite v s
  | .pwrstretchWrite v => Sys2Proof.Machine.execPwrstretchWrite v s
  | .powerControllerTick watts => Sys2Proof.Machine.execPowerControllerTick watts s
  | .thermalThreshold temps => Sys2Proof.Machine.execThermalThreshold temps s
  | .droopDetect die => Sys2Proof.Machine.execDroopDetect die s
  | .droopHoldEnd => Sys2Proof.Machine.execDroopHoldEnd s
  | .thermalTrip die => Sys2Proof.Machine.execThermalTrip die s
  | .telemetrySample energy temps => Sys2Proof.Machine.execTelemetrySample energy temps s
  | .powerOnReset => Sys2Proof.Machine.execPowerOnReset s
  | .wakeStepReady capacities => Sys2Proof.Machine.execWakeStepReady capacities s
  | .wakeStepTimeout => Sys2Proof.Machine.execWakeStepTimeout s
  | .rehearsalWave launch => Sys2Proof.Machine.execRehearsalWave launch s
  | .actionCycle launch => Sys2Proof.Machine.execActionCycle launch s
  | .mboxReadTelemetry => Sys2Proof.Machine.execMboxReadTelemetry s
  | .mboxReadStatus => Sys2Proof.Machine.execMboxReadStatus s
  | .mboxSetPowerLimit => Sys2Proof.Machine.execMboxSetPowerLimit s
  | .mboxReadEventLog => Sys2Proof.Machine.execMboxReadEventLog s
  | .mboxReadFwVersions => Sys2Proof.Machine.execMboxReadFwVersions s
  | .mboxReadScreening => Sys2Proof.Machine.execMboxReadScreening s
  | .mboxUnknownCommand => Sys2Proof.Machine.execMboxUnknownCommand s
  | .coreRemoved core => Sys2Proof.Machine.execCoreRemoved core s
  | .foripFlitReceive port flit trailer => Sys2Proof.Machine.execForipFlitReceive port flit trailer s
  | .linkControlReceive port flit => Sys2Proof.Machine.execLinkControlReceive port flit s
  | .linkControlSend port => Sys2Proof.Machine.execLinkControlSend port s
  | .foripRateRetrain port => Sys2Proof.Machine.execForipRateRetrain port s
  | .foripRetrainEnd port lane0 lane1 => Sys2Proof.Machine.execForipRetrainEnd port lane0 lane1 s
  | .fpstatRetrain port => Sys2Proof.Machine.execFpstatRetrain port s
  | .fpstatRead port => Sys2Proof.Machine.execFpstatRead port s
  | .portTrainComplete port => Sys2Proof.Machine.execPortTrainComplete port s
  | .portIdent port peerPkg peerPort => Sys2Proof.Machine.execPortIdent port peerPkg peerPort s
  | .fabcfgWrite v => Sys2Proof.Machine.execFabcfgWrite v s
  | .fwWriteSlot v readback => Sys2Proof.Machine.execFwWriteSlot v readback s
  | .fwVerifySlot v => Sys2Proof.Machine.execFwVerifySlot v s
  | .fwActivateSlot v => Sys2Proof.Machine.execFwActivateSlot v s

end Sys2Proof.Machine
end

