-- ==== Sys2Proof/Machine/Issue.lean ====
section
/-!
DEFINITION. The issue of one bundle (R193 to R207, R294, R295, R309, R392): its slots in ascending order, the choice of its
outcome, and its commit. The meanings of the slot operations are a parameter.
-/
namespace Sys2Proof.Machine
open Sys2Proof

/-- What a fault code marked 0x100 or above also does: 0x24 writes its event-log entry (R232), 0x27 removes the core
(R209). -/
def State.faultExtra (s : State) (c x code : Nat) : State :=
  if code = 0x124 then
    let g := s.issue.gfrec.toNat
    s.logEvent (coreDie c) 0x24 (field g 61 60 * 2 ^ 30 + field g 59 58 * 2 ^ 28 + field g 55 50 * 2 ^ 22 + field g 21 0)
  else if code = 0x127 then s.removeCore c
  else s

/-- A kind-K fault at a bundle of context x of core c. -/
def State.faultAt (s : State) (c x code slot pc : Nat) : State := (s.faultExtra c x code).takeFault c x (code % 256) slot pc

/-- The slots of a bundle in ascending order (R291): a word that does not decode raises its fault (R306). -/
def runSlots (exec : Instr → State → Res) (b : Bundle) (s : State) : State :=
  (decodeBundle b).foldl (fun s p => match p.2 with
    | .bad code => s.fail p.1 code
    | .ok i => match exec i s with
      | .next s' => s'
      | _ => s) s

/-- The fault of the lowest-numbered faulting slot (R197). -/
def lowestFault (l : List (Nat × Nat)) : Option (Nat × Nat) :=
  l.foldl (fun b p => match b with
    | none => some p
    | some q => if p.1 < q.1 then some p else b) none

/-- A write that its bundle's commit makes. -/
def State.applyWrite (s : State) (w : SysWrite) : State :=
  match w with
  | .status num x => s.modCx (·.statusWrite num x)
  | .scope e image => s.modCx (fun t => { t with scopes := vset t.scopes e.toNat image })
  | .window i x => s.modCx (fun t => { t with w := vset t.w i.toNat x })
  | .guard set b row rows => s.modCk (fun k => { k with
      guard := (List.range rows).foldl (fun g i =>
        if set then setInsert g (rowKey b (row + i)) else setErase g (rowKey b (row + i))) k.guard })
  | .bar form b => s.modCk (·.applyBar s.issue.ctx form b)

/-- The hold records after a committed bundle (R295). -/
def Context.holdBundle (t : Context) (b : Bundle) (cc : Nat) : Context :=
  Slot.all.foldl (fun t k =>
    let w := Bundle.word b k
    let op := Decode.fld w.toNat 25 6
    if op = 0 || (k.isS && op == 0x3E) then t
    else
      let h : Option Hold := if w.msb then some ⟨w, cc + holdLatency k w, false⟩ else none
      { t with holds := vset t.holds k.num h }) t

/-- The restart point that a marked bundle is (R202, R294): the copies are those of the context `t0` before the bundle, and
only the bundle's own commands belong to the new region. -/
def Context.markBefore (t t0 : Context) : Context :=
  let new := t.regionCmds.drop t0.regionCmds.length
  { t with
    restart := (t0.mark t0.cc).restart
    latched := []
    patient := false
    regionCmds := new
    due := t.due.map (fun d => { d with region := d.region && new.contains d.cmd }) }

/-- The next bundle of a context (R320, R324): the target of a redirect that is due, or the one after. -/
def Context.advancePc (t : Context) (transfer : Option Nat) : Context :=
  let next := t.cc + 1
  let here := match t.redirect with
    | some (n, target) => if n = next then some target else none
    | none => none
  let redirect := match transfer with
    | some target => some (next + 1, target)
    | none => if here.isSome then none else t.redirect
  { t with pc := here.getD (t.pc + 1), cc := next, redirect := redirect, atRestart := false }

/-- The end of a bundle that has committed its effects: the context goes on, returns from its handler, marks the next bundle
as a restart point, yields or exits. -/
def State.finishBundle (s : State) (c x : Nat) : State :=
  let r := s.issue
  let s := s.modCtx c x (fun t =>
    let t := t.advancePc r.transfer
    let t := if r.urets && t.inh then t.leaveHandler t.cc else t
    if r.after then { t.mark t.cc with atRestart := true } else t)
  if r.exits then s.exitContext c x
  else if r.yields then s.leave c x .ready
  else s

/-- The effects of a committed bundle, apart from its region's commit. -/
def State.bundleEffects (s : State) (c x : Nat) (t0 : Context) (b : Bundle) : State :=
  let r := s.issue
  let s := if r.mark && !t0.atRestart then s.modCtx c x (·.markBefore t0) else s
  let s := r.writes.foldl State.applyWrite s
  let k := s.core c
  s.modCtx c x (fun t =>
    let t := r.flags.foldl (fun t f => t.raise f.1 f.2 r.pc) t
    { t.holdBundle b r.cc with due := t.due.filter (fun d => r.cc < d.due || !k.commandDone d.cmd) })

/-- The bundle commits (R197, R202): its region, if it commits one, and then its own effects. `s0` is the state that an
outcome without effect leaves. -/
def State.commitBundle (s0 s : State) (c x : Nat) (b : Bundle) : State :=
  let t0 := s0.ctxOf c x
  let region := if s.issue.after then s.commitHeld c x (s.ctxOf c x).seq (s.ctxOf c x).heldPops
    else if s.issue.mark then s.commitHeld c x t0.seq t0.heldPops
    else .done s
  match region with
  | .fault code => s0.faultAt c x code 0 t0.pc
  | .miss pages => s0.stall c pages
  | .done s => (s.bundleEffects c x t0 b).finishBundle c x

/-- Failed due checks noted (R205, R393). -/
def Context.noteFailed (t : Context) (cmds : List Nat) (cycle : Nat) : Context :=
  { t with due := t.due.map (fun d => if cmds.contains d.cmd then
      { d with failed := true, coreDue := d.coreDue.or (some cycle) } else d) }

/-- The kind-K faults that show once every slot of the bundle has run: 0x21 of a macro into whose operand groups its own bundle
writes (R220, R397), and 0x42 of a latch that a restart has not made valid (R195). -/
def State.lateFaults (s : State) (c x : Nat) (t : Context) : List (Nat × Nat) :=
  let r := s.issue
  (if (s.ctxOf c x).localWrites.any (fun w => w.issued == r.cc && w.hits r.macroRows) then [(5, 0x21)] else [])
    ++ (match r.latch with
      | some slot => if t.latched.contains t.pc then [(slot, 0x42)] else []
      | none => [])

/-- The outcome of a bundle whose slots have run (R197, R392): a stall, the fault of its lowest slot, a U event that acts as K
(R207), a failing due check, a latch restart, a block, or its commit. A fault of the bundle itself comes before the event's
(R441, log 67). Every event whose trap is enabled is recorded with a fault (R213, R344). The blocks that its probes have read
meet a migration and are checked (R94, R98). -/
def State.bundleOutcome (s0 s : State) (c x : Nat) (b : Bundle) : State :=
  let r := s.issue
  let checked (s : State) : State := r.reads.foldl (fun s pa => s.meetBlock (coreDie c) pa) s
  let s0 := checked s0
  let s := checked s
  let t := s0.ctxOf c x
  let k := s0.core c
  let failing := (t.due.filter (fun d => d.due ≤ t.cc && !k.commandDone d.cmd)).map (·.cmd)
  if !r.misses.isEmpty && t.pendingFault.isNone then s0.stall c r.misses
  else match lowestFault (r.faults ++ s.lateFaults c x t), t.pendingFault with
    | some (slot, code), _ =>
      (s0.modCtx c x (fun t => r.events.foldl (fun t e => t.raise e.1 e.2 t.pc) t)).faultAt c x code slot t.pc
    | none, some f => s0.faultAt c x f.code f.slot t.pc
    | none, none =>
      if !failing.isEmpty then
        let s0 := s0.modCtx c x (·.noteFailed failing s0.cycle)
        if t.patient then s0.block c x 7 (some (.commands failing)) else s0.takeRestart c x .timing
      else match r.latch with
        | some _ => (s0.modCtx c x (fun t => { t with latched := t.pc :: t.latched })).takeRestart c x .latch
        | none =>
          if r.handler then s0.takeRestart c x .handler
          else match r.block with
            | some code => s0.block c x code r.blockOn
            | none => s0.commitBundle s c x b

/-- The bundle at the context's pc issues: it is decoded, its slots run, and its outcome is taken (R197, R309). -/
def State.issueAt (exec : Instr → State → Res) (c x : Nat) (s : State) : State :=
  let k := s.core c
  let t := k.ctx x
  if !((s.launch? t.launch).map (fun l => l.inImage t.pc)).getD false then s.faultAt c x 0xA5 0 t.pc
  else if k.badImem.contains t.pc then s.faultAt c x 0x127 0 t.pc
  else
    let b := k.bundle t.pc
    let s0 := { s with issue := { IssueRec.reset with core := c, ctx := x, pc := t.pc, cc := t.cc, issued := t.cc, gfrec := t.gfrec } }
    let s1 := s0.modCtx c x (fun t => { t.rotFlags.foldl (fun t f => t.raise 5 f.1 f.2) t with rotFlags := [] })
    s0.bundleOutcome (runSlots exec b s1) c x b

/-- The next bundle of the current context x of core c (R193, R207, R388): what is due lands, what comes before the bundle is
taken, and otherwise the bundle issues; the faults of its walks are used up (R107). -/
def State.issueNext (exec : Instr → State → Res) (c x : Nat) (s : State) : State :=
  let s := s.modCore c (fun k => (k.landDue x (k.ctx x).cc).performDue x (k.ctx x).cc)
  let s := match (s.ctxOf c x).ahead with
    | some (.fault f a) => s.faultAt c x f.code f.slot a
    | some (.block code on) => s.block c x code (some on)
    | none => (s.modCtx c x (fun t => { t with syncOn := [] })).issueAt exec c x
  let used (p : Nat × Nat × Nat) : Bool := p.1 == c && !(s.core c).stalled
  { s with issue := IssueRec.reset, mem := { s.mem with walkFaults := s.mem.walkFaults.filter (fun p => !used p) } }

/-- An idle core takes its next ready context (R200, R201): the reel is replayed from its first bundle. -/
def State.select (s : State) (c : Nat) : Option State :=
  let k := s.core c
  if k.cur.isNone && k.resumeAt ≤ s.cycle then
    k.nextReady.map (fun x => s.setCore c
      { k.setCtx x { (k.ctx x).fromReel with mode := .issuing } with cur := some x, stalled := false })
  else none

end Sys2Proof.Machine
end

