-- ==== Sys2Proof/Machine/Events.lean ====
section
/-!
DEFINITION. What the package does of itself: the internal step that is due next, the core that issues next, and the next core
cycle. Internal steps are taken in one fixed order as soon as they may be (log 7).
-/
namespace Sys2Proof.Machine
open Sys2Proof

/-! ### The next core cycle -/

/-- The time base after one core cycle (R5, R28, R29): a cycle lasts (16 + K) / 288 of a reference tick. -/
def State.advanceTime (s : State) : State :=
  let k := s.power.k
  let n := s.tickAcc + 16 + k
  if n < 288 then { s with tickAcc := n }
  else { s with
    tickAcc := n - 288
    ticks := s.ticks + 1
    power := { s.power with ticksAt := s.power.ticksAt.set k (s.power.ticksAt.getD k 0 + 1) } }

/-- What the last core cycle has set is no longer fresh (R330). -/
def Context.settle (t : Context) : Context := if t.fresh = ⟨0, false, 0⟩ then t else { t with fresh := ⟨0, false, 0⟩ }

/-- The engines, tags and contexts of a core as core cycle c + 1 begins (R223, R270, R276). -/
def Core.tick (k : Core) (c : Nat) : Core :=
  let k := (((k.matrixReads c).freePlaces (c + 1)).matrixWrites (c + 1)).triTick (c + 1)
  { k with ctxs := k.ctxs.map Context.settle, tagUsed := [] }

/-- The step after which every core has issued in this cycle: the next core cycle begins (R31, R169). -/
def State.tick (s : State) : State :=
  let s : State := { s.advanceTime with
    cycle := s.cycle + 1
    turn := 0
    cores := s.cores.map (fun (p : Nat × Core) => (p.1, p.2.tick s.cycle)) }
  s.notePad

/-! ### Cores -/

/-- The first of a list of choices that is there. -/
def firstOf {α : Type} : List (Unit → Option α) → Option α
  | [] => none
  | f :: t => match f () with
    | some x => some x
    | none => firstOf t

/-- A choice that is there when a condition holds. -/
def when' {α : Type} (b : Bool) (x : α) : Option α := if b then some x else none

/-- A step without an event of its own. -/
def internal (o : Option State) : Option (State → Res) := o.map (fun t _ => .next t)

/-- The internal step of a core's contexts that is due. -/
def State.dueContext (s : State) (c : Nat) : Option (State → Res) :=
  let k := s.core c
  let xs := List.range 4
  firstOf [
    fun _ => when' (!k.returns.isEmpty) (execGlobalLoadReturn c 0),
    fun _ => (xs.find? (fun x => s.mayWake c x)).map (execContextWake c),
    fun _ => (xs.find? (fun x => s.hung c x)).map (execEngineHung c),
    fun _ => (xs.find? (fun x => s.mayRestart c x)).map (execRegionRestart c),
    fun _ => (xs.find? (fun x => (s.storeReady c x).isSome)).map (execStoreQueueSend c),
    fun _ => internal ((xs.map (fun x => s.sendLoads c x)).findSome? id),
    fun _ => (k.remoteOps.findIdx? (fun p => p.2.expired s.cycle)).map (execRemoteTimeout c),
    fun _ => internal (s.select c),
    fun _ => match s.issuing c with
      | none => none
      | some x =>
        if c < s.turn then none
        else match (k.ctx x).dueInstance with
          | some p => some (execRepInstance c x p.slot.num)
          | none => when' (s.mayDeliver c x) (execUintDelivery c x)]

/-- The internal step of a core's engines that is due; the channels take turns for landings and source reads (R279). -/
def State.dueEngine (s : State) (c : Nat) : Option (State → Res) :=
  let k := s.core c
  let hs := List.range 16
  let from' (n : Nat) : List Nat := hs.map (fun i => (n + i) % 16)
  firstOf [
    fun _ => when' ((k.array.find? (fun a => !a.started)).any (fun a => a.start ≤ s.cycle)) (execMatrixCommandStart c),
    fun _ => when' (k.array.any (fun a => a.started && a.writes.isEmpty && a.complete ≤ s.cycle)) (execMatrixCommandComplete c),
    fun _ => when' (k.macroReady s.cycle) (execMacroStep c),
    fun _ => when' ((k.rot.find? (fun a => !a.started)).any (fun a => a.start ≤ s.cycle)) (execRotatorCommandStart c),
    fun _ => when' (k.rot.any (fun a => a.started && a.complete ≤ s.cycle)) (execRotatorCommandComplete c),
    fun _ => (hs.find? (fun h => !(k.chan h).err && ((k.chan h).queue.head?.bind (·.bad)).isSome)).map (execCopyChannelError c),
    fun _ => (hs.find? (fun h => s.entryDone c h)).map (execCopyEntryComplete c),
    fun _ => (hs.find? (fun h => (k.chan h).mayStart s.cycle)).map (execCopyEntryStart c),
    fun _ => (hs.find? (fun h => s.followReady c h)).map (execFollowOnEnqueue c),
    fun _ => (from' k.copyTurn).findSome? (fun h => (s.nextRow c h).map (fun i => execCopyRowLand c h i)),
    fun _ => internal ((from' k.readTurn).findSome? (fun h => s.copyFeed c h))]

/-- The internal step of a launch that is due. -/
def State.dueLaunch (s : State) (key : Nat) (l : Launch) : Option (State → Res) :=
  firstOf [
    fun _ => internal (s.settlePoints key),
    fun _ => internal (s.dropDead key),
    fun _ => when' (s.dueUpdate key l).isSome (execDailiesUpdate key),
    fun _ => l.cov.bind (fun c => (c.points.find? (fun q => l.mayRecon c q.1 q.2)).map (fun q => execReconstructPoint key q.1)),
    fun _ => l.cov.bind (fun c => (c.points.find? (fun q => l.mayAudit c q.1 q.2)).map (fun q => execAuditCompare key q.1)),
    fun _ => when' (s.boundaryDue key) (execStepBoundary key),
    fun _ => internal (s.walk1 key true),
    fun _ => internal (s.retireIdle key)]

/-- A launch without a step that starts one (R161): in the cycle in which a slot's next state becomes active. -/
def State.dueStart (s : State) : Option (State → Res) :=
  (s.launches.find? (fun p => !p.2.inStep && s.boundaryDue p.1)).map (fun p => execStepBoundary p.1)

/-! ### The scheduler -/

/-- The step of the scheduler that is due. -/
def State.dueSchedule (s : State) : Option (State → Res) :=
  let l := s.launches
  let key (f : Launch → Bool) : Option Nat := (l.find? (fun p => f p.2)).map (·.1)
  firstOf [
    fun _ => internal (l.findSome? (fun p => s.endRun p.1)),
    fun _ => (l.find? (fun p => s.mayRetire p.2 p.1)).map (fun p => execLaunchRetire p.1),
    fun _ => (key (fun x => x.state == .loading)).map execLoadingComplete,
    fun _ => (key s.waveDue).map execRehearsalWave,
    fun _ => (key s.actionDue).map execActionCycle,
    fun _ => (key s.agesNow).map execPriorityAgeing,
    fun _ => s.duePreempt,
    fun _ => when' (s.sched.evalAt + 4096 ≤ s.cycle) execPaddockEvaluate]

/-! ### Links between dies and packages -/

/-- The step of module m that is due. -/
def State.dueModule (s : State) (m : Nat) : Option (State → Res) :=
  let x := s.mod m
  let dirs := [0, 1]
  firstOf [
    fun _ => (dirs.find? (fun d => x.live && (x.dir d).tooManyErrors)).map (execCrcRateRetrain m),
    fun _ => (dirs.find? (fun d => (x.dir d).ack.isSome)).map (execUcieAcknowledgement m),
    fun _ => (dirs.find? (fun d => (x.dir d).nak.isSome)).map (execUcieNak m),
    fun _ => (dirs.find? (fun d => x.live && !(x.dir d).wire.isEmpty)).map (fun d => execUcieFlitReceive m d true),
    fun _ => (dirs.find? (fun d => (s.moduleTransmit m d).isSome)).map (execFlitTransmit m)]

/-- The step of Forip port p that is due. -/
def State.duePort (s : State) (p : Nat) : Option (State → Res) :=
  let x := s.port p
  firstOf [
    fun _ => when' (x.st == .up && x.retraining.isNone && x.tooManyErrors) (execForipRateRetrain p),
    fun _ => when' (s.controlDue p) (execLinkControlSend p),
    fun _ => when' x.transmit.isSome (execFlitTransmit (256 + p) 0)]

/-- The step of messages between dies, ports and the Z die that is due. -/
def State.dueFabric (s : State) : Option (State → Res) :=
  let place {α : Type} (l : List α) : List (Nat × α) := (List.range l.length).zip l
  firstOf [
    fun _ => (place s.transit).findSome? (fun q =>
      if (s.transit.take q.1).any (fun m => m.stream == q.2.stream) then none
      else some (execInternalMessageReceive q.2.dst q.1)),
    fun _ => s.mods.findSome? (fun p => s.dueModule p.1),
    fun _ => (List.range s.zin.length).findSome? (fun i => (s.zAt i).map (fun z => s.routeStep i z)),
    fun _ => s.dueHanded,
    fun _ => s.fab.fans.findSome? (fun f => when' (!(s.lateCopies f).isEmpty) (execFanoutAckTimeout f.id)),
    fun _ => s.fab.ports.findSome? (fun p => s.duePort p.1),
    fun _ => when' (s.epochAt + 2 ^ 20 ≤ s.cycle) execStreamMappingEpoch]

/-- The step of group g's node that is due. -/
def State.dueNode (s : State) (g : Nat) : Option (State → Res) :=
  let slots := ((s.node g).slots).map (·.1)
  firstOf [
    fun _ => (slots.find? (s.slotLate g)).map (execSlotTimeout g),
    fun _ => (slots.find? (s.resultLate g)).map (execResultWaitTimeout g),
    fun _ => ((s.node g).deliveries.find? (fun d => d.acked && !d.sent)).map (fun d => execStatusPhaseSend g d.slot),
    fun _ => when' (s.roundLate g) (execAgreeDeadline g),
    fun _ => when' (s.commitSettled g) (execAgreeCommitDone g),
    fun _ => when' (s.leaveDone g) (execLeaveComplete g)]

/-- The sequence-table entry that expires now (R378): core 511 is the Z die. -/
def State.dueExpiry (s : State) : Option (State → Res) :=
  let first (t : List SeqEntry) : Option Nat := (List.range t.length).find? (seqExpired t s.cycle)
  firstOf [
    fun _ => s.cores.findSome? (fun p => (first p.2.seqTable).map (execSeqEntryExpire p.1)),
    fun _ => (first s.fab.seqTable).map (execSeqEntryExpire 511)]

/-! ### Memory and the H die -/

/-- The step of memory and translation that is due. -/
def State.dueMemory (s : State) : Option (State → Res) :=
  let place {α : Type} (l : List α) : List (Nat × α) := (List.range l.length).zip l
  firstOf [
    fun _ => (s.mem.markers.head?).map (fun p => execDrainMarker p.1 0),
    fun _ => (place s.mem.reqs).findSome? (fun q => if s.reqReady q.2 then some (q.2.step q.1) else none),
    fun _ => when' (s.drained || s.migrationOver) execDrainComplete,
    fun _ => when' s.copyReady.isSome execMigrationBlockCopy,
    fun _ => s.dueWalk]

/-- The step of the host interface, wake or power that is due. -/
def State.dueHost (s : State) : Option (State → Res) :=
  firstOf [
    fun _ => s.dueOutbound,
    fun _ => s.dueMail,
    fun _ => s.dueFirmware,
    fun _ => s.queues.findSome? (fun p => s.dueQueue p.1),
    fun _ => (s.mgmt.inReset.find? s.resetDone).map execFlrComplete,
    fun _ => when' (s.wake.step ≤ 6 && s.wake.since + s.wake.limit ≤ s.ticks) execWakeStepTimeout,
    fun _ => when' s.droopOver execDroopHoldEnd]

/-! ### The choice -/

/-- The core that issues next in this cycle, with its context. -/
def State.nextIssue (s : State) : Option (Nat × Nat) :=
  s.cores.findSome? (fun p => if s.turn ≤ p.1 then (s.issuing p.1).map (fun x => (p.1, x)) else none)

/-- The internal step that is due next, if any. The inputs of slots and the accesses to rings of a cycle are taken at its end. -/
def State.nextDue (s : State) : Option (State → Res) :=
  firstOf [
    fun _ => s.dueStart,
    fun _ => s.nextDispatch.map (fun p => execLaunchDispatch p.1),
    fun _ => s.dueFabric,
    fun _ => s.dueMemory,
    fun _ => s.dueHost,
    fun _ => s.cores.findSome? (fun p => s.dueRx p.1),
    fun _ => s.cores.findSome? (fun p => s.dueContext p.1),
    fun _ => s.cores.findSome? (fun p => s.dueEngine p.1),
    fun _ => s.fab.nodes.findSome? (fun p => s.dueNode p.1),
    fun _ => s.launches.findSome? (fun p => s.dueLaunch p.1 p.2),
    fun _ => s.dueSchedule,
    fun _ => s.dueExpiry,
    fun _ => if s.nextIssue.isNone then s.dueOrdered else none]

/-- An event that reaches the package after a thermal trip (R29): the management block of the H die still serves the mailbox
over SMBus and samples the telemetry counters, and a power-on reset ends it. -/
def reachesManaged : Instr → Bool
  | .powerOnReset | .telemetrySample .. | .mboxReadTelemetry | .mboxReadStatus | .mboxSetPowerLimit | .mboxReadEventLog
  | .mboxReadFwVersions | .mboxReadScreening | .mboxUnknownCommand => true
  | .mgmtRegisterWrite o _ => decide (2 ^ 32 ≤ o ∧ o < 2 ^ 33)
  | _ => false

/-- The step of a tripped package without an event: a mailbox request is served, or reference time passes (R29, log 55). -/
def State.managedStep (s : State) : Res :=
  match s.dueMail with
  | some f => f s
  | none => .next { s with ticks := s.ticks + 1 }

end Sys2Proof.Machine
end

