-- ==== Sys2Proof/Machine/Step.lean ====
section
/-!
DEFINITION. One step of the package: a step that the environment or the schedule brings, an internal step that is due, the
issue of one bundle, or the next core cycle.
-/
namespace Sys2Proof.Machine
open Sys2Proof

/-- One step. An event that does not reach a tripped package is lost (R29). -/
def step (s : State) : Host.Outcome State Fault Refusal :=
  match s.agenda with
  | e :: t => if s.power.off && !reachesManaged e then .next { s with agenda := t } else exec e { s with agenda := t }
  | [] =>
    if s.power.off then s.managedStep
    else match s.nextDue with
    | some f => f s
    | none =>
      match s.nextIssue with
      | some (c, x) => .next { s.issueNext exec c x with turn := c + 1 }
      | none => .next s.tick

/-- A record of a launch of one iteration on core 0, with every bundle and literal in its ranges: the load that
`withFetchWord` stands for. -/
def fetchRecord : List Word :=
  [0x11100001, 0, 0x4000, 0, 0x4000, 0, 0, 0xFFFF0000] ++ List.replicate 25 0 ++ [1] ++ List.replicate 22 0 ++ [1]
    ++ List.replicate 7 0

/-- The launch of `fetchRecord`, running. -/
def fetchLaunch : Launch where
  queue := 0
  lid := 0
  asid := 0
  priv := true
  recd := fetchRecord
  doneAddr := 0
  doneVal := 0
  statAddr := 0
  state := .running
  accepted := 0
  urgentAt := none
  place := [0]
  order := 0
  t0 := 0
  wave := 0
  action := 0
  cancelled := false
  status := 0
  fcode := 0
  fcore := 0
  fctx := 0
  faddr := 0
  detail := 0
  issued := 1
  done := 0
  tdisp := 0
  tact := 0
  steps := 0
  killed := 0
  admitDup := 0
  evictEmpty := 0
  badSlot := 0
  preempts := 0
  slots := []
  inStep := false
  stepSlots := []
  stepPos := 0
  nextN := 1
  stepBase := 0
  enumerated := true
  heldPoints := []
  shotCounts := []
  deps := []
  padSince := none
  cov := none

/-- The state with the bundle of bits w at the pc of context 0 of core 0, which issues it in the next step: the load of a
program of one bundle and the hand-out of its iteration. -/
def State.withFetchWord (s : State) (_nbits w : Nat) : State :=
  let t : Context := { Context.reset with
    mode := .issuing, launch := some 0, pc := 0, priv := true, iteration := some (0, 0), atRestart := true }
  let k : Core := { Core.reset with imem := [(0, BitVec.ofNat 256 w)], cur := some 0 }
  { s with
    cores := [(0, k.setCtx 0 t)]
    launches := [(0, fetchLaunch)]
    nextLaunch := 1
    turn := 0
    agenda := []
    issue := IssueRec.reset }

end Sys2Proof.Machine
end

