-- ==== Sys2Proof/Safety.lean ====
section
/-!
DEFINITION. What counts as a safe run of the package, in the terms that the statements use: the canonical form of every
memory, runs of steps, and a run without a refusal.
-/
namespace Sys2Proof.Machine
open Sys2Proof

/-- The three buffers of a core are in canonical form (R217). -/
def Core.wf (k : Core) : Bool := Memory.wf k.a && Memory.wf k.w && Memory.wf k.c

/-- Device memory and every local buffer are in canonical form (R86, R217). -/
def State.memoryWf (s : State) : Bool := Memory.wf s.mem.mem && s.cores.all (fun p => p.2.wf)

/-- The states that a run of steps from a state goes through. -/
inductive Reaches (s : State) : State → Prop where
  | here : Reaches s s
  | next {t u : State} : Reaches s t → step t = .next u → Reaches s u

/-- A state from which every run goes on for ever: it comes to no fault and to no refusal. -/
def State.Safe (s : State) : Prop :=
  ∀ t, Reaches s t → ∃ u, step t = .next u

/-! ### What results and frames say -/

/-- An operation answers by sending to s_d a result that has a property and lands `lat` cycles after its read (R193). -/
def GivesScalar (o : Res) (s : State) (k : Slot) (d : BitVec 6) (lat : Nat) (P : Word → Prop) : Prop :=
  ∃ r, P r ∧ o = .next (s.writeS k d lat r)

/-- The predicate that governs an operation of a slot: its slot's predicate register with P, all ones without (R343). -/
def State.govern (s : State) (k : Slot) (p : Bool) : Option Word × State :=
  if p then s.readQ k (predOf k) else (some (BitVec.allOnes 64), s)

/-- Reading a two-source vector operation gives the rows x and y, the governing bits m and, where the operation uses its
destination or may keep some of it, the old destination d; t is the state after the reads (R343). -/
def State.reads2 (s : State) (f : VF) (useD : Bool) (x y : Row) (m : Word) (d : Row) (t : State) : Prop :=
  ∃ s1 s2 s3, s.opV f.slot f.a = (some x, s1) ∧ s1.opV f.slot f.b = (some y, s2) ∧ s2.govern f.slot f.p = (some m, s3) ∧
    (if useD || f.p then s3.readReg f.slot .v f.dst else (some 0, s3)) = (some d, t)

/-- Reading a vector operation with one row source. -/
def State.reads1 (s : State) (k : Slot) (a : Sel) (p : Bool) (dst : BitVec 6) (x : Row) (m : Word) (d : Row) (t : State) :
    Prop :=
  ∃ s1 s2, s.opV k a = (some x, s1) ∧ s1.govern k p = (some m, s2) ∧
    (if p then s2.readReg k .v dst else (some 0, s2)) = (some d, t)

/-- An operation answers by noting flags fl and sending to v_dst a row whose elements, b bits wide, are those of g where the
governing bit is 1 and those of d elsewhere; fl gathers the flags of the governed elements alone (R343, R344). -/
def GivesRow (o : Res) (s : State) (k : Slot) (w : Bool) (dst : BitVec 6) (lat b : Nat) (m : Word) (d : Row)
    (g : Nat → Nat × Nat) : Prop :=
  ∃ (r : Row) (fl : Nat), o = .next ((s.noteFlags k fl).write k (.v dst) lat r w) ∧
    (∀ i, i < 2048 / b → elem b r.toNat i = if m.getLsbD (i / (32 / b)) then (g i).1 % 2 ^ b else elem b d.toNat i) ∧
    (∀ j, fl.testBit j = true ↔ ∃ i, i < 2048 / b ∧ m.getLsbD (i / (32 / b)) = true ∧ (g i).2.testBit j = true)

/-- State t holds one more load-queue entry of the issuing context than s: the next issue number, unpopped and held until a
restart point, with its kind, requests, awaited blocks and kept word (R196, R198). -/
def LoadPushed (s t : State) (kind : LoadKind) (reqs : List LoadReq) (missing : Nat) (word : Option Nat) : Prop :=
  ∃ e : LoadEntry, t.cx.lq = s.cx.lq ++ [e] ∧ e.seq = s.cx.seq ∧ e.kind = kind ∧ e.reqs = reqs ∧ e.popped = false ∧
    e.held = true ∧ e.missing = missing ∧ e.word = word ∧ e.data = 0 ∧ e.fault = none

/-- State t holds one more store-queue entry of the issuing context than s, held until a restart point, with an issue number
(R196, R198). -/
def StorePushed (s t : State) (seq : Nat) (op : StoreOp) (addr : Nat) (data : Row) (lq : Option Nat)
    (window : Option (Nat × Nat)) (fabric : Nat) : Prop :=
  ∃ e : StoreEntry, t.cx.sq = s.cx.sq ++ [e] ∧ e.seq = seq ∧ e.op = op ∧ e.status = .held ∧ e.addr = addr ∧
    e.data = data ∧ e.lq = lq ∧ e.window = window ∧ e.fabric = fabric ∧ e.pa = none ∧ t.cx.seq = seq + 1

/-- What a slot operation leaves in its issue cycle. -/
structure SlotFrame (s t : State) : Prop where
  /-- Nothing of the package changes but cores and the notes of the bundle being issued. -/
  package : t = { s with cores := t.cores, issue := t.issue }
  /-- The bundle being issued stays the same one. -/
  bundle : t.issue.core = s.issue.core ∧ t.issue.ctx = s.issue.ctx ∧ t.issue.pc = s.issue.pc ∧ t.issue.cc = s.issue.cc
  /-- No other core changes. -/
  cores : ∀ c, c ≠ s.issue.core → t.core c = s.core c
  /-- Another context of the core keeps everything but the event that a channel put into error may give it (R285). -/
  others : ∀ x, x % 4 ≠ s.issue.ctx % 4 → let u := t.ctxOf s.issue.core x
    u = { s.ctxOf s.issue.core x with
      uip := u.uip, ucause := u.ucause, tagHeld := u.tagHeld, fresh := u.fresh, pendingFault := u.pendingFault }
  /-- Every byte of device memory reads as before. -/
  device : ∀ a, Memory.readByte t.mem.mem a = Memory.readByte s.mem.mem a
  /-- Every byte of every local buffer reads as before. -/
  locals : ∀ c b a, Memory.readByte ((t.core c).buf b) a = Memory.readByte ((s.core c).buf b) a
  /-- The latches, the guard bits and the barriers of every core stay. -/
  core : ∀ c, (t.core c).latches = (s.core c).latches ∧ (t.core c).guard = (s.core c).guard ∧
    (t.core c).barriers = (s.core c).barriers
  /-- The issuing context keeps its scalar, vector and predicate registers and its handler registers. -/
  files : t.cx.s = s.cx.s ∧ t.cx.v = s.cx.v ∧ t.cx.q = s.cx.q ∧ t.cx.h = s.cx.h
  /-- It keeps its scale, pattern and codebook registers, its windows, its scope table and its shape. -/
  special : t.cx.sc = s.cx.sc ∧ t.cx.xp = s.cx.xp ∧ t.cx.kb = s.cx.kb ∧ t.cx.w = s.cx.w ∧ t.cx.scopes = s.cx.scopes ∧
    t.cx.shp = s.cx.shp
  /-- It keeps its place, its mode, its privilege, its flags and its interrupt control. -/
  mode : t.cx.pc = s.cx.pc ∧ t.cx.cc = s.cx.cc ∧ t.cx.mode = s.cx.mode ∧ t.cx.priv = s.cx.priv ∧ t.cx.inh = s.cx.inh ∧
    t.cx.fpflags = s.cx.fpflags ∧ t.cx.fpfirst = s.cx.fpfirst ∧ t.cx.uctl = s.cx.uctl ∧ t.cx.restart = s.cx.restart

/-- The slot operations that touch registers alone: no queue but for pops, no engine, tag, generator, literal counter or
status register that a read clears. -/
def registerOnly : Instr → Bool
  | .rep .. | .inval .. | .rrd .. | .mm .. | .mmacro .. | .accz .. | .rqr .. | .rap .. | .rcl .. | .cp .. | .cpadv ..
  | .cpreset .. | .ld .. | .st .. | .ldt .. | .stt .. | .ldsc .. | .ldbf .. | .amoOp .. | .ldgRow .. | .ldgWord ..
  | .stgRow .. | .stgWord .. | .ldff .. | .amogOp .. | .rst .. | .rld .. | .rred .. | .rfaaI64 .. | .rfaaI32 .. | .rmc ..
  | .clap .. | .fence .. | .fbar .. => false
  | .vcvt f | .vcvts f => f.rm != .sr
  | .srd _ _ n => !srdClears n.toNat
  | i => i.slot?.isSome

/-- What an operation that touches registers alone leaves: results in flight, popped entries and notes of the bundle may
change, and nothing else. -/
structure RegisterFrame (s t : State) : Prop where
  /-- What every slot operation leaves. -/
  slot : SlotFrame s t
  /-- Another context of the core keeps everything. -/
  others : ∀ x, x % 4 ≠ s.issue.ctx % 4 → t.ctxOf s.issue.core x = s.ctxOf s.issue.core x
  /-- Nothing of a core changes but its contexts: tags, guard bits, latches, barriers, engines and queues stay. -/
  core : ∀ c, t.core c = { s.core c with ctxs := (t.core c).ctxs }
  /-- The issuing context keeps every register, flag, mode and special register. -/
  issuing : t.cx = { s.cx with inflight := t.cx.inflight, lq := t.cx.lq }

/-! ### What the steps of other agents leave -/

/-- The steps of other agents that store to no memory: they move messages, requests, queues and registers. -/
def storesNothing : Instr → Bool
  | .contextWake .. | .regionRestart .. | .globalLoadReturn .. | .storeQueueSend .. | .remoteTimeout ..
  | .seqEntryExpire .. | .matrixCommandStart .. | .matrixCommandComplete .. | .macroStep .. | .rotatorCommandStart ..
  | .rotatorCommandComplete .. | .copyEntryStart .. | .followOnEnqueue .. | .copyEntryComplete ..
  | .copyChannelError .. | .loadReq .. | .loadRsp .. | .amoRsp .. | .ack .. | .error .. | .bulkReadReq ..
  | .bulkReadRsp .. | .mgmt .. | .ringWrite .. | .ringRead .. | .packetRouteFill .. | .routeFwd .. | .routeDeliver ..
  | .routeCombine .. | .routeFanout .. | .fanoutAck .. | .fanoutAckTimeout .. | .routeTableStageWrite ..
  | .routeTablePublish .. | .invalidationPost .. | .invalidationStart | .tlbInvalidationAck ..
  | .pinTimeout .. | .launchDispatch .. | .priorityAgeing .. | .iterationHandout .. | .paddockEvaluate
  | .schedcfgWrite .. | .dailiesUpdate .. | .drainMarker .. | .drainComplete | .memoryRead .. | .regionAdvance
  | .migrationStart .. | .migrationResume | .migstatRead | .scrubRead .. | .ecccntRead .. | .cxlPortDown ..
  | .cxlPortRetrain .. | .keyEnable .. | .keyDisable .. | .slotTimeout .. | .statusPhaseSend .. | .groupValidWrite ..
  | .groupPropose .. | .agreePrepare .. | .agreeReady .. | .agreeCommit .. | .agreeAbort .. | .agreeInvalidStep ..
  | .agreeDeadline .. | .agreeCommitDone .. | .ringcfgWrite .. | .queueEnable .. | .queueDisable .. | .queueResume ..
  | .queueSkip .. | .queueDoorbell .. | .queueStatusRead .. | .nop ..
  | .waitTimeout .. | .admitSlot .. | .evict .. | .fetchFence .. | .cpThreadRestart .. | .flrComplete ..
  | .pcieAtomicop .. | .aperctlWrite .. | .outboundRequestSend .. | .outboundCompletion .. | .outboundReadTimeout ..
  | .msixUnmask .. | .ucieFlitReceive .. | .ucieNak .. | .ucieAcknowledgement .. | .crcRateRetrain ..
  | .internalMessageReceive .. | .d2dstatRetrain .. | .d2dstatRead .. | .streamMappingEpoch | .flitTransmit ..
  | .permitcfgWrite .. | .pwrlimitWrite .. | .pwrstretchWrite .. | .powerControllerTick .. | .thermalThreshold ..
  | .droopDetect .. | .droopHoldEnd | .telemetrySample .. | .wakeStepReady .. | .wakeStepTimeout | .rehearsalWave ..
  | .actionCycle .. | .mboxReadTelemetry | .mboxReadStatus | .mboxSetPowerLimit | .mboxReadEventLog
  | .mboxReadFwVersions | .mboxReadScreening | .mboxUnknownCommand | .coreRemoved .. | .foripFlitReceive ..
  | .linkControlReceive .. | .linkControlSend .. | .foripRateRetrain .. | .foripRetrainEnd .. | .fpstatRetrain ..
  | .fpstatRead .. | .portTrainComplete .. | .portIdent .. | .fabcfgWrite .. | .fwWriteSlot .. | .fwVerifySlot ..
  | .fwActivateSlot .. => true
  | _ => false

/-- The steps of other agents that read memory and store to none but where they meet a running migration, whose block they may
have copied first (R94). -/
def readsMemory : Instr → Bool
  | .pageWalkComplete .. | .packetFetch .. | .wait .. | .waitPoll .. => true
  | _ => false

/-- The steps of other agents that act outside the cores: links, ports, the Z die's tables, memory maintenance, queue
control, the management block and power. -/
def leavesCores : Instr → Bool
  | .mgmt .. | .ringWrite .. | .ringRead .. | .packetRouteFill .. | .routeFwd .. | .routeCombine .. | .fanoutAck ..
  | .fanoutAckTimeout .. | .routeTableStageWrite .. | .routeTablePublish .. | .invalidationPost ..
  | .priorityAgeing .. | .paddockEvaluate | .schedcfgWrite .. | .dailiesUpdate .. | .drainComplete
  | .migrationBlockCopy | .migrationResume | .migstatRead | .scrubRead .. | .ecccntRead .. | .cxlPortDown ..
  | .cxlPortRetrain .. | .keyLoad .. | .keyEnable .. | .keyDisable .. | .groupValidWrite .. | .agreeCommit ..
  | .agreeAbort .. | .agreeInvalidStep .. | .agreeCommitDone .. | .ringcfgWrite .. | .queueEnable ..
  | .queueDisable .. | .queueResume .. | .queueSkip .. | .queueDoorbell .. | .queueStatusRead .. | .nop ..
  | .waitTimeout .. | .admitSlot .. | .evict .. | .fetchFence .. | .cpThreadRestart .. | .flrComplete ..
  | .apertureRequest .. | .pcieAtomicop .. | .aperctlWrite .. | .msixUnmask .. | .ucieNak ..
  | .ucieAcknowledgement .. | .crcRateRetrain .. | .d2dstatRetrain .. | .d2dstatRead .. | .streamMappingEpoch
  | .flitTransmit .. | .permitcfgWrite .. | .pwrlimitWrite .. | .pwrstretchWrite .. | .powerControllerTick ..
  | .thermalThreshold .. | .droopDetect .. | .droopHoldEnd | .telemetrySample .. | .wakeStepReady ..
  | .wakeStepTimeout | .rehearsalWave .. | .mboxReadTelemetry | .mboxReadStatus | .mboxSetPowerLimit
  | .mboxReadEventLog | .mboxReadFwVersions | .mboxReadScreening | .mboxUnknownCommand | .coreRemoved ..
  | .foripFlitReceive .. | .linkControlReceive .. | .linkControlSend .. | .foripRateRetrain .. | .foripRetrainEnd ..
  | .fpstatRetrain .. | .fpstatRead .. | .portTrainComplete .. | .portIdent .. | .fabcfgWrite .. | .fwWriteSlot ..
  | .fwVerifySlot .. | .fwActivateSlot .. => true
  | _ => false

/-- The core on which a step of its contexts, engines, channels or queues acts. -/
def ownCore : Instr → Option Nat
  | .contextWake c _ | .regionRestart c _ | .repInstance c _ _ | .globalLoadReturn c _ | .remoteTimeout c _
  | .matrixCommandStart c | .matrixCommandComplete c | .macroStep c | .rotatorCommandStart c | .rotatorCommandComplete c
  | .copyEntryStart c _ | .copyRowLand c _ _ | .followOnEnqueue c _ | .copyEntryComplete c _ | .copyChannelError c _
  | .pinTimeout c _ => some c
  | _ => none

end Sys2Proof.Machine
end

