-- ==== Sys2Proof/Certificates/Slice0/Obligations.lean ====
section
/-!
DEFINITION. The statements about the model, for its provers. The states s1, s2, ... of a hypothesis are those that reading the
operands in order leaves: a popped queue entry stays popped (R291).
-/
open Sys2Proof Sys2Proof.Machine

/-- R191, R217. After reset every buffer of every core reads zero, and a context's registers hold the values of R191: the
codebooks hold the E2M1 table, LOG2SIZE is 12, and the queues are empty. No step is on the agenda, power is on, and every
memory is in canonical form. -/
def Obligations.ResetValues : Prop :=
  let t := Context.reset
  let codes : List Nat := [0, 0x3F00, 0x3F80, 0x3FC0, 0x4000, 0x4040, 0x4080, 0x40C0]
  (∀ (c a : Nat) (b : Buf), Memory.readByte ((State.reset.core c).buf b) a = 0) ∧
  (∀ c x : Nat, State.reset.ctxOf c x = t) ∧
  (∀ n : Nat, vget t.s n = 0 ∧ vget t.v n = 0 ∧ vget t.q n = BitVec.allOnes 64 ∧ vget t.sc n = 127 ∧ vget t.xp n = 0 ∧
    vget t.h n = 0 ∧ (vget t.w n).toNat = 12 * 2 ^ 4 ∧
    ∀ e, e < 8 → elem 16 (vget t.kb n).toNat e = codes.getD e 0 ∧
      elem 16 (vget t.kb n).toNat (8 + e) = 2 ^ 15 + codes.getD e 0) ∧
  t.shp = 6 ∧ t.fpflags = 0 ∧ t.fpfirst = 0 ∧ t.uctl = 2 ∧ t.uip = 0 ∧ t.ucause = 0 ∧ t.lq = [] ∧ t.sq = [] ∧ t.reel = [] ∧
  State.reset.agenda = [] ∧ State.reset.power.off = false ∧ State.reset.memoryWf = true

/-- What one step is: the event at the head of the agenda, else the internal event that is due, else the issue of one bundle,
else the next core cycle. After a thermal trip (R29) the management block of the H die alone is left: an event that does not
reach it is lost, a mailbox request is served, and otherwise reference time passes. The order of these choices, and that an internal
event is taken as soon as it may be, is the model's own (log 7, DESIGN CHOICE); so is what a tripped package still does, the lost
events, the mailbox and the tick (log 55, DESIGN CHOICE): R29 says only that power goes from all but the management block. -/
def Obligations.WhatOneStepIs : Prop :=
  ∀ s : State,
    (∀ i l, s.agenda = i :: l → s.power.off = false ∨ reachesManaged i = true → step s = exec i { s with agenda := l }) ∧
    (∀ i l, s.agenda = i :: l → s.power.off = true → reachesManaged i = false → step s = .next { s with agenda := l }) ∧
    (s.agenda = [] → s.power.off = true → (∀ f, s.dueMail = some f → step s = f s) ∧
      (s.dueMail = none → step s = .next { s with ticks := s.ticks + 1 })) ∧
    (s.agenda = [] → s.power.off = false →
      (∀ f, s.nextDue = some f → step s = f s) ∧
      (∀ c x, s.nextDue = none → s.nextIssue = some (c, x) →
        step s = .next { s.issueNext exec c x with turn := c + 1 }) ∧
      (s.nextDue = none → s.nextIssue = none → ∃ t, step s = .next t ∧ t.cycle = s.cycle + 1 ∧ t.turn = 0 ∧ t.mem = s.mem ∧
        t.launches.map (fun p => (p.1, { p.2 with padSince := none })) =
          s.launches.map (fun p => (p.1, { p.2 with padSince := none }))))

/-- A step runs the decoded instruction: when the next bundle of the context that issues holds the words of a well-formed
operation i, the step runs exec of i, after what is due has landed and with the notes of a new bundle, and takes the outcome
that i leaves. -/
def Obligations.StepRunsTheDecodedOperation : Prop :=
  (∀ (i : Instr) (s t : State), i.wf = true → i.slot? ≠ none → exec i s = .next t → runSlots exec (encode i) s = t) ∧
  (∀ (s : State) (c x : Nat) (l : Launch) (b : Bundle), s.agenda = [] → s.power.off = false → s.nextDue = none →
    s.nextIssue = some (c, x) →
    let s1 := s.modCore c (fun k => (k.landDue x (k.ctx x).cc).performDue x (k.ctx x).cc)
    let u := s1.ctxOf c x
    u.ahead = none → s1.launch? u.launch = some l → l.inImage u.pc = true →
    (s1.core c).badImem.contains u.pc = false → (s1.core c).bundle u.pc = b →
    let s2 := { s1.modCtx c x (fun t => { t with syncOn := [] }) with issue :=
      { IssueRec.reset with core := c, ctx := x, pc := u.pc, cc := u.cc, issued := u.cc, gfrec := u.gfrec } }
    let s3 := s2.modCtx c x (fun t => { t.rotFlags.foldl (fun t f => t.raise 5 f.1 f.2) t with rotFlags := [] })
    ∀ v : State, v = s2.bundleOutcome (runSlots exec b s3) c x b → ∃ t, step s = .next t ∧
      t = { v with issue := IssueRec.reset, turn := c + 1, mem := t.mem } ∧ t.mem.mem = v.mem.mem)

/-- R289 to R306. Words of the spec's examples decode to the operations that the spec gives them; an unassigned opcode gives
0xA1, and so do a field of an operation that must be zero and is not, and every idle pattern but 0; a reserved source gives
0xA2, and an operation outside its slots 0xA4. -/
def Obligations.WordsOfTheSpecDecode : Prop :=
  decodeSlot .s0 0x54500003#32 = .ok (.movl ⟨.s0, false, 10, 3⟩) ∧
  decodeSlot .s1 0x40600001#32 = .ok (.addi ⟨.s1, false, 12, .reg 0, 1⟩) ∧
  decodeSlot .s1 0x0258B180#32 = .ok (.add ⟨.s1, false, 11, .reg 11, .reg 12⟩) ∧
  decodeSlot .s0 0x65F82200#32 = .ok (.call 63 0x0110) ∧
  decodeSlot .s0 0x62050000#32 = .ok (.loop 10 0) ∧
  decodeSlot .s0 0x6603F920#32 = .ok (.jr (.reg 63)) ∧
  decodeSlot .s0 0x68000000#32 = .ok .exit ∧
  decodeSlot .v0 0x40224449#32 = .ok (.vrsum ⟨.v0, false, .f32, true, false, 9, .reg 8⟩) ∧
  decodeSlot .v1 0x2A404205#32 = .ok (.vcmpLt ⟨.v1, false, .bf16, false, false, 1, .reg 4, .reg 5⟩) ∧
  decodeSlot .v0 0x5A014202#32 = .ok (.vdq ⟨.v0, false, .f32, false, false, 5, .reg 4, 2⟩) ∧
  decodeSlot .m0 0x05090802#32 = .ok (.st ⟨.m0, .c, .reg 9, .reg 4, 2⟩) ∧
  decodeSlot .m0 0x341C9920#32 = .ok (.fence .m0 3) ∧
  decodeSlot .m1 0x36282920#32 = .ok (.barInit .m1 5 (.reg 2)) ∧
  decodeSlot .x 0x20B20A16#32 = .ok (.mm ⟨1, 100⟩ (.reg 10) (.reg 11)) ∧
  decodeSlot .x 0x28048814#32 = .ok (.rap ⟨0, 9⟩ false 8 (.reg 10)) ∧
  decodeSlot .s0 0x00000000#32 = .ok (.idle .s0) ∧
  (∀ (k : Slot) (w : SlotWord), Decode.fld w.toNat 25 6 = 0x3F → decodeSlot k w = .bad 0xA1) ∧
  (∀ (k : Slot) (w : SlotWord), k.isS = true → 1 ≤ Decode.fld w.toNat 25 6 → Decode.fld w.toNat 25 6 ≤ 0x0E →
    Decode.fld w.toNat 0 5 ≠ 0 → decodeSlot k w = .bad 0xA1) ∧
  (∀ (k : Slot) (w : SlotWord), Decode.fld w.toNat 25 6 = 0 → Decode.fld w.toNat 22 3 = 0 → w ≠ 0 →
    decodeSlot k w = .bad 0xA1) ∧
  (∀ w : SlotWord, 0x30 ≤ Decode.fld w.toNat 25 6 → Decode.fld w.toNat 25 6 ≤ 0x37 → decodeSlot .s1 w = .bad 0xA4) ∧
  (∀ (k : Slot) (w : SlotWord), k.isS = true → Decode.fld w.toNat 25 6 = 0x01 → Decode.fld w.toNat 0 5 = 0 →
    w.msb = false → 74 ≤ Decode.fld w.toNat 12 7 → decodeSlot k w = .bad 0xA2)

/-- The words of a well-formed slot operation decode to it, with every operand at every value that the encoding admits. -/
def Obligations.DecodeOfEncodeIsTheOperation : Prop :=
  ∀ (i : Instr) (k : Slot), i.wf = true → i.slot? = some k →
    decodeSlot k (encodeWord i) = .ok i ∧ Bundle.word (encode i) k = encodeWord i ∧
    ∀ k', k' ≠ k → decodeSlot k' (Bundle.word (encode i) k') = .ok (.idle k')

/-- A word that decodes is the word of what it decodes to: each operation has one word, and no bit of a word is dropped. -/
def Obligations.EncodeOfDecodeIsTheWord : Prop :=
  ∀ (k : Slot) (w : SlotWord) (i : Instr), decodeSlot k w = .ok i →
    i.wf = true ∧ i.slot? = some k ∧ encodeWord i = w

/-- The memories keep their canonical form in every step, so that equal memories stay equal data. -/
def Obligations.EveryStepKeepsTheMemoriesCanonical : Prop :=
  ∀ s t : State, s.memoryWf = true → step s = .next t → t.memoryWf = true

/-- In canonical form, memories that read alike are equal. -/
def Obligations.CanonicalMemoriesThatReadAlikeAreEqual : Prop :=
  ∀ m n : Memory, Memory.wf m = true → Memory.wf n = true → (∀ a, Memory.readByte m a = Memory.readByte n a) → m = n

/-- R290, R291. What a selector reads: the register, the latch cut to the operand's width, or zero; an invalid latch is noted,
and a pop takes the oldest entry that has not been popped, blocks while its data is awaited, and raises 0x43 without one. -/
def Obligations.WhatOperandsRead : Prop :=
  ∀ (s : State) (k : Slot),
    (s.opS k .zero = (some 0, s) ∧ s.opV k .zero = (some 0, s)) ∧
    (∀ n : BitVec 6, s.cx.pendChk = false →
      s.opV k (.reg n) = (some (vget s.cx.v n.toNat), s) ∧
      (s.cx.inh = false ∨ 8 ≤ n.toNat → s.opS k (.reg n) = (some (vget s.cx.s n.toNat), s)) ∧
      (s.cx.inh = true → n.toNat < 8 → s.opS k (.reg n) = (some (vget s.cx.h n.toNat), s))) ∧
    (∀ n : BitVec 6, s.cx.pendChk = true → s.cx.pending (.v n) = true → s.opV k (.reg n) = (none, s.fail k 0x23)) ∧
    (∀ n : BitVec 3,
      ((s.ck.latch n.toNat).valid = true →
        s.opS k (.latch n) = (some ((s.ck.latch n.toNat).value.setWidth 64), s) ∧
        s.opV k (.latch n) = (some (s.ck.latch n.toNat).value, s)) ∧
      ((s.ck.latch n.toNat).valid = false →
        s.opS k (.latch n) = (none, s.latchMiss k) ∧ s.opV k (.latch n) = (none, s.latchMiss k))) ∧
    ((∀ e ∈ s.cx.lq, e.popped = true) → s.opS k .pop = (none, s.fail k 0x43)) ∧
    (∀ e l1 l2, s.cx.lq = l1 ++ e :: l2 → (∀ d ∈ l1, d.popped = true) → e.popped = false →
      let t := s.modCx (fun t => { t with lq := l1 ++ { e with popped := true } :: l2 })
      (e.missing ≠ 0 → s.opV k .pop = (none, t.blockOn 1 (.entry e.seq))) ∧
      (∀ f, e.missing = 0 → e.fault = some f → s.opV k .pop = (none, t.fail k f)) ∧
      (e.missing = 0 → e.fault = none → s.opV k .pop = (some e.data, t) ∧
        s.opS k .pop = (some (e.data.setWidth 64), t)))

/-- R193, R194. A result is sent to its destination, or with W to none, for the cycle that lies its latency after the read.
When the results that are due land, a register takes the value of the last of them that names it and otherwise stays, the
latch of each slot takes its last result, and the results that are not due stay in flight. So it is for the scalar, vector,
predicate and handler registers and the shape; a scale register takes its byte of the last scale load that starts at it or
below it (R364). -/
def Obligations.ResultsLandInOrder : Prop :=
  (∀ (s : State) (k : Slot) (d : Dest) (lat : Nat) (x : Row) (w : Bool),
    (s.write k d lat x w).cx.inflight = insertResult s.cx.inflight
      ⟨k, if w then .none else d, s.issue.issued, s.issue.cc + lat, x⟩) ∧
  (∀ (k : Core) (x cc : Nat),
    let due := (k.ctx x).inflight.filter (fun r => r.lands ≤ cc)
    let t := (k.landDue x cc).ctx x
    let last (p : Result → Bool) := due.reverse.find? p
    t.inflight = (k.ctx x).inflight.filter (fun r => cc < r.lands) ∧
    (∀ n : BitVec 6, vget t.s n.toNat =
      ((last (fun r => r.dest == .s n)).map (fun r => r.value.setWidth 64)).getD (vget (k.ctx x).s n.toNat)) ∧
    (∀ n : BitVec 6, vget t.v n.toNat = ((last (fun r => r.dest == .v n)).map (·.value)).getD (vget (k.ctx x).v n.toNat)) ∧
    (∀ n : BitVec 3, vget t.q n.toNat =
      ((last (fun r => r.dest == .q n)).map (fun r => r.value.setWidth 64)).getD (vget (k.ctx x).q n.toNat)) ∧
    (∀ n : BitVec 3, vget t.h n.toNat =
      ((last (fun r => r.dest == .h n)).map (fun r => r.value.setWidth 64)).getD (vget (k.ctx x).h n.toNat)) ∧
    t.shp = ((last (fun r => r.dest == .shp)).map (fun r => r.value.setWidth 3)).getD (k.ctx x).shp ∧
    (∀ n : BitVec 4, vget t.sc n.toNat =
      ((last (fun r => match r.dest with
        | .sc first => first ≤ n
        | _ => false)).map (fun r => match r.dest with
        | .sc first => BitVec.ofNat 8 (r.value.toNat / 2 ^ (8 * (n.toNat - first.toNat)))
        | _ => 0)).getD (vget (k.ctx x).sc n.toNat)) ∧
    (∀ n, n < 8 → (k.landDue x cc).latch n =
      ((last (fun r => r.slot.num == n)).map (fun r => ⟨r.value, true⟩)).getD (k.latch n)) ∧
    t.pc = (k.ctx x).pc ∧ t.mode = (k.ctx x).mode ∧ t.fpflags = (k.ctx x).fpflags ∧
    ∀ b, (k.landDue x cc).buf b = k.buf b)

/-- R195, R197, R199, R213, R344, R392, R397. A bundle in which a slot faults has no effect but the floating-point events
recorded with it, and the fault reported is that of its lowest-numbered faulting slot, before a failing due check and a block;
0x42 of a latch that its restart has left invalid is one of them, and so is 0x21 of a macro into whose operand groups its own
bundle writes. A bundle that only blocks leaves its context blocked with the condition and the core idle. -/
def Sys2Proof.Rule.BundleOutcomes : Prop :=
  ∀ (s0 s : State) (c x : Nat) (b : Bundle), s.issue.misses = [] → s.issue.reads = [] →
    let late := s.lateFaults c x (s0.ctxOf c x)
    (∀ p, p ∈ late ↔
      (p = (5, 0x21) ∧ ∃ w ∈ (s.ctxOf c x).localWrites, w.issued = s.issue.cc ∧
        ∃ r ∈ s.issue.macroRows, r.1 = w.buf ∧ r.2 / groupRows r.1 = w.row / groupRows w.buf) ∨
      (∃ slot, s.issue.latch = some slot ∧ (s0.ctxOf c x).pc ∈ (s0.ctxOf c x).latched ∧ p = (slot, 0x42))) ∧
    (∀ l1 slot code l2, s.issue.faults ++ late = l1 ++ (slot, code) :: l2 → (∀ p ∈ l1, slot < p.1) → (∀ p ∈ l2, slot ≤ p.1) →
      code < 0x100 →
      s0.bundleOutcome s c x b =
        (s0.modCtx c x (fun t => s.issue.events.foldl (fun t e => t.raise e.1 e.2 t.pc) t)).takeFault c x code slot
          (s0.ctxOf c x).pc) ∧
    (s.issue.faults = [] → late = [] → (s0.ctxOf c x).pendingFault = none → (s0.ctxOf c x).due = [] → s.issue.latch = none →
      s.issue.handler = false →
      (∀ code on, s.issue.block = some code → s.issue.blockOn = on →
        ∃ t, s0.bundleOutcome s c x b = t ∧ (t.ctxOf c x).mode = .blocked ∧ (t.ctxOf c x).block = code ∧
          (t.ctxOf c x).wakeOn = on ∧ (t.ctxOf c x).pc = (s0.ctxOf c x).pc ∧ (t.ctxOf c x).lq = (s0.ctxOf c x).lq ∧
          (t.ctxOf c x).sq = (s0.ctxOf c x).sq ∧ (t.core c).cur = none ∧ ∀ n, ((t.core c).latch n).valid = false) ∧
      (s.issue.block = none → s0.bundleOutcome s c x b = s0.commitBundle s c x b))

/-- R111, R198, R202. The commit of a held region releases the pops listed, makes the loads issued before its bound permanent
and commits the stores issued before it, and changes nothing else. A bundle that commits its region after itself, as exit
does, makes the next bundle the restart point, with the copies of the registers; one marked as a restart point commits what
was held before it and keeps its own entries held; a plain bundle commits none. A translation that faults or misses leaves the
bundle without effect. -/
def Sys2Proof.Rule.RestartPointsCommitTheRegion : Prop :=
  (∀ (s u : State) (c x bound : Nat) (pops : List Nat), s.commitHeld c x bound pops = .done u →
    let t := s.ctxOf c x
    let v := u.ctxOf c x
    v.lq = (t.lq.filter (fun e => !pops.contains e.seq)).map (fun e => if e.seq < bound then { e with held := false } else e) ∧
    v.sq.map (fun e => (e.seq, e.op, e.addr, e.data)) = t.sq.map (fun e => (e.seq, e.op, e.addr, e.data)) ∧
    (∀ e ∈ v.sq, e.seq < bound → e.status ≠ .held) ∧ (∀ e ∈ t.sq, bound ≤ e.seq → e ∈ v.sq) ∧
    v = { t with lq := v.lq, sq := v.sq } ∧ u = { s with cores := u.cores } ∧ (∀ c', c' ≠ c → u.core c' = s.core c') ∧
    ∀ x', x' % 4 ≠ x % 4 → u.ctxOf c x' = s.ctxOf c x') ∧
  (∀ (s0 s : State) (c x : Nat) (b : Bundle), s.issue.core = c → s.issue.ctx = x → s.issue.exits = false →
    s.issue.yields = false →
    let t0 := s0.ctxOf c x
    let v := (s0.commitBundle s c x b).ctxOf c x
    let region := if s.issue.after then s.commitHeld c x (s.ctxOf c x).seq (s.ctxOf c x).heldPops
      else s.commitHeld c x t0.seq t0.heldPops
    (∀ u, region = .done u →
      (s.issue.after = true → v.lq = (u.ctxOf c x).lq ∧ v.sq = (u.ctxOf c x).sq ∧ v.atRestart = true ∧ v.patient = false ∧
        v.restart.pc = v.pc ∧ v.restart.g = v.g ∧ v.restart.lpc = v.lpc) ∧
      (s.issue.after = false → s.issue.mark = true → t0.atRestart = false → v.lq = (u.ctxOf c x).lq ∧
        v.sq = (u.ctxOf c x).sq ∧ v.patient = false ∧ v.restart.pc = t0.pc ∧ v.restart.g = t0.g ∧ v.restart.lpc = t0.lpc)) ∧
    (s.issue.after = false → s.issue.mark = false → v.lq = (s.ctxOf c x).lq ∧ v.sq = (s.ctxOf c x).sq ∧
      v.restart = (s.ctxOf c x).restart) ∧
    (s.issue.after = true ∨ s.issue.mark = true →
      (∀ code, region = .fault code → s0.commitBundle s c x b = s0.faultAt c x code 0 t0.pc) ∧
      (∀ l, region = .miss l → s0.commitBundle s c x b = s0.stall c l)))

/-- A faulting bundle reports its lowest slot without effect; a blocking one blocks; a restart point commits the held region. -/
def Obligations.ABundleCommitsAsAWhole : Prop :=
  Rule.BundleOutcomes ∧ Rule.RestartPointsCommitTheRegion

/-- R165, R207, R208. Taking a fault kills the context: its held stores, results in flight and iterations go; its launch's
first fault gives FCODE, FCORE, FCTX and FADDR; under FAULTPOL = 0 every other context of the launch on every core is killed
too, idle ones included, and loses the same, none of its contexts stays saved, and the launch drains with status 3 (FAULTED), a
cancelled one too; that any other status stays is the model's reading (log 25, DEDUCED). Under FAULTPOL = 1 no other context is
killed. -/
def Obligations.TakingAFaultKillsTheContext : Prop :=
  ∀ (s : State) (c x code slot faddr : Nat), ∃ t, s.takeFault c x code slot faddr = t ∧
    (t.ctxOf c x).mode = .killed ∧ (∀ e ∈ (t.ctxOf c x).sq, e.status ≠ .held) ∧ (t.ctxOf c x).inflight = [] ∧
    (t.ctxOf c x).lq = [] ∧ (t.ctxOf c x).iteration = none ∧ (t.ctxOf c x).nextIteration = none ∧
    (∀ key l, (s.ctxOf c x).launch = some key → s.launch? (some key) = some l → code ≠ 0 →
      ∃ l', t.launch? (some key) = some l' ∧
        (l.fcode = 0 → l'.fcode = code ∧ l'.fcore = c ∧ l'.fctx = x ∧ l'.faddr = faddr) ∧
        (l.fcode ≠ 0 → l'.fcode = l.fcode ∧ l'.faddr = l.faddr) ∧
        (l.faultPol = 0 → l'.status = (if l.status = 0 ∨ l.status = 2 then 3 else l.status) ∧
          (l.state ≠ .retired → l'.state = .draining) ∧
          (∀ c' x', (s.ctxOf c' x').launch = some key → (t.ctxOf c' x').mode = .killed ∧
            ((s.ctxOf c' x').mode ≠ .killed → (t.ctxOf c' x').iteration = none ∧ (t.ctxOf c' x').nextIteration = none ∧
              (t.ctxOf c' x').inflight = [] ∧ (t.ctxOf c' x').lq = [] ∧ ∀ e ∈ (t.ctxOf c' x').sq, e.status ≠ .held)) ∧
          (∀ c', ∀ v ∈ (t.core c').saved, v.ctx.launch ≠ some key)) ∧
        (l.faultPol = 1 → l'.status = l.status ∧ l'.state = l.state ∧ l'.killed = min 0xFFFF (l.killed + 1) ∧
          ∀ c' x', c' ≠ c ∨ x' % 4 ≠ x % 4 → (t.ctxOf c' x').mode = (s.ctxOf c' x').mode))

/-- What a slot operation leaves: nothing of the package changes but cores and the notes of the bundle, no other context
changes, every byte of device memory and of every local buffer reads as before, and the issuing context keeps its registers,
its flags, its mode and its place. A result reaches its register when it lands. -/
def Obligations.SlotOperationsChangeNoRegisterAndNoByte : Prop :=
  ∀ (i : Instr) (s t : State), i.slot? ≠ none → exec i s = .next t → SlotFrame s t ∧
    ((∀ due a, i ≠ .cp due a) → (∀ due, i ≠ .cpadv due) →
      ∀ x, x % 4 ≠ s.issue.ctx % 4 → t.ctxOf s.issue.core x = s.ctxOf s.issue.core x)

/-- What an operation that touches registers alone leaves: beside the results in flight and the popped entries, nothing. -/
def Obligations.RegisterOperationsChangeNothingElse : Prop :=
  ∀ (i : Instr) (s t : State), Machine.registerOnly i = true → exec i s = .next t → RegisterFrame s t

/-- What the steps of other agents leave. One that stores to no memory changes no byte of device memory or of a local buffer,
and one that reads memory changes none while no migration is active, whose block it may have copied first (R94); one that acts
outside the cores changes no core; one of a core's own contexts, engines, channels or queues changes nothing but that core. -/
def Obligations.StepsOfOtherAgentsStayInTheirPlace : Prop :=
  ∀ (i : Instr) (s t : State), exec i s = .next t →
    (storesNothing i = true ∨ (readsMemory i = true ∧ s.mem.migActive = false) →
      (∀ a, Memory.readByte t.mem.mem a = Memory.readByte s.mem.mem a) ∧
      ∀ c b a, Memory.readByte ((t.core c).buf b) a = Memory.readByte ((s.core c).buf b) a) ∧
    (leavesCores i = true → t.cores = s.cores) ∧
    (∀ c, ownCore i = some c → t = { s with cores := t.cores } ∧ ∀ c', c' ≠ c → t.core c' = s.core c')

/-- R313. Each operation sends r, computed from x and y, to s_dst with latency 1; a shift counts by y mod 64. A word of
these operations whose fn is not 0 is refused with 0xA1. -/
def Sys2Proof.Rule.ScalarTwoSourceResults : Prop :=
  (∀ (f : SR) (s s1 s2 : State) (x y : Word),
    s.opS f.slot f.a = (some x, s1) → s1.opS f.slot f.b = (some y, s2) →
    let gives (i : Instr) (P : Word → Prop) := GivesScalar (exec i s) s2 f.slot f.dst 1 P
    let k := y.toNat % 64
    gives (.add f) (fun r => r.toNat = (x.toNat + y.toNat) % 2 ^ 64) ∧
    gives (.sub f) (fun r => r.toNat = (2 ^ 64 + x.toNat - y.toNat) % 2 ^ 64) ∧
    gives (.and f) (fun r => ∀ i, r.getLsbD i = (x.getLsbD i && y.getLsbD i)) ∧
    gives (.or f) (fun r => ∀ i, r.getLsbD i = (x.getLsbD i || y.getLsbD i)) ∧
    gives (.xor f) (fun r => ∀ i, r.getLsbD i = (x.getLsbD i != y.getLsbD i)) ∧
    gives (.andn f) (fun r => ∀ i, i < 64 → r.getLsbD i = (x.getLsbD i && !y.getLsbD i)) ∧
    gives (.sll f) (fun r => r.toNat = x.toNat * 2 ^ k % 2 ^ 64) ∧
    gives (.srl f) (fun r => r.toNat = x.toNat / 2 ^ k) ∧
    gives (.sra f) (fun r => r.toInt = x.toInt / 2 ^ k) ∧
    gives (.rol f) (fun r => r.toNat = x.toNat * 2 ^ k % 2 ^ 64 ||| x.toNat / 2 ^ (64 - k)) ∧
    gives (.min f) (fun r => r.toInt = min x.toInt y.toInt) ∧
    gives (.max f) (fun r => r.toInt = max x.toInt y.toInt) ∧
    gives (.minn f) (fun r => r.toNat = min x.toNat y.toNat) ∧
    gives (.maxn f) (fun r => r.toNat = max x.toNat y.toNat)) ∧
  (∀ (k : Slot) (w : SlotWord), k.isS = true → 1 ≤ Decode.fld w.toNat 25 6 → Decode.fld w.toNat 25 6 ≤ 0x0E →
    Decode.fld w.toNat 0 5 ≠ 0 → decodeSlot k w = .bad 0xA1)

/-- R314. Each operation sends r, computed from x and the immediate sign-extended from bit 11, to s_dst with latency 1; a
shift counts by its immediate, and a shift word whose immediate is 64 or more is refused with 0xA1. -/
def Sys2Proof.Rule.ScalarImmediateResults : Prop :=
  (∀ (f : SI) (s s1 : State) (x : Word), s.opS f.slot f.a = (some x, s1) →
    let gives (i : Instr) (P : Word → Prop) := GivesScalar (exec i s) s1 f.slot f.dst 1 P
    let i : Int := f.imm.toInt
    let u : Word := BitVec.ofInt 64 i
    gives (.addi f) (fun r => (r.toNat : Int) = (x.toNat + i) % 2 ^ 64) ∧
    gives (.andi f) (fun r => ∀ n, r.getLsbD n = (x.getLsbD n && u.getLsbD n)) ∧
    gives (.ori f) (fun r => ∀ n, r.getLsbD n = (x.getLsbD n || u.getLsbD n)) ∧
    gives (.xori f) (fun r => ∀ n, r.getLsbD n = (x.getLsbD n != u.getLsbD n)) ∧
    gives (.slti f) (fun r => r = if x.toInt < i then 1 else 0) ∧
    gives (.sltni f) (fun r => r = if (x.toNat : Int) < i % 2 ^ 64 then 1 else 0) ∧
    gives (.seqi f) (fun r => r = if (x.toNat : Int) = i % 2 ^ 64 then 1 else 0)) ∧
  (∀ (f : SH) (s s1 : State) (x : Word), s.opS f.slot f.a = (some x, s1) →
    let gives (i : Instr) (P : Word → Prop) := GivesScalar (exec i s) s1 f.slot f.dst 1 P
    gives (.slli f) (fun r => r.toNat = x.toNat * 2 ^ f.imm.toNat % 2 ^ 64) ∧
    gives (.srli f) (fun r => r.toNat = x.toNat / 2 ^ f.imm.toNat) ∧
    gives (.srai f) (fun r => r.toInt = x.toInt / 2 ^ f.imm.toNat)) ∧
  (∀ (k : Slot) (w : SlotWord), k.isS = true → 0x24 ≤ Decode.fld w.toNat 25 6 → Decode.fld w.toNat 25 6 ≤ 0x26 →
    64 ≤ Decode.fld w.toNat 0 12 → decodeSlot k w = .bad 0xA1)

/-- R315. cmp writes 1 when its condition holds and 0 otherwise; cmov writes y when x is not 0 and its destination's old
value otherwise; both with latency 1. A cmp word with fn from 6 to 31 and a cmov word with fn other than 0 are refused with
0xA1. -/
def Sys2Proof.Rule.CompareAndSelect : Prop :=
  (∀ (f : SR) (s s1 s2 : State) (x y : Word),
    s.opS f.slot f.a = (some x, s1) → s1.opS f.slot f.b = (some y, s2) →
    let one (c : Cmp) (p : Prop) [Decidable p] :=
      GivesScalar (exec (.cmpCc f c) s) s2 f.slot f.dst 1 (fun r => r = if p then 1 else 0)
    one .eq (x.toNat = y.toNat) ∧ one .ne (x.toNat ≠ y.toNat) ∧ one .lt (x.toInt < y.toInt) ∧
    one .ge (x.toInt ≥ y.toInt) ∧ one .ltn (x.toNat < y.toNat) ∧ one .gen (x.toNat ≥ y.toNat) ∧
    (∀ d s3, s2.srcS f.slot f.dst = (some d, s3) →
      GivesScalar (exec (.cmov f) s) s3 f.slot f.dst 1 (fun r => r = if x.toNat ≠ 0 then y else d))) ∧
  (∀ (k : Slot) (w : SlotWord), k.isS = true →
    (Decode.fld w.toNat 25 6 = 0x0F → 6 ≤ Decode.fld w.toNat 0 5 → decodeSlot k w = .bad 0xA1) ∧
    (Decode.fld w.toNat 25 6 = 0x10 → Decode.fld w.toNat 0 5 ≠ 0 → decodeSlot k w = .bad 0xA1))

/-- Results of the two-source, immediate, compare and select operations. -/
def Obligations.ScalarArithmeticResults : Prop :=
  Rule.ScalarTwoSourceResults ∧ Rule.ScalarImmediateResults ∧ Rule.CompareAndSelect

/-- R316. The low half of the product, and the high halves of the signed and the unsigned product, are sent with latency 3;
a nonzero fn is refused. -/
def Sys2Proof.Rule.ScalarProducts : Prop :=
  (∀ (f : SR) (s s1 s2 : State) (x y : Word),
    s.opS f.slot f.a = (some x, s1) → s1.opS f.slot f.b = (some y, s2) →
    let gives (i : Instr) (P : Word → Prop) := GivesScalar (exec i s) s2 f.slot f.dst 3 P
    gives (.mul f) (fun r => r.toNat = x.toNat * y.toNat % 2 ^ 64 ∧ r = BitVec.ofInt 64 (x.toInt * y.toInt)) ∧
    gives (.mulh f) (fun r => r.toInt = x.toInt * y.toInt / 2 ^ 64) ∧
    gives (.mulhn f) (fun r => r.toNat = x.toNat * y.toNat / 2 ^ 64)) ∧
  (∀ (k : Slot) (w : SlotWord), k.isS = true → 0x11 ≤ Decode.fld w.toNat 25 6 → Decode.fld w.toNat 25 6 ≤ 0x13 →
    Decode.fld w.toNat 0 5 ≠ 0 → decodeSlot k w = .bad 0xA1)

/-- R317. A zero divisor raises 0x66 when fpflags.INTDZ is 1, and otherwise gives the quotient 2^64 - 1 and the remainder x;
-2^63 / -1 wraps; every other quotient truncates toward zero. The latency is 12, and a nonzero fn is refused. -/
def Sys2Proof.Rule.ScalarQuotients : Prop :=
  (∀ (f : SR) (s s1 s2 : State) (x y : Word),
    s.opS f.slot f.a = (some x, s1) → s1.opS f.slot f.b = (some y, s2) →
    let gives (i : Instr) (P : Word → Prop) := GivesScalar (exec i s) s2 f.slot f.dst 12 P
    (y = 0 ∧ s2.cx.fpflags.getLsbD 45 = true → ∀ i ∈ [Instr.div f, .divn f, .rem f, .remn f],
      exec i s = .next (s2.fail f.slot 0x66)) ∧
    (y = 0 ∧ s2.cx.fpflags.getLsbD 45 = false →
      gives (.div f) (fun r => r.toNat = 2 ^ 64 - 1) ∧ gives (.divn f) (fun r => r.toNat = 2 ^ 64 - 1) ∧
      gives (.rem f) (fun r => r = x) ∧ gives (.remn f) (fun r => r = x)) ∧
    (y ≠ 0 →
      gives (.divn f) (fun r => r.toNat = x.toNat / y.toNat) ∧
      gives (.remn f) (fun r => r.toNat = x.toNat % y.toNat) ∧
      (x.toInt = -2 ^ 63 ∧ y.toInt = -1 →
        gives (.div f) (fun r => r.toNat = 2 ^ 63) ∧ gives (.rem f) (fun r => r = 0)) ∧
      (¬ (x.toInt = -2 ^ 63 ∧ y.toInt = -1) →
        gives (.div f) (fun r => r.toInt = Int.tdiv x.toInt y.toInt) ∧
        gives (.rem f) (fun r => r.toInt = Int.tmod x.toInt y.toInt)))) ∧
  (∀ (k : Slot) (w : SlotWord), k.isS = true → 0x14 ≤ Decode.fld w.toNat 25 6 → Decode.fld w.toNat 25 6 ≤ 0x17 →
    Decode.fld w.toNat 0 5 ≠ 0 → decodeSlot k w = .bad 0xA1)

/-- Products and quotients, with division by zero and overflow. -/
def Obligations.ScalarProductsAndQuotients : Prop :=
  Rule.ScalarProducts ∧ Rule.ScalarQuotients

/-- R318. Counting zeros and ones, reversing, extracting and inserting a bit field, each with latency 1; a
word of a one-source operation whose b is not 73 is refused with 0xA1. -/
def Sys2Proof.Rule.BitManipulation : Prop :=
  (∀ (f : SU) (s s1 : State) (x : Word), s.opS f.slot f.a = (some x, s1) →
    let gives (i : Instr) (P : Word → Prop) := GivesScalar (exec i s) s1 f.slot f.dst 1 P
    gives (.clz f) (fun r => (x = 0 ∧ r.toNat = 64) ∨
      (r.toNat < 64 ∧ x.getLsbD (63 - r.toNat) = true ∧ ∀ i, 63 - r.toNat < i → x.getLsbD i = false)) ∧
    gives (.ctz f) (fun r => (x = 0 ∧ r.toNat = 64) ∨
      (r.toNat < 64 ∧ x.getLsbD r.toNat = true ∧ ∀ i, i < r.toNat → x.getLsbD i = false)) ∧
    gives (.popc f) (fun r => r.toNat = ((List.range 64).filter (fun i => x.getLsbD i)).length) ∧
    gives (.brev f) (fun r => ∀ i, i < 64 → r.getLsbD i = x.getLsbD (63 - i))) ∧
  (∀ (f : SR) (fn : BitVec 5) (s s1 s2 : State) (x y : Word),
    s.opS f.slot f.a = (some x, s1) → s1.opS f.slot f.b = (some y, s2) →
    let w := fn.toNat + 1
    let p := y.toNat % 64
    GivesScalar (exec (.bfx f fn) s) s2 f.slot f.dst 1 (fun r => r.toNat = x.toNat / 2 ^ p % 2 ^ w) ∧
    (∀ d s3, s2.srcS f.slot f.dst = (some d, s3) →
      GivesScalar (exec (.bins f fn) s) s3 f.slot f.dst 1 (fun r => ∀ i, i < 64 →
        r.getLsbD i = if p ≤ i ∧ i < p + w then x.getLsbD (i - p) else d.getLsbD i))) ∧
  (∀ (k : Slot) (w : SlotWord), k.isS = true → Decode.fld w.toNat 25 6 ∈ [0x18, 0x19, 0x1A, 0x1D] →
    Decode.fld w.toNat 5 7 ≠ 73 → decodeSlot k w = .bad 0xA1)

/-- R319. movl sends its immediate sign-extended from bit 18, movh puts its immediate above bits 44:0 of the destination, ldl
sends a literal word zero-extended, each with latency 1; ldl outside the launch's literal range raises 0x76, and one with a
nonzero imm[18:14] is refused with 0xA1. ldl leaves lpc as it is. movl and then movh, with the low 19 and the high 19 bits of a
value whose bits 44:19 all equal bit 18, give that value. -/
def Sys2Proof.Rule.ConstantsAndLiterals : Prop :=
  (∀ (f : SL) (s : State),
    GivesScalar (exec (.movl f) s) s f.slot f.dst 1 (fun r => r.toInt = f.imm.toInt) ∧
    (∀ d s1, s.srcS f.slot f.dst = (some d, s1) →
      GivesScalar (exec (.movh f) s) s1 f.slot f.dst 1 (fun r => r.toNat = f.imm.toNat * 2 ^ 45 + d.toNat % 2 ^ 45))) ∧
  (∀ (v : Word), (∀ i, 19 ≤ i → i ≤ 44 → v.getLsbD i = v.getLsbD 18) →
    ∀ (k k' : Slot) (h h' : Bool) (dst : BitVec 6) (s : State),
      ∃ r, exec (.movl ⟨k, h, dst, v.setWidth 19⟩) s = .next (s.writeS k dst 1 r) ∧
        ∀ s1 s2 : State, s1.srcS k' dst = (some r, s2) →
          exec (.movh ⟨k', h', dst, (v >>> 45).setWidth 19⟩) s1 = .next (s2.writeS k' dst 1 v)) ∧
  (∀ (k : Slot) (h : Bool) (dst : BitVec 6) (idx : BitVec 14) (s : State) (l : Launch), s.cl = some l →
    (l.litBase ≤ idx.toNat ∧ idx.toNat < l.litBase + l.litLen → s.ck.badLmem.contains idx.toNat = false →
      GivesScalar (exec (.ldl k h dst idx) s) s k dst 1 (fun r => r.toNat = (Assoc.get s.ck.lmem idx.toNat 0).toNat)) ∧
    (¬ (l.litBase ≤ idx.toNat ∧ idx.toNat < l.litBase + l.litLen) →
      exec (.ldl k h dst idx) s = .next (s.fail k 0x76))) ∧
  (∀ (k : Slot) (w : SlotWord), k.isS = true → Decode.fld w.toNat 25 6 = 0x2C → Decode.fld w.toNat 14 5 ≠ 0 →
    decodeSlot k w = .bad 0xA1)

/-- Bit manipulation, constants and literal words. -/
def Obligations.BitFieldsConstantsAndLiterals : Prop :=
  Rule.BitManipulation ∧ Rule.ConstantsAndLiterals

/-- R321 to R323. A taken transfer notes its target: the branch's own index plus off, which is no bundle of an image where it
lies below 0 or past the instruction memory, an absolute index, or x[13:0]; one that is not taken notes nothing. loop also
sends s_n - 1 with latency 1, and call its own index + 2 with latency 2. -/
def Sys2Proof.Rule.TransfersNoteTheirTargets : Prop :=
  (∀ (c : BrCond) (a : Sel) (off : BitVec 15) (s s1 : State) (x : Word), s.opS .s0 a = (some x, s1) →
    let taken := match c with
      | .always => True
      | .z => x.toNat = 0
      | .nz => x.toNat ≠ 0
      | .lt => x.toInt < 0
      | .ge => 0 ≤ x.toInt
    (taken → ∃ t, exec (.brCc c a off) s = .next (s1.note (fun r => { r with transfer := some t })) ∧
      (t : Int) = (s1.issue.pc + off.toInt) % 2 ^ 64) ∧
    (¬ taken → exec (.brCc c a off) s = .next s1)) ∧
  (∀ (n : BitVec 6) (off : BitVec 15) (s s1 : State) (x : Word), s.srcS .s0 n = (some x, s1) →
    (x.toNat = 1 → exec (.loop n off) s = .next (s1.writeS .s0 n 1 0)) ∧
    (x.toNat ≠ 1 → ∃ v t, exec (.loop n off) s =
        .next ((s1.writeS .s0 n 1 v).note (fun r => { r with transfer := some t })) ∧
      v.toNat = (x.toNat + (2 ^ 64 - 1)) % 2 ^ 64 ∧ (t : Int) = (s1.issue.pc + off.toInt) % 2 ^ 64)) ∧
  (∀ (dst : BitVec 6) (target : BitVec 14) (s : State), exec (.call dst target) s =
    .next ((s.writeS .s0 dst 2 (BitVec.ofNat 64 (s.issue.pc + 2))).note
      (fun r => { r with transfer := some target.toNat }))) ∧
  (∀ (a : Sel) (s s1 : State) (x : Word), s.opS .s0 a = (some x, s1) →
    exec (.jr a) s = .next (s1.note (fun r => { r with transfer := some (x.toNat % 2 ^ 14) })))

/-- R320. The bundle after a taken transfer is the one whose index follows, unless an earlier transfer names it; the one
after that is the target. A transfer that is not taken leaves the sequential order. An index past the image is reached as it
is, so that its bundle raises 0xA5 and no other bundle issues in its place. -/
def Sys2Proof.Rule.TransfersTakeEffectAfterOneBundle : Prop :=
  ∀ (t : Context) (target target2 : Nat),
    (t.redirect = none → (t.advancePc none).pc = t.pc + 1 ∧ (t.advancePc none).redirect = none) ∧
    (t.redirect = none →
      (t.advancePc (some target)).pc = t.pc + 1 ∧
      ((t.advancePc (some target)).advancePc none).pc = target ∧
      (((t.advancePc (some target)).advancePc none).advancePc none).pc = target + 1 ∧
      ((t.advancePc (some target)).advancePc (some target2)).pc = target ∧
      (((t.advancePc (some target)).advancePc (some target2)).advancePc none).pc = target2) ∧
    (t.advancePc none).cc = t.cc + 1

/-- Transfers note their targets and take effect after one delay bundle. -/
def Obligations.TransfersOfControl : Prop :=
  Rule.TransfersNoteTheirTargets ∧ Rule.TransfersTakeEffectAfterOneBundle

/-- R325 to R328. exit, yield and uret note what their bundle's commit does: exit, and uret in a handler, commit the held
region with their bundle, and uret outside a handler makes its bundle a restart point and nothing else; a trap is a kind-K
fault of slot 0 with its code. -/
def Sys2Proof.Rule.ExitYieldTrapUret : Prop :=
  ∀ (s : State) (num : BitVec 12),
    exec .exit s = .next { s with issue := { s.issue with exits := true, after := true } } ∧
    exec .yield s = .next { s with issue := { s.issue with yields := true } } ∧
    (s.cx.inh = true → exec .uret s = .next { s with issue := { s.issue with urets := true, after := true } }) ∧
    (s.cx.inh = false → exec .uret s = .next { s with issue := { s.issue with mark := true } }) ∧
    exec (.trap num) s = .next { s with issue := { s.issue with faults := s.issue.faults ++ [(0, num.toNat)] } }

/-- R202, R216, R325, R389. A committed exit counts in DONE and ends the iteration: load-queue entries are released, patient mode
ends, a handler ends with UIE := 1 and keeps h0 to h7, a pending redirect goes, and the store queue stays. The context takes its
next iteration, with its preset registers, and departs from no barrier; with none left for it, it retires and departs from every
barrier. With no pending iteration while the launch has some to hand out, it takes the one that the walker has for it at once, when
no other context waits for one (the model's choice, log 27), and is otherwise free, still of its launch and in its barriers. -/
def Sys2Proof.Rule.ExitEndsTheIteration : Prop :=
  ∀ (s : State) (c x key : Nat) (l : Launch), (s.ctxOf c x).launch = some key →
    (s.countExit key c x).launch? (some key) = some l →
    let t := s.ctxOf c x
    let v := (s.exitContext c x).ctxOf c x
    (∀ m, s.launch? (some key) = some m → l.done = m.done + 1) ∧
    (∀ i, t.nextIteration = some i →
      v.mode = .issuing ∧ v.lq = [] ∧ v.sq = t.sq ∧ v.patient = false ∧ v.inh = false ∧ v.h = t.h ∧ v.redirect = none ∧
      v.uctl = (if t.inh then t.uctl ||| 2#64 else t.uctl) ∧ v.part = t.part ∧ v.inflight = t.inflight ∧
      v.nextIteration = none ∧ v.iteration = some (i.n, i.slot) ∧ v.pc = l.imgBase + l.f 2 45 32 ∧ v.s = i.preset t.s ∧
      v.restart.pc = v.pc ∧ v.atRestart = true) ∧
    (t.nextIteration = none → l.noneLeft c = true →
      v.mode = .free ∧ v.launch = none ∧ v.part = 0 ∧ v.lq = [] ∧ v.inflight = [] ∧ v.iteration = none ∧ v.patient = false ∧
      v.inh = false ∧ v.sq.map (fun e => (e.seq, e.op, e.status, e.addr, e.data)) =
        t.sq.map (fun e => (e.seq, e.op, e.status, e.addr, e.data))) ∧
    (t.nextIteration = none → l.noneLeft c = false →
      let u := ((s.countExit key c x).modCtx c x (fun t => { t.endIteration with freeAt := s.cycle })).modCtx c x
        (fun t => { t with mode := .free })
      let alone := (u.launchContexts key).all (fun p => !p.2.2.idle || (p.1 == c && p.2.1 == x))
      (∀ u', alone = true → u.walk1 key true = some u' → (u'.ctxOf c x).mode = .ready →
        v = { u'.ctxOf c x with mode := .issuing }) ∧
      (alone = false ∨ (∀ u', u.walk1 key true = some u' → (u'.ctxOf c x).mode ≠ .ready) → v.mode = .free ∧ v.launch = some key ∧ v.iteration = none ∧
        v.nextIteration = none ∧ v.lq = [] ∧ v.part = t.part ∧ v.freeAt = s.cycle ∧ v.inflight = [] ∧ v.patient = false ∧
        v.inh = false ∧ v.sq = t.sq ∧ ((s.exitContext c x).core c).cur = none))

/-- R294, R308. idle and a hint change nothing at all, whatever a hint's bits hold; kmark marks its bundle as a restart
point. -/
def Sys2Proof.Rule.NoOperations : Prop :=
  ∀ (s : State) (k : Slot) (h : Bool) (bits : BitVec 25),
    exec (.idle k) s = .next s ∧ exec (.hint k h bits) s = .next s ∧
    exec (.kmark k) s = .next { s with issue := { s.issue with mark := true } }

/-- exit, yield, uret, trap, idle, hint and kmark: what each leaves for its bundle's end, and what a committed exit does. -/
def Obligations.EndsOfIterationsTrapsAndNoOperations : Prop :=
  Rule.ExitYieldTrapUret ∧ Rule.ExitEndsTheIteration ∧ Rule.NoOperations

/-- R295, R296. A rep without a hold record raises 0xA3, and one with an instance that does not decode raises 0xA1. Otherwise
CNT + 1 instances read one latency apart, the first in the bundle's own cycle or when the held word's last instance is
visible; the hold record takes the last word, visible one latency after its read; an instance that reads later waits. -/
def Sys2Proof.Rule.RepChainsItsInstances : Prop :=
  ∀ (k : Slot) (cnt : BitVec 4) (dd da db : BitVec 2) (s : State),
    (vget s.cx.holds k.num = none → exec (.rep k cnt dd da db) s = .next (s.fail k 0xA3)) ∧
    (∀ h, vget s.cx.holds k.num = some h →
      (repWords k dd.toNat da.toNat db.toNat (cnt.toNat + 1) h.word = none →
        exec (.rep k cnt dd da db) s = .next (s.fail k 0xA1)) ∧
      (∀ l, repWords k dd.toNat da.toNat db.toNat (cnt.toNat + 1) h.word = some l →
        let now := h.visible ≤ s.issue.cc
        let first := max s.issue.cc h.visible
        ∃ t, exec (.rep k cnt dd da db) s = .next (if now then runInstance k (l.headD h.word) t else t) ∧
          l.length = cnt.toNat + 1 ∧
          vget t.cx.holds k.num = some ⟨l.getLastD h.word, first + holdLatency k h.word * (cnt.toNat + 1), false⟩ ∧
          (t.cx.chain.drop s.cx.chain.length).map (fun p => (p.instr, p.readAt)) =
            (l.zip ((List.range (cnt.toNat + 1)).map (fun i => first + holdLatency k h.word * i))).drop
              (if now then 1 else 0) ∧
          t.cx.chain.take s.cx.chain.length = s.cx.chain))

/-- R296. A rep instance that is due reads its sources in its own cycle, and leaves the issue notes as they were. -/
def Sys2Proof.Rule.RepInstancesRunInTheirCycle : Prop :=
  ∀ (c x : Nat) (s : State) (p : Pending), (s.ctxOf c x).dueInstance = some p → (s.core c).cur = some x →
    ∃ u, u.issue = { IssueRec.reset with core := c, ctx := x, pc := p.pc, cc := p.readAt, issued := p.issued } ∧
      u.cx.chain = (s.ctxOf c x).chain.erase p ∧
      exec (.repInstance c x p.slot.num) s = .next
        { (runInstance p.slot p.instr u).modCtx c x (fun t => t.endInstance p (runInstance p.slot p.instr u).issue) with
          issue := s.issue }

/-- rep chains its instances one latency apart, and each runs in its own cycle. -/
def Obligations.RepChains : Prop :=
  Rule.RepChainsItsInstances ∧ Rule.RepInstancesRunInTheirCycle

/-- R185, R214, R228, R272, R282, R285, R329, R331, R332. srd sends a status register with latency 2: flags, interrupt registers,
shape, literal counter, generator, the registers of coverage, of the sequencer and of each channel, the cycle counters, reference
ticks, the places in the package and in the launch, the slate, and the pattern, codebook and scale registers. -/
def Sys2Proof.Rule.StatusRegisterReads : Prop :=
  ∀ (k : Slot) (dst : BitVec 6) (s : State),
    let gives (n : BitVec 12) (P : Word → Prop) := GivesScalar (exec (.srd k dst n) s) s k dst 2 P
    gives 0x001 (fun r => r = s.cx.fpflags) ∧ gives 0x002 (fun r => r = s.cx.fpfirst) ∧
    gives 0x003 (fun r => r = s.cx.uctl) ∧ gives 0x004 (fun r => r.toNat = s.cx.uip.toNat) ∧
    gives 0x006 (fun r => r.toNat = s.cx.shp.toNat) ∧ gives 0x007 (fun r => r.toNat = s.cx.lpc.toNat) ∧
    gives 0x008 (fun r => r.toNat = s.cx.g.toNat) ∧ gives 0x014 (fun r => r = s.cx.gfrec) ∧
    (∀ l c, s.cl = some l → l.cov = some c →
      gives 0x010 (fun r => r.toNat =
        (l.f 48 12 9 * 2 ^ 48 + l.f 48 30 22 * 2 ^ 32 + l.f 48 21 13 * 2 ^ 16 + c.f) % 2 ^ 64) ∧
      gives 0x011 (fun r => r.toNat = (c.accum * 2 ^ 32 + c.lasterr) % 2 ^ 64) ∧
      gives 0x012 (fun r => r.toNat =
        (c.ncmp * 2 ^ 48 + c.since * 2 ^ 32 + l.f 49 15 0 * 2 ^ 16 + l.f 48 39 31) % 2 ^ 64)) ∧
    (s.cl.bind (·.cov) = none →
      gives 0x010 (fun r => r = 0) ∧ gives 0x011 (fun r => r = 0) ∧ gives 0x012 (fun r => r = 0)) ∧
    gives 0x013 (fun r => r = s.ck.seqst) ∧
    (∀ i : Fin 16, let h := s.ck.chan i
      gives (0x020 + BitVec.ofNat 12 i) (fun r => r.toNat =
        ((if h.err then 2 ^ 63 else 0) + (if h.active || s.cycle < h.idleUntil then 2 ^ 62 else 0) + h.shot * 2 ^ 32
          + (match h.pendingLanded with
            | some (written, old) => if s.cycle ≤ written then old else h.landed
            | none => h.landed)) % 2 ^ 64)) ∧
    gives 0x041 (fun r => r.toNat = (s.cx.cc - s.cx.ccBase) % 2 ^ 64) ∧
    (∀ l, s.cl = some l → gives 0x044 (fun r => r.toNat =
      (l.lid.toNat * 2 ^ 32 + l.place.length * 2 ^ 16 + (l.place.takeWhile (· != s.issue.core)).length) % 2 ^ 64)) ∧
    (∀ key, s.cx.launch = some key → gives 0x045 (fun r => r.toNat = (Assoc.get s.ck.slates key 0).toNat)) ∧
    gives 0x040 (fun r => r.toNat = (s.power.cycleBase + s.cycle) % 2 ^ 64) ∧ gives 0x042 (fun r => r.toNat = s.ticks % 2 ^ 64) ∧
    gives 0x043 (fun r => r.toNat = (s.pkgId * 2 ^ 11 + s.issue.ctx * 2 ^ 9 + s.issue.core) % 2 ^ 64) ∧
    (∀ i : Fin 8, gives (0x050 + BitVec.ofNat 12 i) (fun r => r = vget s.cx.xp i)) ∧
    (∀ i : Fin 32, gives (0x060 + BitVec.ofNat 12 i) (fun r =>
      ∀ j, j < 64 → r.getLsbD j = (vget s.cx.kb (i / 4)).getLsbD (64 * (i % 4) + j))) ∧
    (∀ i : Fin 16, gives (0x080 + BitVec.ofNat 12 i) (fun r => r.toNat = (vget s.cx.sc i).toNat))

/-- R214, R285, R329, R333. Reading ucause (0x005), ctxstate (0x000, with MODE = 2) or a chst register (0x030 to 0x03F) sends
it as it stood, clears its rc field in the issue cycle, and the bundle commits its region. -/
def Sys2Proof.Rule.StatusReadsThatClear : Prop :=
  ∀ (k : Slot) (dst : BitVec 6) (s : State),
    (∃ t, exec (.srd k dst 0x005) s = .next t ∧ t.issue.after = true ∧ t.cx.ucause = 0 ∧
      t.cx.inflight = (s.writeS k dst 2 s.cx.ucause).cx.inflight) ∧
    (∃ t r, exec (.srd k dst 0x000) s = .next t ∧ t.issue.after = true ∧ t.cx.ttcount = 0 ∧
      t.cx.inflight = (s.writeS k dst 2 r).cx.inflight ∧
      r.toNat = (s.cx.ttcount * 2 ^ 48 + (if s.cx.priv then 2 ^ 15 else 0) + (if s.cx.inh then 2 ^ 14 else 0)
        + (if s.cx.patient then 2 ^ 13 else 0) + (if s.cx.guardChk then 2 ^ 12 else 0)
        + (if s.cx.pendChk then 2 ^ 11 else 0) + s.cx.block * 2 ^ 4 + 2) % 2 ^ 64) ∧
    (∀ c : Fin 16, ∃ t r, exec (.srd k dst (0x030 + BitVec.ofNat 12 c)) s = .next t ∧ t.issue.after = true ∧
      (t.ck.chan c).overrun = 0 ∧ (t.ck.chan c).code = (s.ck.chan c).code ∧
      t.cx.inflight = (s.writeS k dst 2 r).cx.inflight ∧
      r.toNat = ((s.ck.chan c).code * 2 ^ 56 + (s.ck.chan c).overrun * 2 ^ 32 + (s.ck.chan c).queue.length * 2 ^ 28)
        % 2 ^ 64)

/-- R330. swr notes its write, and its bundle commits the region; when it commits, the write changes the register by the type
of its fields: trap enables written, sticky flags and uip cleared by ones, fpfirst cleared by bit 63, the generator never 0. A
bit that hardware has set in the same core cycle stays set. -/
def Sys2Proof.Rule.StatusRegisterWrites : Prop :=
  (∀ (a : Sel) (num : BitVec 12) (s s1 : State) (x : Word), s.opS .s0 a = (some x, s1) →
    exec (.swr a num) s = .next { s1 with issue :=
      { s1.issue with writes := s1.issue.writes ++ [.status num.toNat x], after := true } }) ∧
  (∀ (t : Context) (x : Word),
    let u (n : Nat) := t.statusWrite n x
    (∀ i, i < 64 → (u 0x001).fpflags.getLsbD i =
      if 46 ≤ i then false else if 40 ≤ i then x.getLsbD i else (t.fpflags.getLsbD i && !x.getLsbD i) || t.fresh.flags.getLsbD i) ∧
    (∀ i, i < 64 → (u 0x002).fpfirst.getLsbD i = (t.fpfirst.getLsbD i && !(i == 63 && x.msb && !t.fresh.first))) ∧
    (u 0x003).uctl.toNat = x.toNat % 2 ^ 16 ∧
    (∀ i, i < 17 → (u 0x004).uip.getLsbD i = ((t.uip.getLsbD i && !x.getLsbD i) || t.fresh.uip.getLsbD i)) ∧
    (u 0x007).lpc.toNat = x.toNat % 2 ^ 14 ∧
    (u 0x008).g.toNat = (if x.toNat % 2 ^ 32 = 0 then 1 else x.toNat % 2 ^ 32) ∧
    (∀ i : Fin 8, ∀ j, j < 64 → (vget (u (0x050 + i)).xp i).getLsbD j = (x.getLsbD j && (j ≤ 10 || (16 ≤ j && j ≤ 43)))) ∧
    (∀ i : Fin 32, ∀ j, j < 64 → (vget (u (0x060 + i)).kb (i / 4)).getLsbD (64 * (i % 4) + j) = x.getLsbD j) ∧
    (∀ i : Fin 16, (vget (u (0x080 + i)).sc i).toNat = x.toNat % 2 ^ 8))

/-- Reads of status registers, reads that clear, and writes by field type. -/
def Obligations.StatusRegisters : Prop :=
  Rule.StatusRegisterReads ∧ Rule.StatusReadsThatClear ∧ Rule.StatusRegisterWrites

/-- R335 to R337. scopew and winw note their writes, or raise 0x35 and 0x1A for a malformed image; winr sends one half of a
window with latency 2. -/
def Obligations.ScopesAndWindows : Prop :=
  (∀ (e : BitVec 5) (a : Sel) (s s1 : State) (x : Row), s.opV .s0 a = (some x, s1) →
    (scopeOk (x.toNat % 2 ^ 512) = true → exec (.scopew e a) s = .next { s1 with issue :=
      { s1.issue with writes := s1.issue.writes ++ [.scope e (x.setWidth 512)], after := true } }) ∧
    (scopeOk (x.toNat % 2 ^ 512) = false → exec (.scopew e a) s = .next (s1.fail .s0 0x35))) ∧
  (∀ (w : BitVec 4) (a b : Sel) (s s1 s2 : State) (x y : Word),
    s.opS .s0 a = (some x, s1) → s1.opS .s0 b = (some y, s2) →
    let v := x.toNat + y.toNat * 2 ^ 64
    (winOk v = true → exec (.winw w a b) s = .next { s2 with issue :=
      { s2.issue with writes := s2.issue.writes ++ [.window w (BitVec.ofNat 128 v)], after := true } }) ∧
    (winOk v = false → exec (.winw w a b) s = .next (s2.fail .s0 0x1A))) ∧
  (∀ (k : Slot) (dst : BitVec 6) (w : BitVec 4) (hi : Bool) (s : State),
    GivesScalar (exec (.winr k dst w hi) s) s k dst 2 (fun r =>
      ∀ i, i < 64 → r.getLsbD i = (vget s.cx.w w.toNat).getLsbD (if hi then 64 + i else i)))

/-- R344, R347. vadd, vsub, vmul, vmin and vmax: on a floating format the exact result rounded once, with its flags; on an
integer format the wrapped result without flags. -/
def Sys2Proof.Rule.VectorArithmetic : Prop :=
  ∀ (f : VF) (s t : State) (x y : Row) (m : Word) (d : Row), s.reads2 f false x y m d t →
    let b := eb f.fmt
    let c := f.fmt.code
    let e (v : Row) (i : Nat) := elem b v.toNat i
    let z (v : Row) (i : Nat) : Int := signed b (e v i)
    let gives (i : Instr) (lat : Nat) (fl : Nat → Nat → Nat × Nat) (int : Int → Int → Int) :=
      GivesRow (exec i s) t f.slot f.w f.dst lat b m d (fun i =>
        if f.fmt.isFloat then fl (e x i) (e y i) else (((int (z x i) (z y i)) % 2 ^ b).toNat, 0))
    gives (.vadd f) 2 (fAdd c) (fun p q => p + q) ∧ gives (.vsub f) 2 (fSub c) (fun p q => p - q) ∧
    gives (.vmul f) 3 (fMul c) (fun p q => p * q) ∧
    gives (.vmin f) 2 (fMin c) (fun p q => min p q) ∧ gives (.vmax f) 2 (fMax c) (fun p q => max p q)

/-- R347. vfma and vfms round x × y + d and d - x × y once; vmac wraps d + x × y; vabs and vneg clear and invert the sign, an
integer wrapping. -/
def Sys2Proof.Rule.VectorAccumulateAndSign : Prop :=
  (∀ (f : VF) (s t : State) (x y : Row) (m : Word) (d : Row), s.reads2 f true x y m d t →
    let b := eb f.fmt
    let e (v : Row) (i : Nat) := elem b v.toNat i
    GivesRow (exec (.vfma f) s) t f.slot f.w f.dst 4 b m d (fun i => fFma f.fmt.code false (e x i) (e y i) (e d i)) ∧
    GivesRow (exec (.vfms f) s) t f.slot f.w f.dst 4 b m d (fun i => fFma f.fmt.code true (e x i) (e y i) (e d i)) ∧
    GivesRow (exec (.vmac f) s) t f.slot f.w f.dst 4 b m d (fun i => ((e d i + e x i * e y i) % 2 ^ b, 0))) ∧
  (∀ (f : VU) (s t : State) (x : Row) (m : Word) (d : Row), s.reads1 f.slot f.a f.p f.dst x m d t →
    let b := eb f.fmt
    let e (i : Nat) := elem b x.toNat i
    GivesRow (exec (.vabs f) s) t f.slot f.w f.dst 2 b m d (fun i =>
      if f.fmt.isFloat then fAbs f.fmt.code (e i) else ((signed b (e i)).natAbs % 2 ^ b, 0)) ∧
    GivesRow (exec (.vneg f) s) t f.slot f.w f.dst 2 b m d (fun i =>
      if f.fmt.isFloat then fNeg f.fmt.code (e i) else ((2 ^ b - e i) % 2 ^ b, 0)))

/-- R348. Saturating sums and differences, bitwise logic by 32-bit lanes, and shifts that give 0, or the sign, from a count of
b on; latency 2, and no flag. -/
def Sys2Proof.Rule.VectorIntegerOperations : Prop :=
  (∀ (f : VF) (s t : State) (x y : Row) (m : Word) (d : Row), s.reads2 f false x y m d t →
    let b := eb f.fmt
    let e (v : Row) (i : Nat) := elem b v.toNat i
    let z (v : Row) (i : Nat) : Int := signed b (e v i)
    let sat (v : Int) : Nat := ((min (2 ^ (b - 1) - 1) (max (-2 ^ (b - 1)) v)) % 2 ^ b).toNat
    let gives (i : Instr) (g : Nat → Nat) := GivesRow (exec i s) t f.slot f.w f.dst 2 b m d (fun i => (g i, 0))
    let bits (i : Instr) (g : Nat → Nat → Nat) := GivesRow (exec i s) t f.slot f.w f.dst 2 32 m d
      (fun i => (g (elem 32 x.toNat i) (elem 32 y.toNat i), 0))
    (f.fmt.isFloat = false →
      gives (.vadds f) (fun i => sat (z x i + z y i)) ∧ gives (.vsubs f) (fun i => sat (z x i - z y i)) ∧
      gives (.vaddsn f) (fun i => min (2 ^ b - 1) (e x i + e y i)) ∧
      gives (.vshl f) (fun i => if e y i < b then e x i * 2 ^ e y i else 0) ∧
      gives (.vshr f) (fun i => if e y i < b then e x i / 2 ^ e y i else 0) ∧
      gives (.vsra f) (fun i => ((z x i / 2 ^ min (e y i) (b - 1)) % 2 ^ b).toNat)) ∧
    bits (.vand f) (fun p q => p &&& q) ∧ bits (.vor f) (fun p q => p ||| q) ∧ bits (.vxor f) (fun p q => p ^^^ q)) ∧
  (∀ (f : VI) (s t : State) (x : Row) (m : Word) (d : Row), s.reads1 f.slot f.a f.p f.dst x m d t →
    let b := eb f.fmt
    GivesRow (exec (.vshli f) s) t f.slot f.w f.dst 2 b m d (fun i =>
      (if f.k.toNat < b then elem b x.toNat i * 2 ^ f.k.toNat else 0, 0)))

/-- Elementwise vector operations: arithmetic, fused and integer, with predicate, merge and flags. -/
def Obligations.VectorElementResults : Prop :=
  Rule.VectorArithmetic ∧ Rule.VectorAccumulateAndSign ∧ Rule.VectorIntegerOperations

/-- R349. A vector compare sends to q_dst, with latency 2, a bit for each lane: whether every element of the lane satisfies
the condition, or the old bit where the governing bit is 0. Integers compare as signed, ltn as unsigned values, and raise no
flag; a floating compare raises those of the compared elements of the governed lanes, and no other. -/
def Sys2Proof.Rule.VectorCompares : Prop :=
  ∀ (f : VC) (s s1 s2 s3 t : State) (x y : Row) (m d : Word),
    s.opV f.slot f.a = (some x, s1) → s1.opV f.slot f.b = (some y, s2) → s2.govern f.slot f.p = (some m, s3) →
    (if f.p then s3.readQ f.slot f.dst else (some 0, s3)) = (some d, t) →
    let b := eb f.fmt
    let g := 32 / b
    let e (v : Row) (i : Nat) := elem b v.toNat i
    let z (v : Row) (i : Nat) : Int := signed b (e v i)
    let gives (i : Instr) (c : VCond) (int : Nat → Prop) := ∃ (r : Row) (fl : Nat),
      exec i s = .next ((t.noteFlags f.slot fl).write f.slot (.q f.dst) 2 r f.w) ∧ r.toNat < 2 ^ 64 ∧
      (∀ k, k < 64 → (r.getLsbD k = true ↔ if m.getLsbD k then
          ∀ j, j < g → if f.fmt.isFloat then (compareElem f.fmt.code c (e x (g * k + j)) (e y (g * k + j))).1 = true
            else int (g * k + j)
        else d.getLsbD k = true)) ∧
      (f.fmt.isFloat = false → fl = 0) ∧
      (f.fmt.isFloat = true → ∀ n, fl.testBit n = true ↔ ∃ k j, k < 64 ∧ m.getLsbD k = true ∧ j < g ∧
        (compareElem f.fmt.code c (e x (g * k + j)) (e y (g * k + j))).2.testBit n = true)
    gives (.vcmpEq f) .eq (fun i => z x i = z y i) ∧ gives (.vcmpNe f) .ne (fun i => z x i ≠ z y i) ∧
    gives (.vcmpLt f) .lt (fun i => z x i < z y i) ∧ gives (.vcmpLe f) .le (fun i => z x i ≤ z y i) ∧
    (f.fmt.isFloat = false → gives (.vcmpLtn f) .ltn (fun i => e x i < e y i))

/-- R350, R351. vpfx writes the first min(c, 64) bits, keeping the old bit where the governing bit is 0; predicate logic works
bit by bit; all with latency 2. -/
def Sys2Proof.Rule.PredicateOperations : Prop :=
  (∀ (k : Slot) (h p w : Bool) (dst : BitVec 3) (a : Sel) (s s1 s2 t : State) (c m d : Word),
    s.opS k a = (some c, s1) → s1.govern k p = (some m, s2) →
    (if p then s2.readQ k dst else (some 0, s2)) = (some d, t) →
    ∃ r : Row, exec (.vpfx k h p w dst a) s = .next (t.write k (.q dst) 2 r w) ∧ r.toNat < 2 ^ 64 ∧
      ∀ i, i < 64 → r.getLsbD i = if m.getLsbD i then decide (i < c.toNat) else d.getLsbD i) ∧
  (∀ (f : QL) (s s1 s2 : State) (x y : Word),
    s.readQ f.slot f.a = (some x, s1) → s1.readQ f.slot f.b = (some y, s2) →
    let gives (i : Instr) (g : Bool → Bool → Bool) := ∃ r : Row,
      exec i s = .next (s2.write f.slot (.q f.dst) 2 r f.w) ∧ r.toNat < 2 ^ 64 ∧
      ∀ i, i < 64 → r.getLsbD i = g (x.getLsbD i) (y.getLsbD i)
    gives (.qand f) and ∧ gives (.qor f) or ∧ gives (.qxor f) xor) ∧
  (∀ (k : Slot) (h w : Bool) (dst a : BitVec 3) (s s1 : State) (x : Word), s.readQ k a = (some x, s1) →
    ∃ r : Row, exec (.qnot k h w dst a) s = .next (s1.write k (.q dst) 2 r w) ∧ r.toNat < 2 ^ 64 ∧
      ∀ i, i < 64 → r.getLsbD i = !x.getLsbD i)

/-- Vector compares, prefix predicates and predicate logic. -/
def Obligations.ComparesAndPredicates : Prop :=
  Rule.VectorCompares ∧ Rule.PredicateOperations

/-- R354. The moves copy bits and raise no flag: a row, one element everywhere, a scalar's low bits everywhere, a rotation
toward lower indices, a permutation, and a selection between two rows; vmovz puts 0 where the governing bit is 0. -/
def Sys2Proof.Rule.VectorMoves : Prop :=
  (∀ (f : VU) (s t : State) (x : Row) (m : Word) (d : Row), s.reads1 f.slot f.a f.p f.dst x m d t →
    GivesRow (exec (.vmov f) s) t f.slot f.w f.dst 2 (eb f.fmt) m d (fun i => (elem (eb f.fmt) x.toNat i, 0))) ∧
  (∀ (f : VU) (s s1 t : State) (x : Row) (m : Word), s.opV f.slot f.a = (some x, s1) → s1.govern f.slot f.p = (some m, t) →
    GivesRow (exec (.vmovz f) s) t f.slot f.w f.dst 2 (eb f.fmt) m 0 (fun i => (elem (eb f.fmt) x.toNat i, 0))) ∧
  (∀ (f : VU) (s s1 s2 t : State) (x : Word) (m : Word) (d : Row), s.opS f.slot f.a = (some x, s1) →
    s1.govern f.slot f.p = (some m, s2) → (if f.p then s2.readReg f.slot .v f.dst else (some 0, s2)) = (some d, t) →
    GivesRow (exec (.vsplat f) s) t f.slot f.w f.dst 3 (eb f.fmt) m d (fun _ => (x.toNat, 0))) ∧
  (∀ (f : VI) (s t : State) (x : Row) (m : Word) (d : Row), s.reads1 f.slot f.a f.p f.dst x m d t →
    GivesRow (exec (.vbcast f) s) t f.slot f.w f.dst 3 (eb f.fmt) m d (fun _ => (elem (eb f.fmt) x.toNat f.k.toNat, 0)) ∧
    GivesRow (exec (.vrot f) s) t f.slot f.w f.dst 3 (eb f.fmt) m d (fun i =>
      (elem (eb f.fmt) x.toNat ((i + f.k.toNat) % (2048 / eb f.fmt)), 0))) ∧
  (∀ (f : VF) (s t : State) (x y : Row) (m : Word) (d : Row), s.reads2 f false x y m d t →
    GivesRow (exec (.vperm f) s) t f.slot f.w f.dst 3 (eb f.fmt) m d (fun i =>
      (elem (eb f.fmt) x.toNat (elem (eb f.fmt) y.toNat i % (2048 / eb f.fmt)), 0))) ∧
  (∀ (f : VF) (s s1 s2 t : State) (x y : Row) (m : Word), s.opV f.slot f.a = (some x, s1) →
    s1.opV f.slot f.b = (some y, s2) → s2.govern f.slot f.p = (some m, t) →
    ∃ r : Row, exec (.vsel f) s = .next (t.write f.slot (.v f.dst) 2 r f.w) ∧ ∀ i, i < 2048 / eb f.fmt →
      elem (eb f.fmt) r.toNat i =
        elem (eb f.fmt) (if m.getLsbD (i / (32 / eb f.fmt)) then x.toNat else y.toNat) i)

/-- R341, R342, R355. vshp sends a shape code with latency 2; under the shape as it stands, with R rows and C columns, vtrans
puts element (r, c) at index c × R + r; with the pending check on, a shape that is still in flight raises 0x23. -/
def Sys2Proof.Rule.ShapeAndTranspose : Prop :=
  (∀ (k : Slot) (h : Bool) (code : BitVec 3) (s : State),
    exec (.vshp k h code) s = .next (s.write k .shp 2 (code.setWidth 2048))) ∧
  (∀ (f : VU) (s t : State) (x : Row) (m : Word) (d : Row), s.reads1 f.slot f.a f.p f.dst x m d t →
    s.cx.shp.toNat ≤ 6 → (s.cx.pendChk && s.cx.pending .shp) = false →
    let b := eb f.fmt
    let rows := 2 ^ (6 - s.cx.shp.toNat)
    let cols := 2 ^ s.cx.shp.toNat * (32 / b)
    GivesRow (exec (.vtrans f) s) t f.slot f.w f.dst 4 b m d (fun j =>
      (elem b x.toNat (j % rows * cols + j / rows), 0))) ∧
  (∀ (f : VU) (s : State), s.cx.pendChk = true → s.cx.pending .shp = true →
    exec (.vtrans f) s = .next (s.fail f.slot 0x23))

/-- Lane moves, the shape register and the transpose within the shape. -/
def Obligations.LaneMovesShapeAndTranspose : Prop :=
  Rule.VectorMoves ∧ Rule.ShapeAndTranspose

/-- R356. A reduction combines the governed elements of a row or of a column in the order of R73 and broadcasts the result
along the reduced dimension, under the shape as it stands. -/
def Obligations.RowAndColumnReductions : Prop :=
  ∀ (f : VU) (s s1 t : State) (x : Row) (m : Word) (d : Row), s.opV f.slot f.a = (some x, s1) →
    s1.govern f.slot f.p = (some m, t) → (if f.p then t.readReg f.slot .v f.dst else (some 0, t)) = (some d, t) →
    s1.cx.shp.toNat ≤ 6 → (s.cx.pendChk && s.cx.pending .shp) = false →
    let b := eb f.fmt
    let rows := 2 ^ (6 - s1.cx.shp.toNat)
    let cols := 2 ^ s1.cx.shp.toNat * (32 / b)
    let input (i : Nat) : Option Nat := if m.getLsbD (i / (32 / b)) then some (elem b x.toNat i) else none
    let rowOf (i : Nat) := (List.range cols).map (fun j => input (i / cols * cols + j))
    let colOf (i : Nat) := (List.range rows).map (fun j => input (j * cols + i % cols))
    let gives (i : Instr) (k : RedKind) (l : Nat → List (Option Nat)) :=
      GivesRow (exec i s) t f.slot f.w f.dst 6 b m d (fun i => reduceElems f.fmt.code k (l i))
    gives (.vrsum f) .sum rowOf ∧ gives (.vcsum f) .sum colOf ∧ gives (.vrmax f) .max rowOf ∧
    gives (.vcmax f) .max colOf ∧ gives (.vrmin f) .min rowOf ∧ gives (.vcmin f) .min colOf

/-- R245, R248, R352, R353. A conversion rounds each source element once to the target format, vcvts saturating; an integer 0
has sign − under down. Under stochastic rounding element i takes the i-th draw of the generator, one step each, and the
generator ends after a draw for every target element. vdq scales a codebook entry by 2^(scale - 127), a scale of 0xFF giving
NaN; with the pending check on, a scale register still in flight raises 0x23. -/
def Obligations.ConversionsAndDequantisation : Prop :=
  (∀ (f : VV) (s t : State) (x : Row) (m : Word) (d : Row), s.reads1 f.slot f.a f.p f.dst x m d t → f.rm ≠ .sr →
    f.target.toNat ≤ 10 →
    let src := cvtSource f.fmt f.target.toNat
    let gives (i : Instr) (sat : Bool) :=
      ∃ u, (∀ c y, u.ctxOf c y = t.ctxOf c y) ∧ u.issue = t.issue ∧
        GivesRow (exec i s) u f.slot f.w f.dst 2 (fmtBits f.target.toNat) m d (fun i =>
        if i < min (2048 / fmtBits src) (2048 / fmtBits f.target.toNat) then
          let e := elem (fmtBits src) x.toNat i
          let r := roundTo f.target.toNat sat f.rm 0 (cvtValue src f.rm e)
          (r.1, r.2 ||| snanFlag src [e])
        else (0, 0))
    gives (.vcvt f) false ∧ gives (.vcvts f) true) ∧
  (∀ (f : VV) (s t : State) (x : Row) (m : Word) (d : Row), s.reads1 f.slot f.a f.p f.dst x m d t → f.rm = .sr →
    f.target.toNat ≤ 10 →
    let src := cvtSource f.fmt f.target.toNat
    let n := 2048 / fmtBits f.target.toNat
    let draws := srDraws n t.cx.g
    let gives (i : Instr) (sat : Bool) :=
      ∃ u, (∀ c y, c ≠ t.issue.core ∨ y % 4 ≠ t.issue.ctx % 4 → u.ctxOf c y = t.ctxOf c y) ∧ u.issue = t.issue ∧
        u.cx = { t.cx with g := draws.2 } ∧
        GivesRow (exec i s) u f.slot f.w f.dst 2 (fmtBits f.target.toNat) m d (fun i =>
        if i < min (2048 / fmtBits src) n then
          let e := elem (fmtBits src) x.toNat i
          let r := roundTo f.target.toNat sat .sr (draws.1.getD i 0) (widen src e)
          (r.1, r.2 ||| snanFlag src [e])
        else (0, 0))
    gives (.vcvt f) false ∧ gives (.vcvts f) true) ∧
  (∀ (src : Nat) (rm : Rm) (e : Nat), cvtValue src rm e =
    if rm = .down ∧ isFloat src = false ∧ widen src e = .zero false then .zero true else widen src e) ∧
  (∀ (n : Nat) (g : BitVec 32), let l := srDraws n g
    l.1.length = n ∧ ∀ i, i < n → l.1.getD i 0 = (srDraws (i + 1) g).2.toNat ∧
      (srDraws (i + 1) g).2 = srStep (srDraws i g).2) ∧
  (∀ (f : VI) (s t : State) (x : Row) (m : Word) (d : Row), s.reads1 f.slot f.a f.p f.dst x m d t → f.fmt.code ≤ 1 →
    (s.cx.pendChk && s.cx.scalePending (f.k.toNat % 16) (f.fmt.elems / 32)) = false →
    GivesRow (exec (.vdq f) s) t f.slot f.w f.dst 3 (eb f.fmt) m d (fun i =>
      let e := (vget s.cx.sc (f.k.toNat % 16 + i / 32)).toNat
      let c := elem 16 (vget s.cx.kb (f.k.toNat / 16)).toNat (elem 4 x.toNat i)
      if e = 0xFF then (qnan f.fmt.code, 0)
      else
        let r := rne f.fmt.code ((widen 1 c).scale ((e : Int) - 127))
        (r.1, r.2 ||| snanFlag 1 [c]))) ∧
  (∀ (f : VI) (s : State), s.cx.pendChk = true → s.cx.scalePending (f.k.toNat % 16) (f.fmt.elems / 32) = true →
    exec (.vdq f) s = .next (s.fail f.slot 0x23))

/-- R357. Each special function widens its elements to f32, applies its f32 function, and converts the result; latency 8. -/
def Sys2Proof.Rule.SpecialFunctionResults : Prop :=
  (∀ (f : VU) (s t : State) (x : Row) (m : Word) (d : Row), s.reads1 f.slot f.a f.p f.dst x m d t →
    let gives (i : Instr) (g : Nat → Nat × Nat) :=
      GivesRow (exec i s) t f.slot f.w f.dst 8 (eb f.fmt) m d (fun i =>
        let a := toF32 f.fmt.code (elem (eb f.fmt) x.toNat i)
        let r := viaF32 f.fmt.code (g a.1)
        (r.1, r.2 ||| a.2))
    gives (.xexp2 f) sfExp2 ∧ gives (.xlog2 f) sfLog2 ∧ gives (.xrcp f) sfRcp ∧ gives (.xrsqrt f) sfRsqrt ∧
    gives (.xsqrt f) sfSqrt ∧ gives (.xsin f) sfSin ∧ gives (.xcos f) sfCos ∧ gives (.xtanh f) sfTanh ∧
    gives (.xsigm f) sfSigm ∧ gives (.xgelu f) sfGelu) ∧
  (∀ (f : VF) (s t : State) (x y : Row) (m : Word) (d : Row), s.reads2 f false x y m d t →
    GivesRow (exec (.xdiv f) s) t f.slot f.w f.dst 8 (eb f.fmt) m d (fun i =>
      let a := toF32 f.fmt.code (elem (eb f.fmt) x.toNat i)
      let b := toF32 f.fmt.code (elem (eb f.fmt) y.toNat i)
      let r := viaF32 f.fmt.code (sfDiv a.1 b.1)
      (r.1, r.2 ||| a.2 ||| b.2)))

/-- R358. The special inputs: signed zeros (codes 0 and 0x80000000), infinities (0x7F800000 and 0xFF800000), NaNs, the domain
of the logarithm and the roots, and the overflow of 2^x. A flag number is NV 16, DZ 8, OF 4, UF 2, NX 1. -/
def Sys2Proof.Rule.SpecialFunctionCorners : Prop :=
  let row (g : Nat → Nat × Nat) (pz nz pi ni : Nat × Nat) :=
    g 0 = pz ∧ g 0x80000000 = nz ∧ g 0x7F800000 = pi ∧ g 0xFF800000 = ni ∧
    ∀ x, x < 2 ^ 32 → isNan 0 x = true → g x = (0x7FC00000, if x / 2 ^ 22 % 2 = 0 then 16 else 0)
  let nv : Nat × Nat := (0x7FC00000, 16)
  row sfExp2 (0x3F800000, 0) (0x3F800000, 0) (0x7F800000, 0) (0, 0) ∧
  row sfLog2 (0xFF800000, 8) (0xFF800000, 8) (0x7F800000, 0) nv ∧
  row sfRcp (0x7F800000, 8) (0xFF800000, 8) (0, 0) (0x80000000, 0) ∧
  row sfRsqrt (0x7F800000, 8) (0xFF800000, 8) (0, 0) nv ∧
  row sfSqrt (0, 0) (0x80000000, 0) (0x7F800000, 0) nv ∧
  row sfSin (0, 0) (0x80000000, 0) nv nv ∧
  row sfCos (0x3F800000, 0) (0x3F800000, 0) nv nv ∧
  row sfTanh (0, 0) (0x80000000, 0) (0x3F800000, 0) (0xBF800000, 0) ∧
  row sfSigm (0x3F000000, 0) (0x3F000000, 0) (0x3F800000, 0) (0, 0) ∧
  row sfGelu (0, 0) (0x80000000, 0) (0x7F800000, 0) (0x80000000, 0) ∧
  (∀ x, 0x80000001 ≤ x → x ≤ 0xFF7FFFFF → sfLog2 x = nv ∧ sfSqrt x = nv ∧ sfRsqrt x = nv) ∧
  sfLog2 0x3F800000 = (0, 0) ∧
  (∀ x, 0x43000000 ≤ x → x ≤ 0x7F7FFFFF → sfExp2 x = (0x7F800000, 5)) ∧
  (∀ x, 0xC3160000 ≤ x → x ≤ 0xFF7FFFFF → sfExp2 x = (0, 3)) ∧
  (∀ a b, a ∈ [0, 0x80000000] → b ∈ [0, 0x80000000] → sfDiv a b = nv) ∧
  (∀ a b, a ∈ [0x7F800000, 0xFF800000] → b ∈ [0x7F800000, 0xFF800000] → sfDiv a b = nv) ∧
  (∀ x, x < 2 ^ 32 → x % 2 ^ 31 ≠ 0 → x % 2 ^ 31 < 0x7F800000 →
    sfDiv x 0 = (0x7F800000 + x / 2 ^ 31 * 2 ^ 31, 8) ∧ sfDiv x 0x80000000 = (0xFF800000 - x / 2 ^ 31 * 2 ^ 31, 8))

/-- Special functions: the f32 path and the special inputs. -/
def Obligations.SpecialFunctions : Prop :=
  Rule.SpecialFunctionResults ∧ Rule.SpecialFunctionCorners

/-- R396, R398. mm with a legal shape, a readable literal word, free rows and a free place enters the array queue as the next
command, with its operands and codebooks as they stand, and takes one literal word; accz enters with its tile. With four
entries held either blocks with condition 6. -/
def Sys2Proof.Rule.MatrixCommandsEnterTheArray : Prop :=
  (∀ (due : Due) (a b : Sel) (s s1 s2 : State) (md0 md1 : Word) (sw : BitVec 32),
    s.opS .x a = (some md0, s1) → s1.opS .x b = (some md1, s2) → s2.dueFull due = none →
    s2.literal s2.cx.lpc.toNat = .ok sw →
    let d := shapeOf md0.toNat md1.toNat sw.toNat
    d.ok = true → s2.ck.writeInFlight (d.aRun ++ d.wRun) = false → s2.watermark (d.aRun ++ d.wRun) = none →
    (s2.ck.arrayHeld s2.cycle < 4 → ∃ t, exec (.mm due a b) s = .next t ∧
      t.ck.nextCmd = s2.ck.nextCmd + 1 ∧ t.cx.lpc = s2.cx.lpc + 1 ∧
      t.ck.array.length = s2.ck.array.length + 1 ∧
      t.ck.array.getLast?.map (fun c => (c.cmd, c.ctx, c.launch, c.op, c.started)) = some (s2.ck.nextCmd, s2.issue.ctx,
        s2.launchKey, .mm md0 md1 sw (vget s2.cx.kb d.kba) (vget s2.cx.kb d.kbb) d.zero, false) ∧
      t.cx.regionCmds = s2.cx.regionCmds ++ [s2.ck.nextCmd]) ∧
    (4 ≤ s2.ck.arrayHeld s2.cycle → exec (.mm due a b) s = .next (s2.blockOn 6 .array))) ∧
  (∀ (tile : BitVec 5) (s : State),
    (s.ck.arrayHeld s.cycle < 4 → ∃ t, exec (.accz tile) s = .next t ∧ t.ck.nextCmd = s.ck.nextCmd + 1 ∧
      t.ck.array.length = s.ck.array.length + 1 ∧
      t.ck.array.getLast?.map (fun c => (c.cmd, c.op)) = some (s.ck.nextCmd, .accz tile.toNat)) ∧
    (4 ≤ s.ck.arrayHeld s.cycle → exec (.accz tile) s = .next (s.blockOn 6 .array)))

/-- R397. mmacro with legal steps enters the sequencer with its step count and advances, and takes as many literal words as it
has steps; a nonzero reserved field raises 0x75, and two macros in the sequencer block it with condition 6. -/
def Sys2Proof.Rule.MacrosEnterTheSequencer : Prop :=
  ∀ (due : Due) (a : BitVec 6) (b : Sel) (s s1 s2 s3 : State) (md0 md1 w : Word),
    s.srcS .x a = (some md0, s1) → s1.srcS .x (a + 1) = (some md1, s2) → s2.opS .x b = (some w, s3) →
    s3.dueFull due = none →
    let n := w.toNat % 2 ^ 12 + 1
    let da := w.toNat / 2 ^ 12 % 2 ^ 13
    let dw := w.toNat / 2 ^ 25 % 2 ^ 14
    let dc := w.toNat / 2 ^ 39 % 2 ^ 5
    (2 ^ 44 ≤ w.toNat → exec (.mmacro due a b) s = .next (s3.fail .x 0x75)) ∧
    (∀ words, w.toNat < 2 ^ 44 → s3.macroChecks md0 md1 da dw dc n 0 = .ok words →
      let d := shapeOf md0.toNat md1.toNat 0
      let m : MacroRun := ⟨0, s3.issue.ctx, s3.cx.home, s3.launchKey, md0, md1, da, dw, dc, n, 0, words,
        vget s3.cx.kb d.kba, vget s3.cx.kb d.kbb, false, none⟩
      s3.ck.writeInFlight m.rows = false → s3.watermark m.rows = none →
      (s3.ck.macros.length < 2 → ∃ t, exec (.mmacro due a b) s = .next t ∧
        t.ck.macros = s3.ck.macros ++ [{ m with cmd := s3.ck.nextCmd }] ∧
        t.cx.lpc = s3.cx.lpc + BitVec.ofNat 14 n) ∧
      (2 ≤ s3.ck.macros.length → exec (.mmacro due a b) s =
        .next ((s3.note (fun r => { r with macroRows := m.rows })).blockOn 6 .sequencer)))

/-- mm, accz and mmacro enter the array queue and the sequencer, or block. -/
def Obligations.MatrixCommandsAreEnqueued : Prop :=
  Rule.MatrixCommandsEnterTheArray ∧ Rule.MacrosEnterTheSequencer

/-- R399 to R401. rqr with 1 to 32 elements, rap with legal angles and a legal index, and rcl enter the rotator's queue, each
committing its region as its rule says; an operand out of range raises 0x75, as does an rcl of a launch that does not own
the rotator, and eight entries held block with condition 6. -/
def Sys2Proof.Rule.RotatorCommandsEnterTheQueue : Prop :=
  let enters (i : Instr) (s : State) (op : RotOp) (after : Bool) := ∃ t, exec i s = .next t ∧
    t.issue.after = after ∧ t.ck.nextCmd = s.ck.nextCmd + 1 ∧ t.ck.rot.length = s.ck.rot.length + 1 ∧
    t.ck.rot.getLast?.map (fun c => (c.cmd, c.home, c.launch, c.pc, c.op, c.started)) =
      some (s.ck.nextCmd, s.cx.home, s.launchKey, s.issue.pc, op, false)
  (∀ (due : Due) (a b : Sel) (s s1 s2 : State) (x : Row) (w : Word),
    s.opV .x a = (some x, s1) → s1.opS .x b = (some w, s2) →
    (w.toNat < 1 ∨ 32 < w.toNat → exec (.rqr due false a b) s = .next (s2.fail .x 0x75)) ∧
    (1 ≤ w.toNat → w.toNat ≤ 32 → s2.dueFull due = none → s2.rotOwned = none → s2.ck.rotHeld s2.cycle < 8 →
      ∃ t, exec (.rqr due false a b) s = .next t ∧ t.issue.after = true ∧ t.ck.nextCmd = s2.ck.nextCmd + 1 ∧
        t.ck.rot.getLast?.map (fun c => (c.cmd, c.op)) = some (s2.ck.nextCmd, .rqr w.toNat x)) ∧
    (1 ≤ w.toNat → w.toNat ≤ 32 → s2.dueFull due = none → s2.rotOwned = none → 8 ≤ s2.ck.rotHeld s2.cycle →
      exec (.rqr due false a b) s = .next (s2.blockOn 6 .rotator)) ∧
    exec (.rqr due true a b) s = .next (s2.fail .x 0x75)) ∧
  (∀ (due : Due) (e : Bool) (a : BitVec 6) (b : Sel) (s s1 s2 s3 : State) (x g : Row) (y : Word),
    s.readReg .x .v a = (some x, s1) → s1.readReg .x .v (a + 1) = (some g, s2) → s2.opS .x b = (some y, s3) →
    let legal := y.toNat < 2 ^ 11 ∧ y.toNat % 2 ^ 10 ≤ 464 ∧ ∀ k, k < 32 → elem 64 g.toNat k < 2 ^ 34
    (legal → s3.dueFull due = none → s3.rotOwned = none → s3.ck.rotHeld s3.cycle < 8 →
      ∃ t, exec (.rap due e a b) s = .next t ∧ t.issue.after = (s3.issue.after || y.toNat.testBit 10) ∧
        t.ck.rot.getLast?.map (fun c => (c.cmd, c.op)) =
          some (s3.ck.nextCmd, .rap (y.toNat % 2 ^ 10) (y.toNat.testBit 10) e x g)) ∧
    (¬ legal → exec (.rap due e a b) s = .next (s3.fail .x 0x75))) ∧
  (∀ (due : Due) (s : State), s.dueFull due = none →
    (s.ck.rotOwner ≠ none → s.rotOwned = none → s.ck.rotHeld s.cycle < 8 → enters (.rcl due) s .rcl true) ∧
    (s.ck.rotOwner = none ∨ (∃ l, s.ck.rotOwner = some l ∧ s.cx.launch ≠ some l) →
      exec (.rcl due) s = .next (s.fail .x 0x75)) ∧
    (s.ck.rotOwner ≠ none → s.rotOwned = none → 8 ≤ s.ck.rotHeld s.cycle →
      exec (.rcl due) s = .next (s.blockOn 6 .rotator)))

/-- R402, R403. rrd reads 64 triangular registers from t0 as f32 values, with latency 8, and raises 0x75 beyond register 464;
rang turns half of its source's turns into angle pairs, with latency 8 and no flag. -/
def Sys2Proof.Rule.RotatorReads : Prop :=
  (∀ (h p w : Bool) (dst : BitVec 6) (a : Sel) (s s1 : State) (x : Word), s.opS .x a = (some x, s1) →
    (464 < x.toNat → exec (.rrd h p w dst a) s = .next (s1.fail .x 0x75)) ∧
    (x.toNat ≤ 464 → s1.rotOwned = none →
      let s2 := s1.modCk (fun k => { k with rotOwner := k.rotOwner.or s1.cx.launch })
      ∀ m s3 d t, s2.govern .x p = (some m, s3) → (if p then s3.readReg .x .v dst else (some 0, s3)) = (some d, t) →
        GivesRow (exec (.rrd h p w dst a) s) t .x w dst 8 32 m d
          (fun i => triLane (s1.ck.triAt (s1.cycle + 1) (x.toNat + i))))) ∧
  (∀ (h p w : Bool) (dst : BitVec 6) (a : Sel) (half : Bool) (s t : State) (x : Row) (m : Word) (d : Row),
    s.reads1 .x a p dst x m d t →
    GivesRow (exec (.rang h p w dst a half) s) t .x w dst 8 32 m d (fun i =>
      (turnToSigma (elem 32 x.toNat ((if half then 32 else 0) + i / 2)) / 2 ^ (32 * (i % 2)) % 2 ^ 32, 0)))

/-- rqr, rap and rcl enter the rotator's queue; rrd and rang send their rows. -/
def Obligations.RotatorCommandsAndReads : Prop :=
  Rule.RotatorCommandsEnterTheQueue ∧ Rule.RotatorReads

/-- R405, R406. cp and cpadv with entries whose checks pass enter each entry's channel as one command, commit the region, and
consume a literal word for each follow-on; cpadv also sets the launch's slate to the stage. An index outside the launch's
shot list raises 0x75, and a channel outside the launch's mask 0x74. -/
def Sys2Proof.Rule.CopyCommandsEnterTheirChannels : Prop :=
  let issued (s t : State) (l : List Candidate) := t.issue.after = true ∧
    (∀ c : Fin 16, (t.ck.chan c).err = false → (t.ck.chan c).queue.length = (s.ck.chan c).queue.length +
      (l.filter (fun e => e.ch % 16 == c.val && (match e with
        | .probed _ => true
        | _ => false))).length) ∧
    t.cx.lpc = s.cx.lpc + BitVec.ofNat 14 ((l.filter (fun c => match c with
      | .probed e => e.follow.isSome
      | _ => false)).length) ∧
    t.cx.regionCmds = s.cx.regionCmds ++ [s.ck.nextCmd]
  (∀ (due : Due) (a : Sel) (s s1 : State) (x : Word), s.opS .x a = (some x, s1) →
    let i := s1.shotRange.1 + x.toNat
    let e := (Assoc.get s1.ck.shots i 0).toNat
    (s1.shotRange.2 ≤ x.toNat ∨ shotKind e = 15 → exec (.cp due a) s = .next (s1.fail .x 0x75)) ∧
    (x.toNat < s1.shotRange.2 → shotKind e ≠ 15 → s1.dueFull due = none →
      (s1.chmask.testBit (shotCh e) = false → exec (.cp due a) s = .next (s1.fail .x 0x74)) ∧
      (∀ l, s1.chmask.testBit (shotCh e) = true → s1.candidates [i] s1.cx.lpc.toNat = .ok l →
        s1.channelsStop l = none → (∀ c : Fin 16, (s1.ck.chan c).err = false) →
        ∃ t, exec (.cp due a) s = .next t ∧ issued s1 t l))) ∧
  (∀ (due : Due) (s : State) (l : List Candidate), s.dueFull due = none →
    let stage := ((s.ck.slate s.cx.launch).toNat + 1) % 2 ^ 16
    let ix := ((List.range s.shotRange.2).map (s.shotRange.1 + ·)).filter (fun i =>
      let e := (Assoc.get s.ck.shots i 0).toNat
      shotKind e != 15 && shotStage e == stage)
    (∀ i ∈ ix, s.chmask.testBit (shotCh (Assoc.get s.ck.shots i 0).toNat) = true) →
    s.candidates ix s.cx.lpc.toNat = .ok l → s.channelsStop l = none → (∀ c : Fin 16, (s.ck.chan c).err = false) →
    ∃ t, exec (.cpadv due) s = .next t ∧ issued s t l ∧
      (Assoc.get t.ck.slates s.launchKey 0).toNat = stage)

/-- R407, R408. wmwait goes on when its channel is idle or has landed y rows, and blocks with condition 3 otherwise; cpreset
clears its channel and commits the region. A channel number above 15 raises 0x75, one outside the launch's mask 0x74. -/
def Sys2Proof.Rule.WatermarkWaitAndChannelReset : Prop :=
  (∀ (a b : Sel) (s s1 s2 : State) (x y : Word), s.opS .x a = (some x, s1) → s1.opS .x b = (some y, s2) →
    (15 < x.toNat → exec (.wmwait a b) s = .next (s2.fail .x 0x75)) ∧
    (x.toNat ≤ 15 → s2.chmask.testBit x.toNat = false → exec (.wmwait a b) s = .next (s2.fail .x 0x74)) ∧
    (x.toNat ≤ 15 → s2.chmask.testBit x.toNat = true → (s2.ck.chan x.toNat).err = false →
      exec (.wmwait a b) s = .next (
        if (s2.ck.chan x.toNat).activeAt s2.cycle = true ∧ (s2.ck.chan x.toNat).landedAt s2.cycle < y.toNat then
          s2.blockOn 3 (.count x.toNat y.toNat)
        else s2))) ∧
  (∀ (a : Sel) (s s1 : State) (x : Word), s.opS .x a = (some x, s1) →
    (15 < x.toNat → exec (.cpreset a) s = .next (s1.fail .x 0x75)) ∧
    (x.toNat ≤ 15 → s1.chmask.testBit x.toNat = false → exec (.cpreset a) s = .next (s1.fail .x 0x74)) ∧
    (x.toNat ≤ 15 → s1.chmask.testBit x.toNat = true → ∃ t, exec (.cpreset a) s = .next t ∧ t.issue.after = true ∧
      (t.ck.chan x.toNat).queue = [] ∧ (t.ck.chan x.toNat).err = false ∧ (t.ck.chan x.toNat).code = 0 ∧
      (t.ck.chan x.toNat).overrun = 0 ∧ (t.ck.chan x.toNat).landed = 0 ∧ (t.ck.chan x.toNat).active = false))

/-- cp and cpadv enter their channels; wmwait waits and cpreset clears. -/
def Obligations.CopyCommands : Prop :=
  Rule.CopyCommandsEnterTheirChannels ∧ Rule.WatermarkWaitAndChannelReset

/-- R217, R363. A row of a buffer is its 256 bytes, the byte at the lowest address in bits 7:0. -/
def Sys2Proof.Rule.RowsAreTheirBytes : Prop :=
  ∀ (k : Core) (b : Buf) (r i : Nat), i < 256 →
    (k.row b r).toNat / 2 ^ (8 * i) % 2 ^ 8 = (Memory.readByte (k.buf b) (256 * r + i)).toNat

/-- R362, R363, R386. ld sends the row that its address names with latency 6; an address outside the buffer raises 0x22, an
uncorrectable row 0x26. ldt also needs a full tag, which no tag operation of the cycle has changed and which it empties, and commits
the region; tagw goes on when the tag holds
the named state and blocks with condition 4 otherwise. -/
def Sys2Proof.Rule.LocalLoadsAndTagOperations : Prop :=
  (∀ (f : MR) (s s1 : State) (x : Row), s.rawOperand f.slot .s f.a = (some x, s1) →
    (mrRow f.buf (x.setWidth 64) f.imm.toNat = none → exec (.ld f) s = .next (s1.fail f.slot 0x22)) ∧
    (∀ r, mrRow f.buf (x.setWidth 64) f.imm.toNat = some r →
      s1.rowStop false (s1.selPending .s f.a || s1.rowPend f.buf r) f.buf r = none →
      (s1.ck.badRows.contains (rowKey f.buf r) = false →
        exec (.ld f) s = .next ((s1.touchRow f.buf r).write f.slot (.v f.v) 6 (s1.ck.row f.buf r))) ∧
      (s1.ck.badRows.contains (rowKey f.buf r) = true → exec (.ld f) s = .next (s1.fail f.slot 0x26)))) ∧
  (∀ (f : MR) (s s1 : State) (x : Row) (r : Nat), f.buf = .a → s.rawOperand f.slot .s f.a = (some x, s1) →
    mrRow .a (x.setWidth 64) f.imm.toNat = some r →
    s1.rowStop false (s1.selPending .s f.a || s1.rowPend .a r) .a r = none →
    (s1.ck.tags.contains r = true → s1.ck.tagUsed.contains r = false → s1.ck.badRows.contains (rowKey .a r) = false →
      ∃ t, exec (.ldt f) s = .next t ∧ t.issue.after = true ∧ t.ck.tags = setErase s1.ck.tags r ∧
        t.cx.inflight = (s1.write f.slot (.v f.v) 6 (s1.ck.row .a r)).cx.inflight) ∧
    (s1.ck.tags.contains r = false ∨ s1.ck.tagUsed.contains r = true →
      exec (.ldt f) s = .next (s1.blockOn 4 (.tag r true)))) ∧
  (∀ (f : MR) (s : State), f.buf ≠ .a → exec (.ldt f) s = .next (s.fail f.slot 0x25)) ∧
  (∀ (k : Slot) (a : Sel) (s s1 : State) (x : Word) (r : Nat), s.opS k a = (some x, s1) → mrRow .a x 0 = some r →
    exec (.tagwFull k a) s = .next (if s1.ck.tags.contains r then s1 else s1.blockOn 4 (.tag r true)) ∧
    exec (.tagwEmpty k a) s = .next (if s1.ck.tags.contains r then s1.blockOn 4 (.tag r false) else s1))

/-- A row is its bytes; ld, ldt and tagw read rows and tags. -/
def Obligations.LocalLoadsAndTags : Prop :=
  Rule.RowsAreTheirBytes ∧ Rule.LocalLoadsAndTagOperations

/-- R221, R363. A st or stt whose checks pass puts its row in flight to the row that its address names, with its write point 3
context cycles after the bundle; stt needs an empty tag, which the write fills, and commits the region. A store to a live
barrier row raises 0x31. -/
def Sys2Proof.Rule.LocalStoresAreSentToTheirPoint : Prop :=
  let sent (s t : State) (k : Slot) (b : Buf) (r : Nat) (e : LocalEffect) := t.cx.localWrites =
    insertLocal s.cx.localWrites ⟨k, b, r, s.issue.issued, s.issue.cc + 3, s.issue.pc, s.cx.seq, e⟩
  (∀ (f : MRS) (s s1 s2 : State) (v x : Row), s.rawOperand f.slot .v f.v = (some v, s1) →
    s1.rawOperand f.slot .s f.a = (some x, s2) →
    (mrRow f.buf (x.setWidth 64) f.imm.toNat = none → exec (.st f) s = .next (s2.fail f.slot 0x22)) ∧
    (∀ r, mrRow f.buf (x.setWidth 64) f.imm.toNat = some r →
      let pend := s2.selPending .v f.v || s2.selPending .s f.a
      (s2.rowStop true pend f.buf r = none →
        ∃ t, exec (.st f) s = .next t ∧ sent s2 t f.slot f.buf r (.store v false)) ∧
      (s2.ck.streamed s2.cycle f.buf (r / groupRows f.buf) = false → pend = false → s2.ck.liveRow f.buf r = true →
        exec (.st f) s = .next (s2.fail f.slot 0x31)) ∧
      (f.buf = .a → s2.rowStop true pend .a r = none → s2.ck.tags.contains r = false → s2.ck.fillPending r = false →
        ∃ t, exec (.stt f) s = .next t ∧ t.issue.after = true ∧ sent s2 t f.slot .a r (.store v true)) ∧
      (f.buf = .a → s2.rowStop true pend .a r = none → s2.ck.tags.contains r = true →
        exec (.stt f) s = .next (s2.blockOn 4 (.tag r false))))) ∧
  (∀ (f : MRS) (s : State), f.buf ≠ .a → exec (.stt f) s = .next (s.fail f.slot 0x25))

/-- R221, R223, R226. At its point a local store writes exactly the row's 256 bytes, or none where the row holds a live barrier
word: every other byte of every buffer reads as before, and no tag changes but the row's own, which a tag store fills. A tag
store that has come to its point and finds its tag full, or finds that another tag operation has taken effect on the row in this
cycle, stays in flight and changes nothing. -/
def Sys2Proof.Rule.LocalStoreWritesItsRowAlone : Prop :=
  ∀ (k : Core) (x : Nat) (w : LocalWrite) (row : Row) (fill : Bool), w.eff = .store row fill →
    let k' := k.performLocal x w
    (∀ a, Memory.readByte (k'.buf w.buf) a =
      if k.liveRow w.buf w.row = false ∧ 256 * w.row ≤ a ∧ a < 256 * w.row + 256 then BitVec.ofNat 8 (row.toNat / 2 ^ (8 * (a - 256 * w.row)))
      else Memory.readByte (k.buf w.buf) a) ∧
    (∀ b, b ≠ w.buf → k'.buf b = k.buf b) ∧
    (∀ r, k'.tags.contains r = (k.tags.contains r || (fill && r == w.row))) ∧
    k'.ctxs = k.ctxs ∧ k'.latches = k.latches ∧ k'.guard = k.guard ∧ k'.barriers = k.barriers ∧ k'.saved = k.saved ∧
    (∀ cc, (k.ctx x).localWrites = [w] → w.point ≤ cc →
      (fill = true ∧ (k.tags.contains w.row = true ∨ k.tagUsed.contains w.row = true) → k.performDue x cc = k) ∧
      ((fill = true → k.tags.contains w.row = false ∧ k.tagUsed.contains w.row = false) →
        k.performDue x cc = (k.setCtx x { k.ctx x with localWrites := [] }).performLocal x w))

/-- R226, R305, R367. amo puts its operation in flight to the word that its address names; at its point the word becomes the
operation's result (fadd: two f32 sums; cadd: a compensated step), every other byte of the buffers stays, its flags are raised
in its slot, and the old word lands 10 cycles after the issue. An enabled trap leaves the word and the register as they are
and waits for the context's next bundle; a row that holds a live barrier word is not written. -/
def Sys2Proof.Rule.LocalAtomics : Prop :=
  (∀ (k : Slot) (op : AmoOp) (v : BitVec 6) (a b : Sel) (s s1 s2 : State) (x y : Row) (buf : Buf) (off : Nat),
    s.rawOperand k .s a = (some x, s1) → s1.rawOperand k .s b = (some y, s2) →
    mgOffset (x.setWidth 64) = some (buf, off) → buf ≠ .w →
    s2.rowStop true (s2.selPending .s a || s2.selPending .s b || (op == .cas && s2.selPending .s (.reg v)) ||
      s2.rowPend buf (off / 256)) buf (off / 256) = none →
    s2.ck.badRows.contains (rowKey buf (off / 256)) = false →
    ∃ t, exec (.amoOp k op v a b) s = .next t ∧ t.cx.localWrites = insertLocal s2.cx.localWrites
      ⟨k, buf, off / 256, s2.issue.issued, s2.issue.cc + 3, s2.issue.pc, s2.cx.seq,
        .atomic op (off / 8 % 32) (y.setWidth 64) (s2.cx.readS v) (s2.cx.sDest v) s2.cx.traps⟩) ∧
  (∀ (k : Core) (x : Nat) (w : LocalWrite) (op : AmoOp) (i : Nat) (v c : Word) (dest : Dest) (traps : Nat),
    i < 32 → w.eff = .atomic op i v c dest traps →
    let old : Word := BitVec.ofNat 64 ((k.row w.buf w.row).toNat / 2 ^ (64 * i))
    let hi := f32add (old.toNat / 2 ^ 32) (v.toNat / 2 ^ 32)
    let lo := f32add (old.toNat % 2 ^ 32) (v.toNat % 2 ^ 32)
    let sum := caddStep (old.toNat % 2 ^ 32) (old.toNat / 2 ^ 32) (v.toNat % 2 ^ 32)
    let out : Word × Nat := match op with
      | .add => (old + v, 0)
      | .and => (old &&& v, 0)
      | .or => (old ||| v, 0)
      | .xor => (old ^^^ v, 0)
      | .min => (if old.toInt ≤ v.toInt then old else v, 0)
      | .max => (if v.toInt ≤ old.toInt then old else v, 0)
      | .swap => (v, 0)
      | .cas => (if old = c then v else old, 0)
      | .fadd => (BitVec.ofNat 64 (hi.1 * 2 ^ 32 + lo.1), hi.2 ||| lo.2)
      | .cadd => (BitVec.ofNat 64 (sum.1.2 * 2 ^ 32 + sum.1.1), sum.2)
    let new := out.1
    let k' := k.performLocal x w
    (∀ a, Memory.readByte (k'.buf w.buf) a =
      if (k.liveRow w.buf w.row = false ∧ trapIn traps out.2 = none) ∧ 256 * w.row + 8 * i ≤ a ∧ a < 256 * w.row + 8 * i + 8 then
        BitVec.ofNat 8 (new.toNat / 2 ^ (8 * (a - (256 * w.row + 8 * i))))
      else Memory.readByte (k.buf w.buf) a) ∧
    (∀ b, b ≠ w.buf → k'.buf b = k.buf b) ∧
    (k'.ctx x).fpflags = (k.ctx x).fpflags ||| BitVec.ofNat 64 (out.2 * 2 ^ (5 * w.slot.num)) ∧
    (trapIn traps out.2 = none → (k'.ctx x).inflight =
      insertResult (k.ctx x).inflight ⟨w.slot, dest, w.issued, w.issued + 10, old.setWidth 2048⟩ ∧
      (k'.ctx x).pendingFault = (k.ctx x).pendingFault) ∧
    (∀ code, trapIn traps out.2 = some code → (k'.ctx x).inflight = (k.ctx x).inflight ∧
      (k'.ctx x).pendingFault = (k.ctx x).pendingFault.or (some ⟨code, some w.pc, w.slot.num⟩)))

/-- st, stt and amo go in flight to their rows, and at their points write exactly their bytes. -/
def Obligations.LocalStoresAndAtomics : Prop :=
  Rule.LocalStoresAreSentToTheirPoint ∧ Rule.LocalStoreWritesItsRowAlone ∧ Rule.LocalAtomics

/-- R364 to R366, R390. ldsc sends scale bytes of its row with latency 4, ldbf the fields that its pattern names with latency
8, rmg 256 bytes of the rotated pair with latency 3; a guard operation notes the rows whose guard bits its bundle changes. -/
def Obligations.ScalesFieldsMergesAndGuards : Prop :=
  (∀ (buf : Buf) (v : BitVec 4) (a : Sel) (imm : BitVec 9) (s s1 : State) (x : Row) (r : Nat), buf ≠ .c →
    s.rawOperand .m1 .s a = (some x, s1) → mrRow buf (x.setWidth 64) imm.toNat = some r →
    s1.rowStop false (s1.selPending .s a || s1.rowPend buf r) buf r = none →
    s1.ck.badRows.contains (rowKey buf r) = false →
    let g := (x.toNat + 256 * imm.toNat) / 16 % 16
    ∃ y : Row, exec (.ldsc buf v a imm) s = .next ((s1.touchRow buf r).write .m1 (.sc v) 4 y) ∧
      ∀ j, j < 16 - v.toNat → y.toNat / 2 ^ (8 * j) % 2 ^ 8 = (Memory.readByte (s1.ck.buf buf) (256 * r + 16 * g + j)).toNat) ∧
  (∀ (buf : Buf) (v : BitVec 6) (a : Sel) (xp : BitVec 3) (imm : BitVec 6) (s s1 : State) (x : Row) (r : Nat), buf ≠ .c →
    s.rawOperand .m1 .s a = (some x, s1) → mrRow buf (x.setWidth 64) imm.toNat = some r →
    s1.rowStop false (s1.selPending .s a || s1.rowPend buf r) buf r = none →
    s1.ck.badRows.contains (rowKey buf r) = false →
    let t := s1.touchRow buf r
    let p := patternOf (vget t.cx.xp xp.toNat)
    (p.ok = true → exec (.ldbf buf v a xp imm) s =
      .next (t.write .m1 (.v v) 8 (p.extract (vget t.cx.kb p.kb) (s1.ck.row buf r).toNat))) ∧
    (p.ok = false → exec (.ldbf buf v a xp imm) s = .next (t.fail .m1 0x75))) ∧
  (∀ (v : BitVec 4) (a : Sel) (imm : BitVec 9) (v' : BitVec 6) (xp : BitVec 3) (imm' : BitVec 6) (s : State),
    exec (.ldsc .c v a imm) s = .next (s.fail .m1 0x25) ∧ exec (.ldbf .c v' a xp imm') s = .next (s.fail .m1 0x25)) ∧
  (∀ (k : Slot) (dst a b : BitVec 6) (c : Sel) (s s1 s2 s3 : State) (x y : Row) (n : Word),
    s.readReg k .v a = (some x, s1) → s1.readReg k .v b = (some y, s2) → s2.opS k c = (some n, s3) →
    ∃ r : Row, exec (.rmg k dst a b c) s = .next (s3.write k (.v dst) 3 r) ∧ ∀ i, i < 256 →
      r.toNat / 2 ^ (8 * i) % 2 ^ 8 =
        (x.toNat + y.toNat * 2 ^ 2048) / 2 ^ (8 * ((n.toNat + i) % 512)) % 2 ^ 8) ∧
  (∀ (k : Slot) (a b : Sel) (s s1 s2 : State) (x y : Word), s.opS k a = (some x, s1) → s1.opS k b = (some y, s2) →
    (mgOffset x = none →
      exec (.guardSet k a b) s = .next (s2.fail k 0x22) ∧ exec (.guardClr k a b) s = .next (s2.fail k 0x22)) ∧
    (∀ buf off, mgOffset x = some (buf, off) →
      (off / 256 + y.toNat ≤ bufRows buf →
        exec (.guardSet k a b) s = .next { s2 with issue :=
          { s2.issue with writes := s2.issue.writes ++ [.guard true buf (off / 256) y.toNat] } } ∧
        exec (.guardClr k a b) s = .next { s2 with issue :=
          { s2.issue with writes := s2.issue.writes ++ [.guard false buf (off / 256) y.toNat] } }) ∧
      (bufRows buf < off / 256 + y.toNat →
        exec (.guardSet k a b) s = .next (s2.fail k 0x22) ∧ exec (.guardClr k a b) s = .next (s2.fail k 0x22))))

/-- R122, R368 to R370. A global load whose place resolves enters the load queue with its requests, at the aligned sum of its
operands; one of outbound memory asks for a word, or for a row in parts that the negotiated read size bounds; a full load
queue raises 0x44. ldff with a zero predicate, or with a fault that cuts its chain, enters an entry of
zeros, the latter clearing its predicate. -/
def Obligations.GlobalLoadsEnterTheQueue : Prop :=
  (∀ (k : Slot) (a b : Sel) (s s1 s2 : State) (x y : Word), s.opS k a = (some x, s1) → s1.opS k b = (some y, s2) →
    let addr (n : Nat) := (x + y).toNat - (x + y).toNat % n
    (∀ c, s2.loadAccess (addr 256) 256 = .error c → exec (.ldgRow k a b) s = .next (s2.fail k c)) ∧
    (∀ c, s2.loadAccess (addr 8) 8 = .error c → exec (.ldgWord k a b) s = .next (s2.fail k c)) ∧
    (∀ pa key u ua, s2.loadAccess (addr 256) 256 = .ok (.memory pa key u ua) → s2.cx.lq.length < 32 →
      ∃ t, exec (.ldgRow k a b) s = .next t ∧ t.cx.seq = s2.cx.seq + 1 ∧
        LoadPushed s2 t .global ((List.range 4).map (fun p => .memory (pa + 64 * p) key u (ua + 64 * p) 64 p)) 15 none) ∧
    (∀ pa key u ua, s2.loadAccess (addr 8) 8 = .ok (.memory pa key u ua) → s2.cx.lq.length < 32 →
      ∃ t, exec (.ldgWord k a b) s = .next t ∧ t.cx.seq = s2.cx.seq + 1 ∧
        LoadPushed s2 t .global [.memory pa key u ua 8 0] 1 none) ∧
    (∀ w f, s2.loadAccess (addr 256) 256 = .ok (.window w f) → s2.cx.lq.length < 32 →
      ∃ t, exec (.ldgRow k a b) s = .next t ∧ LoadPushed s2 t .remote [.remote f w] 1 none) ∧
    (∀ w f, s2.loadAccess (addr 8) 8 = .ok (.window w f) → s2.cx.lq.length < 32 →
      ∃ t, exec (.ldgWord k a b) s = .next t ∧ LoadPushed s2 t .remote [.remote f w] 1 (some (addr 8 / 8 % 32))) ∧
    (∀ p, s2.loadAccess (addr 256) 256 = .ok p → (∀ m, p ≠ .miss m) → 32 ≤ s2.cx.lq.length →
      exec (.ldgRow k a b) s = .next (s2.fail k 0x44)) ∧
    (∀ p, s2.loadAccess (addr 8) 8 = .ok p → (∀ m, p ≠ .miss m) → 32 ≤ s2.cx.lq.length →
      exec (.ldgWord k a b) s = .next (s2.fail k 0x44)) ∧
    (∀ o, s2.loadAccess (addr 256) 256 = .ok (.outbound o) → s2.cx.lq.length < 32 →
      ∃ t, exec (.ldgRow k a b) s = .next t ∧ LoadPushed s2 t .outbound
        ((outboundParts s2.readSize o 256).map (fun p => .outbound p.1 p.2 ((p.1 - o) / 64)))
        ((outboundParts s2.readSize o 256).foldl (fun m p => m ||| 2 ^ ((p.1 - o) / 64)) 0) none) ∧
    (∀ o, s2.loadAccess (addr 8) 8 = .ok (.outbound o) → s2.cx.lq.length < 32 →
      ∃ t, exec (.ldgWord k a b) s = .next t ∧ LoadPushed s2 t .outbound [.outbound o 8 0] 1 none) ∧
    (∀ m, s2.loadAccess (addr 256) 256 = .ok (.miss m) → exec (.ldgRow k a b) s = .next (s2.tlbMiss m)) ∧
    (∀ m, s2.loadAccess (addr 8) 8 = .ok (.miss m) → exec (.ldgWord k a b) s = .next (s2.tlbMiss m))) ∧
  (∀ (k : Slot) (a b : Sel) (q : BitVec 3) (s s1 s2 s3 : State) (x y m : Word), s.opS k a = (some x, s1) →
    s1.opS k b = (some y, s2) → s2.readQ k q = (some m, s3) → s3.cx.lq.length < 32 →
    let addr := (x + y).toNat - (x + y).toNat % 256
    (m = 0 → ∃ t, exec (.ldff k a b q) s = .next t ∧ LoadPushed s3 t .global [] 0 none ∧ t.cx.inflight = s3.cx.inflight) ∧
    (∀ c, m ≠ 0 → s3.loadAccess addr 256 = .error c → c ∈ probeFaults → ∃ t, exec (.ldff k a b q) s = .next t ∧
      LoadPushed s3 t .global [] 0 none ∧ t.cx.inflight = (s3.write k (.q q) 2 0).cx.inflight) ∧
    (∀ c, m ≠ 0 → s3.loadAccess addr 256 = .error c → c ∉ probeFaults → exec (.ldff k a b q) s = .next (s3.fail k c)) ∧
    (∀ pa key u ua, m ≠ 0 → s3.loadAccess addr 256 = .ok (.memory pa key u ua) → ∃ t, exec (.ldff k a b q) s = .next t ∧
      LoadPushed s3 t .global ((List.range 4).map (fun p => .memory (pa + 64 * p) key u (ua + 64 * p) 64 p)) 15 none))

/-- R368, R369, R371. A global store or atomic enters the store queue, held, at its aligned address; through a window that
grants the access it becomes a remote operation, and otherwise the window's fault is raised. An atomic also enters the load
queue for its old value. -/
def Sys2Proof.Rule.GlobalStoresAndAtomicsEnterTheQueues : Prop :=
  (∀ (k : Slot) (v a b : Sel) (s s1 s2 s3 : State) (x : Row) (y z : Word), s.opV k v = (some x, s1) →
    s1.opS k a = (some y, s2) → s2.opS k b = (some z, s3) → s3.cx.sq.length < 64 →
    let addr (n : Nat) := (y + z).toNat - (y + z).toNat % n
    (s3.cx.windowOf (addr 256) = none → ∃ t, exec (.stgRow k v a b) s = .next t ∧
      StorePushed s3 t s3.cx.seq (.global 256) (addr 256) x none none 0) ∧
    (s3.cx.windowOf (addr 8) = none → ∃ t, exec (.stgWord k v a b) s = .next t ∧
      StorePushed s3 t s3.cx.seq (.global 8) (addr 8) ((x.setWidth 64).setWidth 2048) none none 0) ∧
    (∀ i w g f, s3.cx.windowOf (addr 256) = some (i, w) → windowAccess i w (addr 256) 256 .store = .ok (g, f) →
      ∃ t, exec (.stgRow k v a b) s = .next t ∧
        StorePushed s3 t s3.cx.seq .remoteStore (addr 256) x none (some g) f) ∧
    (∀ i w g f, s3.cx.windowOf (addr 8) = some (i, w) → windowAccess i w (addr 8) 8 .store = .ok (g, f) →
      ∃ t, exec (.stgWord k v a b) s = .next t ∧
        StorePushed s3 t s3.cx.seq .remoteWord (addr 8) ((x.setWidth 64).setWidth 2048) none (some g) f) ∧
    (∀ i w c, s3.cx.windowOf (addr 256) = some (i, w) → windowAccess i w (addr 256) 256 .store = .error c →
      exec (.stgRow k v a b) s = .next (s3.fail k c))) ∧
  (∀ (k : Slot) (op : AmoOp) (v a b : Sel) (s s1 s2 s3 : State) (x : Row) (y c : Word), s.opV k v = (some x, s1) →
    s1.opS k a = (some y, s2) → s2.opS k b = (some c, s3) → s3.cx.lq.length < 32 → s3.cx.sq.length < 64 →
    let addr := y.toNat - y.toNat % 8
    let data : Row := (x.setWidth 64).setWidth 2048
    (s3.cx.windowOf addr = none → ∃ t, exec (.amogOp k op v a b) s = .next t ∧ LoadPushed s3 t .global [] 1 none ∧
      StorePushed s3 t (s3.cx.seq + 1) (.globalAtomic op c) addr data (some s3.cx.seq) none 0) ∧
    (∀ i w g f, s3.cx.windowOf addr = some (i, w) → windowAccess i w addr 8 .atomic = .ok (g, f) →
      ∃ t, exec (.amogOp k op v a b) s = .next t ∧ LoadPushed s3 t .remote [] 1 none ∧
        StorePushed s3 t (s3.cx.seq + 1) (.remoteAtomic op false c) addr data (some s3.cx.seq) (some g) f))

/-- R198. A store that finds its queue full blocks with condition 2 while an entry is committed, and raises 0x44 when every
entry is held; so do a word store and, once it has its load-queue entry, an atomic. An atomic that finds the load queue full
raises 0x44. -/
def Sys2Proof.Rule.FullStoreQueue : Prop :=
  ∀ (k : Slot) (v a b : Sel) (s s1 s2 s3 : State) (x : Row) (y z : Word), s.opV k v = (some x, s1) →
    s1.opS k a = (some y, s2) → s2.opS k b = (some z, s3) →
    let full (s : State) := if ∃ e ∈ s.cx.sq, e.status ≠ .held then s.blockOn 2 .place else s.fail k 0x44
    let allowed (addr n : Nat) (kind : AccessKind) := ∀ i w, s3.cx.windowOf addr = some (i, w) →
      ∃ p, windowAccess i w addr n kind = .ok p
    (s3.cx.sq.length = 64 →
      (allowed ((y + z).toNat - (y + z).toNat % 256) 256 .store → exec (.stgRow k v a b) s = .next (full s3)) ∧
      (allowed ((y + z).toNat - (y + z).toNat % 8) 8 .store → exec (.stgWord k v a b) s = .next (full s3)) ∧
      (∀ op, allowed (y.toNat - y.toNat % 8) 8 .atomic → s3.cx.lq.length < 32 →
        ∃ kind t, LoadPushed s3 t kind [] 1 none ∧ exec (.amogOp k op v a b) s = .next (full t))) ∧
    (∀ op, allowed (y.toNat - y.toNat % 8) 8 .atomic → 32 ≤ s3.cx.lq.length →
      exec (.amogOp k op v a b) s = .next (s3.fail k 0x44))

/-- stg and amog enter the store queue, which blocks or faults when full. -/
def Obligations.GlobalStoresEnterTheQueue : Prop :=
  Rule.GlobalStoresAndAtomicsEnterTheQueues ∧ Rule.FullStoreQueue

/-- R372 to R375, R380, R383, R338. Remote stores, loads, fetch-and-adds and multicasts enter the queues with the fabric
address that their windows or, in a privileged context, their address names; a contribution and a barrier arrival enter with a
completion entry; inval needs a privileged context and raises 0x96 otherwise. -/
def Obligations.RemoteOperationsEnterTheQueues : Prop :=
  (∀ (k : Slot) (v a : Sel) (s s1 s2 : State) (x : Row) (y : Word) (g : Option (Nat × Nat)) (f : Nat),
    s.opV k v = (some x, s1) → s1.opS k a = (some y, s2) →
    s2.remoteAccess (y.toNat - y.toNat % 256) 256 .store = .ok (g, f) → s2.cx.sq.length < 64 →
    ∃ t, exec (.rst k v a) s = .next t ∧ StorePushed s2 t s2.cx.seq .remoteStore y.toNat x none g f) ∧
  (∀ (k : Slot) (a : Sel) (s s1 : State) (y : Word) (g : Option (Nat × Nat)) (f : Nat), s.opS k a = (some y, s1) →
    s1.remoteAccess (y.toNat - y.toNat % 256) 256 .load = .ok (g, f) → s1.cx.lq.length < 32 →
    ∃ t, exec (.rld k a) s = .next t ∧ LoadPushed s1 t .remote [.remote f g] 1 none) ∧
  (∀ (k : Slot) (a b : Sel) (s s1 s2 : State) (x y : Word) (half : Bool) (g : Option (Nat × Nat)) (f : Nat),
    s.opS k a = (some x, s1) → s1.opS k b = (some y, s2) →
    let n := if half then 4 else 8
    s2.remoteAccess (x.toNat - x.toNat % n) n .atomic = .ok (g, f) → s2.cx.lq.length < 32 → s2.cx.sq.length < 64 →
    ∃ t, exec (if half then .rfaaI32 k a b else .rfaaI64 k a b) s = .next t ∧ LoadPushed s2 t .remote [] 1 none ∧
      StorePushed s2 t (s2.cx.seq + 1) (.remoteAtomic .add half 0) x.toNat (y.setWidth 2048) (some s2.cx.seq) g f) ∧
  (∀ (k : Slot) (v a b : Sel) (s s1 s2 s3 : State) (x : Row) (y z : Word) (g : Option (Nat × Nat)) (f : Nat),
    s.opV k v = (some x, s1) → s1.opS k a = (some y, s2) → s2.opS k b = (some z, s3) →
    s3.remoteAccess (y.toNat - y.toNat % 256) 256 .store = .ok (g, f) → s3.cx.sq.length < 64 →
    ∃ t, exec (.rmc k v a b) s = .next t ∧
      StorePushed s3 t s3.cx.seq (.multicast (z.setWidth 12)) y.toNat x none g f) ∧
  (∀ (k : Slot) (v : BitVec 6) (a : Sel) (ifmt : BitVec 4) (o : Bool) (nr : BitVec 2) (s s1 s2 : State) (rows : List Row)
    (x : Word), s.readRegs k v.toNat (nr.toNat + 1) = (some rows, s1) → s1.opS k a = (some x, s2) →
    s2.cx.lq.length < 32 → s2.cx.sq.length < 64 →
    ∃ t, exec (.rred k v a ifmt o nr) s = .next t ∧
      LoadPushed s2 t (.status (x.toNat % 2 ^ 12) (x.toNat / 2 ^ 20 % 2 ^ 14)) [] 1 none ∧
      StorePushed s2 t (s2.cx.seq + 1)
        (.reduce x ifmt (o && !(s2.cl.map (fun l => l.f 0 13 13 == 1)).getD false) rows) 0 0 (some s2.cx.seq) none 0) ∧
  (∀ (k : Slot) (e : BitVec 5) (a : Sel) (s s1 : State) (x : Word), s.opS k a = (some x, s1) →
    let scope := vget s1.cx.scopes e.toNat
    (s1.issue.gfrec.msb = true → exec (.fbar k e a) s = .next (s1.fail k 0x124)) ∧
    (s1.issue.gfrec.msb = false → scope.toNat % 4 = 0 → exec (.fbar k e a) s = .next (s1.fail k 0x34)) ∧
    (s1.issue.gfrec.msb = false → scope.toNat % 4 ≠ 0 → s1.cx.lq.length < 32 → s1.cx.sq.length < 64 →
      ∃ t, exec (.fbar k e a) s = .next t ∧
        LoadPushed s1 t (.status (x.toNat % 2 ^ 12) (x.toNat / 2 ^ 20 % 2 ^ 14)) [] 1 none ∧
        StorePushed s1 t (s1.cx.seq + 1) (.barrier x scope) 0 0 (some s1.cx.seq) none 0)) ∧
  (∀ (a b : Sel) (s s1 s2 : State) (x y : Word), s.opS .s0 a = (some x, s1) → s1.opS .s0 b = (some y, s2) →
    (s.cx.priv = false → exec (.inval a b) s = .next (s.fail .s0 0x96)) ∧
    (s.cx.priv = true → s2.cx.lq.length < 32 → s2.cx.sq.length < 64 →
      ∃ t, exec (.inval a b) s = .next t ∧ LoadPushed s2 t .inval [] 1 none ∧
        StorePushed s2 t (s2.cx.seq + 1) (.inval x y) 0 0 (some s2.cx.seq) none 0))

/-- R384, R385. clap and fence make their bundle a restart point and order later accesses after the earlier ones; an empty
scope entry raises 0x34. -/
def Sys2Proof.Rule.ClapsAndFences : Prop :=
  ∀ (k : Slot) (e : BitVec 5) (s : State),
    (∃ t, exec (.clap k) s = .next t ∧ t.issue.mark = true ∧ t.cx.fences = s.cx.fences ++ [⟨s.cx.seq, true, 0⟩] ∧
      t.cx.seq = s.cx.seq + 1) ∧
    (∀ scope, scope = vget s.cx.scopes e.toNat →
      (scope.toNat % 4 = 0 → exec (.fence k e) s = .next (s.fail k 0x34)) ∧
      (scope.toNat % 4 ≠ 0 → ∃ t, exec (.fence k e) s = .next t ∧ t.issue.mark = true ∧
        t.cx.fences = s.cx.fences ++ [⟨s.cx.seq, false, scope⟩] ∧ t.cx.seq = s.cx.seq + 1))

/-- R387, R388. A bar form of a barrier that is live and owned by the context's launch is noted for its bundle's commit, which
also commits the region; an arrival made twice or by no participant raises 0x33, a barrier that is not owned 0x32, an
initialisation of a live one 0x31, and bar.wait blocks with condition 5 until the generation completes. With a touched
guarded row recorded before the bundle every bar form raises 0x24. -/
def Sys2Proof.Rule.NamedBarrierForms : Prop :=
  (∀ (k : Slot) (b : BitVec 6) (a : Sel) (s : State), s.issue.gfrec.msb = true →
    ∀ i ∈ [Instr.barInit k b a, .barArr k b, .barWait k b, .barSync k b, .barDep k b, .barEnd k b],
      exec i s = .next (s.fail k 0x124)) ∧
  ∀ (k : Slot) (b : BitVec 6) (s : State), s.issue.gfrec.msb = false →
    let y := s.barView.barrier b.toNat
    let me := s.barView.ctx s.issue.ctx
    let noted (f : BarForm) := (Host.Outcome.next { s with issue :=
      { s.issue with writes := s.issue.writes ++ [.bar f b.toNat], after := true } } : Res)
    let owned := y.live = true ∧ s.cx.launch = some y.owner
    (∀ (a : Sel) (s1 : State) (x : Word), s.opS k a = (some x, s1) →
      ((s1.barView.barrier b.toNat).live = true → exec (.barInit k b a) s = .next (s1.fail k 0x31)) ∧
      ((s1.barView.barrier b.toNat).live = false → s1.ck.aboveAny s1.cycle .a ((0x1FFE00 + 8 * b.toNat) / 256) = false →
        exec (.barInit k b a) s = .next { s1 with issue := { s1.issue with
          writes := s1.issue.writes ++ [.bar (.init (max 1 (min 4095 x.toNat))) b.toNat], after := true } })) ∧
    (¬ owned → ∀ i ∈ [Instr.barArr k b, .barWait k b, .barSync k b, .barDep k b, .barEnd k b],
      exec i s = .next (s.fail k 0x32)) ∧
    (owned →
      exec (.barDep k b) s = noted .dep ∧ exec (.barEnd k b) s = noted .fin ∧
      (me.ar.getLsbD b.toNat = false → me.part.getLsbD b.toNat = true →
        exec (.barArr k b) s = noted .arr ∧ exec (.barSync k b) s = noted .sync) ∧
      (me.ar.getLsbD b.toNat = true ∨ me.part.getLsbD b.toNat = false →
        exec (.barArr k b) s = .next (s.fail k 0x33) ∧ exec (.barSync k b) s = .next (s.fail k 0x33)) ∧
      (s.cx.ar.getLsbD b.toNat = false → exec (.barWait k b) s = .next s) ∧
      (s.cx.ar.getLsbD b.toNat = true → exec (.barWait k b) s = .next (s.blockOn 5 (.barrier b.toNat))))

/-- R225, R388, R389. What a bar form does when its bundle commits. bar.init makes the barrier live for the context's launch
with its count, and every context of the launch on the core a participant that has not arrived; an arrival counts and sets the
context's AR bit, and the arrival that makes ARRIVED equal COUNT completes the generation: GEN advances, ARRIVED becomes 0,
the AR bits clear and the deferred departures leave COUNT. bar.sync whose generation is not complete holds its context. A
departure lowers COUNT at once, or, after an arrival, when the generation completes; bar.end ends the barrier. The barrier's
word in A holds COUNT, ARRIVED, GEN and LIVE. -/
def Sys2Proof.Rule.BarrierFormsTakeEffectAtTheCommit : Prop :=
  let settle (y : Barrier) : Barrier := if 1 ≤ y.count ∧ y.arrived = y.count then
      { y with gen := (y.gen + 1) % 256, arrived := 0, count := y.count - y.deferred, deferred := 0,
               live := y.live && decide (y.deferred < y.count) }
    else y
  ∀ (k : Core) (x b : Nat), b < 64 →
    let y := k.barrier b
    let t := k.ctx x
    (∀ n l k', t.launch = some l → k' = k.applyBar x (.init n) b →
      k'.barrier b = ⟨n, 0, 0, false, true, l, 0⟩ ∧
      ∀ z, if (k.ctx z).launch = some l ∧ (k.ctx z).mode ≠ .killed then
          (k'.ctx z).part.getLsbD b = true ∧ (k'.ctx z).ar.getLsbD b = false
        else k'.ctx z = k.ctx z) ∧
    (∀ f ∈ [BarForm.arr, .sync], ∀ k', k' = k.applyBar x f b →
      k'.barrier b = settle { y with arrived := y.arrived + 1 } ∧
      (1 ≤ y.count ∧ y.arrived + 1 = y.count → (k'.ctx x).syncOn = t.syncOn ∧ ∀ z, (k'.ctx z).ar.getLsbD b = false) ∧
      (¬ (1 ≤ y.count ∧ y.arrived + 1 = y.count) → (k'.ctx x).ar.getLsbD b = true ∧
        (k'.ctx x).syncOn = if f = .sync then t.syncOn ++ [b] else t.syncOn)) ∧
    (t.part.getLsbD b = false → k.applyBar x .dep b = k) ∧
    (∀ k', t.part.getLsbD b = true → k' = k.applyBar x .dep b →
      (k'.ctx x).part.getLsbD b = false ∧
      k'.barrier b = (if t.ar.getLsbD b then { y with deferred := y.deferred + 1 }
        else if y.count ≤ 1 then { y with count := 0, live := false }
        else settle { y with count := y.count - 1 })) ∧
    (∀ k', k' = k.applyBar x .fin b →
      k'.barrier b = { y with live := false } ∧
      ∀ z, (k'.ctx z).part.getLsbD b = false ∧ (k'.ctx z).ar.getLsbD b = false) ∧
    (∀ f k', f ≠ .dep ∨ t.part.getLsbD b = true → k' = k.applyBar x f b →
      (∀ i, i < 8 → Memory.readByte k'.a (0x1FFE00 + 8 * b + i) = BitVec.ofNat 8 ((k'.barrier b).word / 2 ^ (8 * i))) ∧
      ∀ a, (a < 0x1FFE00 + 8 * b ∨ 0x1FFE00 + 8 * b + 8 ≤ a) → Memory.readByte k'.a a = Memory.readByte k.a a)

/-- clap, fence and the bar forms, and what a bar form does when its bundle commits. -/
def Obligations.FencesAndNamedBarriers : Prop :=
  Rule.ClapsAndFences ∧ Rule.NamedBarrierForms ∧ Rule.BarrierFormsTakeEffectAtTheCommit

/-- R167, R204, R205. A blocked context whose condition has changed becomes ready; a restarting one whose commands have
completed resumes at its restart point with its restored copies, in patient mode after a timing trap and with every latch of
its core invalid; one whose late command has hung for 2^24 cycles is killed. -/
def Sys2Proof.Rule.ContextsWakeRestartAndHang : Prop :=
  ∀ (c x : Nat) (s : State),
    (s.mayWake c x = true → ∃ t, exec (.contextWake c x) s = .next t ∧ (t.ctxOf c x).mode = .ready ∧
      (t.ctxOf c x).block = 0 ∧ (t.ctxOf c x).wakeOn = none ∧ (t.ctxOf c x).pc = (s.ctxOf c x).pc) ∧
    (s.mayRestart c x = true → ∃ t, exec (.regionRestart c x) s = .next t ∧
      let u := s.ctxOf c x
      let v := t.ctxOf c x
      v.mode = .issuing ∧ v.pc = u.restart.pc ∧ v.g = u.restart.g ∧ v.lpc = u.restart.lpc ∧ v.regionCmds = [] ∧
      v.patient = (u.patient || u.restartKind == 1) ∧
      v.ttcount = (if u.restartKind = 1 then min 0xFFFF (u.ttcount + 1) else u.ttcount) ∧
      ∀ n, ((t.core c).latch n).valid = false) ∧
    (s.hung c x = true → ∃ t, exec (.engineHung c x) s = .next t ∧ (t.ctxOf c x).mode = .killed)

/-- R210. When an interrupt may be delivered and the held region commits, the context enters its handler: h7 holds the restart
point's address, INH is 1, UIE is 0 and the context goes on at UVEC; the results in flight are parked. A handler outside the
image kills the context instead. -/
def Sys2Proof.Rule.UserInterruptEntry : Prop :=
  ∀ (c x : Nat) (s u : State), s.mayDeliver c x = true →
    let s1 := s.modCore c (fun k => (k.landDue x (k.ctx x).cc).performDue x (k.ctx x).cc)
    s1.commitHeld c x (s1.ctxOf c x).seq (s1.ctxOf c x).heldPops = .done u →
    let uvec := (s1.ctxOf c x).uctl.toNat / 4 % 2 ^ 14
    ((s1.launch? (s1.ctxOf c x).launch).map (fun l => l.inImage uvec) = some true →
      ∃ t, exec (.uintDelivery c x) s = .next t ∧
        let v := t.ctxOf c x
        v.pc = uvec ∧ v.inh = true ∧ v.uctl.getLsbD 1 = false ∧ v.uctl.getLsbD 0 = (u.ctxOf c x).uctl.getLsbD 0 ∧
        (vget v.h 7).toNat = (u.ctxOf c x).pc % 2 ^ 64 ∧ v.inflight = [] ∧ v.s = (u.ctxOf c x).s ∧
        ∀ n, ((t.core c).latch n).valid = false) ∧
    ((s1.launch? (s1.ctxOf c x).launch).map (fun l => l.inImage uvec) = some false →
      ∃ t, exec (.uintDelivery c x) s = .next t ∧ (t.ctxOf c x).mode = .killed)

/-- R210, R328. The return from a handler: INH is 0, UIE is 1, and the context goes on at the bundle in h7. -/
def Sys2Proof.Rule.UserInterruptReturn : Prop :=
  ∀ (t : Context) (cc : Nat), let v := t.leaveHandler cc
    v.inh = false ∧ v.uctl.getLsbD 1 = true ∧ v.pc = (vget t.h 7).toNat % 2 ^ 14 ∧ v.s = t.s ∧ v.h = t.h ∧
    v.parked = [] ∧ v.redirect = t.parkedRedirect.map (fun p => (p.1 + cc, p.2)) ∧
    v.inflight.length = t.inflight.length + t.parked.length

/-- Waking, restarting, a hung engine, and the entry to and return from a user interrupt. -/
def Obligations.ContextsWakeRestartAndEnterHandlers : Prop :=
  Rule.ContextsWakeRestartAndHang ∧ Rule.UserInterruptEntry ∧ Rule.UserInterruptReturn

/-- R115, R235, R369, R371, R374, R376, R377. An answer enters the load-queue entry that awaits it, and leaves the core's
answers. A committed entry that may leave the store queue is sent, so that none with its number waits any more: a store or an
atomic of device memory as requests of its bytes to the memory that its address names, a remote store as one packet with the
next number of its class, which is then outstanding; one whose window has changed is not sent and completes with 0x15. A remote
operation unanswered for 2^24 cycles completes its entries with 0x8C, and, unless its launch has ended, raises uip bit 16 with
that code; a sequence entry unused for 2^25 cycles is removed. -/
def Obligations.QueueEvents : Prop :=
  (∀ (c i : Nat) (s : State) (r : Return), (s.core c).returns[i]? = some r →
    ∃ t, exec (.globalLoadReturn c i) s = .next t ∧ (t.core c).returns = (s.core c).returns.eraseIdx i ∧
      (t.ctxOf c r.ctx).lq = (s.ctxOf c r.ctx).lq.map (fun e =>
        if e.seq = r.seq ∧ e.id = r.id ∧ e.missing ≠ 0 then e.fill r.part r.data r.fault else e)) ∧
  (∀ (c x : Nat) (s : State) (e : StoreEntry), s.storeReady c x = some e →
    ∃ t, exec (.storeQueueSend c x) s = .next t ∧
      (∀ q ∈ (t.ctxOf c x).sq, q.seq = e.seq → q.status = .sent) ∧
      (∀ n pa key u ua, e.op = .global n → e.pa = some (pa, key, .memory u ua) →
        let m := s.placeNow (coreDie c) pa u ua
        ∃ w : State, w = { s with cores := w.cores } ∧
          (w.ctxOf c x).writes = (s.ctxOf c x).writes ++ [⟨e.seq, e.id, e.addr / 64, if n = 256 then 15 else 1, false⟩] ∧
          t = ((List.range ((n + 63) / 64)).foldl (fun v i => v.requestMemory (coreDie c) c
            ⟨.store c x e.seq i, .write (((bytesOf n e.data.toNat).drop (64 * i)).take 64), m.1, m.2 + 64 * i, pa + 64 * i,
              key, s.dieVersion (coreDie c), false⟩) w).pruneFences c x) ∧
      (∀ op y pa key u ua, e.op = .globalAtomic op y → e.pa = some (pa, key, .memory u ua) →
        let m := s.placeNow (coreDie c) pa u ua
        ∃ (w : State) (id : Nat), w = { s with cores := w.cores } ∧
          (w.ctxOf c x).writes = (s.ctxOf c x).writes ++ [⟨e.seq, e.id, e.addr / 64, 1, false⟩] ∧
          t = (w.requestMemory (coreDie c) c ⟨.atomic c x id (e.lq.getD 0) e.seq, .atomic op (e.data.setWidth 64) y,
            m.1, m.2, pa, key, s.dieVersion (coreDie c), false⟩).pruneFences c x) ∧
      (e.op = .remoteStore → e.lq = none → (s.ctxOf c x).stale e.window = false →
        let n := (vget (s.core c).txSeq x).1.toNat
        let tag := e.id + 128 * (n % 2 ^ 21)
        ∃ w : State, w = { s with cores := w.cores } ∧
          (w.ctxOf c x).remote = (s.ctxOf c x).remote ++
            [⟨tag, e.seq, 0, s.cycle, none, some e.seq, faPkg e.fabric, faCore e.fabric, true, none⟩] ∧
          (vget (w.core c).txSeq x).1 = (vget (s.core c).txSeq x).1 + 1 ∧
          t = (w.sendInternal (coreDie c) 14 0 c (.packet (Packet.sealed
            { Packet.new 0 1 0 e.fabric 0 0 0 (rowFlits e.data) with
              src := srcOf s.pkgId c x, seq := n, tag := tag }))).pruneFences c x) ∧
      (e.op = .remoteStore → e.lq = none → (s.ctxOf c x).stale e.window = true →
        t.transit = s.transit ∧ t.mods = s.mods ∧ t.zin = s.zin ∧
        ((s.ctxOf c x).launch ≠ none → (s.ctxOf c x).seqBase ≤ e.seq → (t.ctxOf c x).uip.getLsbD 16 = true ∧
          ((s.ctxOf c x).ucause.toNat % 2 ^ 13 = 0 → (t.ctxOf c x).ucause.toNat % 2 ^ 13 = 16 * 2 ^ 8 + 0x15)))) ∧
  (∀ (c i x : Nat) (s : State) (r : RemoteOp), (s.core c).remoteOps[i]? = some (x, r) → r.cls = 0 →
    r.sentAt + 2 ^ 24 ≤ s.cycle →
    ∃ t, exec (.remoteTimeout c i) s = .next t ∧
      (t.ctxOf c x).remote = (s.ctxOf c x).remote.filter (fun q => q.tag != r.tag || q.cls != r.cls) ∧
      (∀ q, r.lq = some q →
        (t.ctxOf c x).lq = (s.ctxOf c x).lq.map (fun e => if e.seq = q then e.failed 0x8C else e)) ∧
      (∀ q ∈ (t.ctxOf c x).sq, some q.seq ≠ r.sq) ∧
      ((s.ctxOf c x).launch ≠ none → (s.ctxOf c x).seqBase ≤ r.seq → (t.ctxOf c x).uip.getLsbD 16 = true ∧
        ((s.ctxOf c x).ucause.toNat % 2 ^ 13 = 0 → (t.ctxOf c x).ucause.toNat % 2 ^ 13 = 16 * 2 ^ 8 + 0x8C) ∧
        ((s.ctxOf c x).tagHeld = false → (t.ctxOf c x).ucause.toNat / 2 ^ 32 % 2 ^ 28 = r.tag % 2 ^ 28))) ∧
  (∀ (c i : Nat) (s : State) (e : SeqEntry), e.lastSeen + 2 ^ 25 ≤ s.cycle →
    (c ≠ 511 → (s.core c).seqTable[i]? = some e →
      ∃ t, exec (.seqEntryExpire c i) s = .next t ∧ (t.core c).seqTable = (s.core c).seqTable.eraseIdx i) ∧
    (s.fab.seqTable[i]? = some e →
      ∃ t, exec (.seqEntryExpire 511 i) s = .next t ∧ t.fab.seqTable = s.fab.seqTable.eraseIdx i))

/-- R256, R265 to R272, R398. The first array command whose start has come reads the rows that it streams; one that has
written its tile by its completion leaves. In the cycle of one of its writes a command writes one row of its tile: zeros for a
clear, and for a multiplication, in each element, the element that it has read, or 0 with ZERO, plus the products of its
blocks of 32, rounded block by block; no other row changes. The sequencer hands the array the next step of its macro, or all
of them as one command where DC is 0. -/
def Sys2Proof.Rule.MatrixEngineEvents : Prop :=
  (∀ (core i : Nat) (s : State) (a : ArrayCmd), (s.core core).array.findIdx? (fun c => !c.started) = some i →
    (s.core core).array[i]? = some a → a.start ≤ s.cycle →
    ∃ t, exec (.matrixCommandStart core) s = .next t ∧ (t.core core).array =
      (s.core core).array.set i { a with started := true, rows := (a.op :: a.more).map (s.core core).streamRows }) ∧
  (∀ (core i : Nat) (s : State),
    (s.core core).array.findIdx? (fun c => c.started && c.writes.isEmpty && c.complete ≤ s.cycle) = some i →
    ∃ t, exec (.matrixCommandComplete core) s = .next t ∧ (t.core core).array = (s.core core).array.eraseIdx i) ∧
  (∀ (core : Nat) (s : State) (m : MacroRun), (s.core core).macroReady s.cycle = true →
    (s.core core).macroNow = some m → m.stopped = false →
    (m.dc = 0 → ∃ t, exec (.macroStep core) s = .next t ∧
      (m.step = 0 → (t.core core).array.length = (s.core core).array.length + 1 ∧
        (t.core core).array.getLast?.map (fun c => (c.cmd, c.op, c.more)) =
          some (m.cmd, m.op 0, (List.range (m.nstep - 1)).map (fun i => m.op (i + 1)))) ∧
      (m.step ≠ 0 → (t.core core).array = (s.core core).array) ∧
      ∀ q ∈ (t.core core).macros, q.cmd = m.cmd → ∃ p ∈ (s.core core).macros, p.cmd = m.cmd ∧ q.step = p.step + 1) ∧
    (m.dc ≠ 0 → ∃ t, exec (.macroStep core) s = .next t ∧ (t.core core).array.length = (s.core core).array.length + 1 ∧
      (t.core core).array.getLast?.map (fun c => (c.cmd, c.op)) = some (m.cmd, m.op m.step) ∧
      ∀ q ∈ (t.core core).macros, q.cmd = m.cmd → ∃ p ∈ (s.core core).macros, p.cmd = m.cmd ∧ q.step = p.step + 1)) ∧
  (∀ (k : Core) (cycle i at' : Nat) (a : ArrayCmd) (rest : List Nat), k.array[i]? = some a → a.writes = at' :: rest →
    at' ≤ cycle → a.writing = true → rest.length < 128 →
    let m := 127 - rest.length
    let k' := k.matrixWrite cycle i
    k'.row .c (128 * a.op.tile + m) = a.result m ∧
    (∀ r, r ≠ 128 * a.op.tile + m → k'.row .c r = k.row .c r) ∧ k'.a = k.a ∧ k'.w = k.w) ∧
  (∀ (a : ArrayCmd) (tile m : Nat), a.op = .accz tile → a.result m = 0) ∧
  (∀ (a : ArrayCmd) (md0 md1 : Word) (sw : BitVec 32) (kba kbb : BitVec 256) (z : Bool) (st : Streamed) (m n : Nat),
    a.op = .mm md0 md1 sw kba kbb z → a.more = [] → a.rows = [st] → n < 64 →
    let d := shapeOf md0.toNat md1.toNat sw.toNat
    let old := if z then 0 else (a.acc.getD m 0).toNat / 2 ^ (32 * n) % 2 ^ 32
    let products (q : Nat) := (List.range (min 32 (d.k - 32 * q))).map (fun j => d.product st kba kbb m n (32 * q + j))
    (a.result m).toNat / 2 ^ (32 * n) % 2 ^ 32 =
      ((List.range d.q).foldl (fun c q => addBlock c (products q) (d.blockScale st m n q)) old) % 2 ^ 32 ∧
    (∀ c p ps e, (∀ v ∈ p :: ps, v ≠ .nan ∧ v ≠ .inf false ∧ v ≠ .inf true) →
      addBlock c (p :: ps) (some e) =
        (rne 0 (addVal (widen 0 c) ((ps.foldl (fun x y => (addVal x y).1) p).scale e)).1).1) ∧
    (d.n = 0 → ∀ k, d.product st kba kbb m n k = (mulVal
      (operandVal d.fa kba (elem (16 / d.p) (st.a.getD (k / d.p) 0).toNat (d.p * m + k % d.p)))
      (operandVal d.fb kbb (elem (16 / d.p) (st.w.getD (k / d.p / 2) 0).toNat
        (k / d.p % 2 * (1024 / (16 / d.p)) + d.p * n + k % d.p)))).1))

/-- R258 to R263, R274 to R276, R400, R401. The first rotator command whose start has come acts: a rap leaves in each register
pair that it names the rotated pair, an rqr leaves in the first row of the triangle what its boundary cell and its inner cells
make of the row block, an rcl clears every register. The first completed command leaves. R401 leaves the rotator without an owner
when rcl completes; that the launch of the command behind an rcl, already issued, owns it then is the model's choice (log 59). -/
def Sys2Proof.Rule.RotatorEngineEvents : Prop :=
  (∀ (core i : Nat) (s : State) (a : RotCmd), (s.core core).rot.findIdx? (fun c => !c.started) = some i →
    (s.core core).rot[i]? = some a → a.start ≤ s.cycle →
    ∃ t, exec (.rotatorCommandStart core) s = .next t ∧
      ∃ r ∈ (t.core core).rot, r.cmd = a.cmd ∧ r.started = true ∧ r.op = a.op ∧
      (a.op = .rcl → (t.core core).tri = [] ∧ (t.core core).triPending = []) ∧
      (∀ t0 inPlace deferred pairs angles, a.op = .rap t0 inPlace deferred pairs angles → ∀ j, j < 32 →
        let p := rotatePair inPlace deferred ((s.core core).triTick s.cycle) (t0 + 2 * j) (pairs.toNat / 2 ^ (64 * j) % 2 ^ 32)
          (pairs.toNat / 2 ^ (64 * j + 32) % 2 ^ 32) (angles.toNat / 2 ^ (64 * j) % 2 ^ 64)
        (t.core core).triLast (t0 + 2 * j) = p.1 ∧ (t.core core).triLast (t0 + 2 * j + 1) = p.2.1) ∧
      (∀ w row, a.op = .rqr w row → 1 ≤ w → w ≤ 32 →
        let x := toRowblock ((List.range w).map (fun j => row.toNat / 2 ^ (32 * j) % 2 ^ 32))
        let el (j : Nat) : Elem := ⟨x.2.2.getD j 0, x.2.1, x.1⟩
        let r (j : Nat) := ((s.core core).triTick s.cycle).triLast j
        let b := boundaryCell (r 0) (el 0)
        (t.core core).triLast 0 = b.1.getD (r 0) ∧
        ∀ j, 1 ≤ j → j < w → (t.core core).triLast j = (innerCell (r j) (el j) b.2.1).1.getD (r j))) ∧
  (∀ (core i : Nat) (s : State) (a : RotCmd),
    (s.core core).rot.findIdx? (fun c => c.started && c.complete ≤ s.cycle) = some i → (s.core core).rot[i]? = some a →
    ∃ t, exec (.rotatorCommandComplete core) s = .next t ∧ (t.core core).rot = (s.core core).rot.eraseIdx i ∧
      (a.op = .rcl → (t.core core).rotOwner = ((s.core core).rot.eraseIdx i).head?.map (fun c => c.launch)) ∧
      (a.op ≠ .rcl → (t.core core).rotOwner = (s.core core).rotOwner))

/-- Matrix and rotator commands start, step, write their results and complete. -/
def Obligations.EngineEvents : Prop :=
  Rule.MatrixEngineEvents ∧ Rule.RotatorEngineEvents

/-- R228, R284 to R286. A channel starts its next entry with LANDED 0 and ACTIVE 1; a row that may land is written whole to its
place; a follow-on enters the array queue; a finished entry leaves, and ACTIVE is 0 from the next cycle on; the first error of
an entry puts its channel into error with the entry's code. -/
def Obligations.CopyChannelEvents : Prop :=
  (∀ (core ch : Nat) (s : State) (e : CopyEntry), ((s.core core).chan ch).mayStart s.cycle = true →
    ((s.core core).chan ch).queue.head? = some e →
    ∃ t, exec (.copyEntryStart core ch) s = .next t ∧ ((t.core core).chan ch).active = true ∧
      ((t.core core).chan ch).landed = 0 ∧ ((t.core core).chan ch).shot = e.shot % 1024) ∧
  (∀ (core ch row : Nat) (s : State) (e : CopyEntry) (b : Buf) (r : Nat), s.rowReady core ch row = true →
    ((s.core core).chan ch).queue.head? = some e → e.place row true = .row b r →
    ∃ t, exec (.copyRowLand core ch row) s = .next t ∧
      ((t.core core).buf b) = Memory.write ((s.core core).buf b) (256 * r) (bytesOf 256 (e.srcData row).toNat) ∧
      (shotTagFill e.entry.toNat = true → b = .a → (t.core core).tags.contains r = true)) ∧
  (∀ (core ch : Nat) (s : State) (e : CopyEntry), s.followReady core ch = true →
    ((s.core core).chan ch).queue.head? = some e →
    ∃ t, exec (.followOnEnqueue core ch) s = .next t ∧ (t.core core).array.length = (s.core core).array.length + 1 ∧
      (t.core core).array.getLast?.map (fun c => (c.cmd, c.follow)) = some ((s.core core).nextCmd, some ch) ∧
      ((t.core core).chan ch).queue.head?.map (fun q => q.followCmd) = some (some (s.core core).nextCmd)) ∧
  (∀ (core ch : Nat) (s : State), s.entryDone core ch = true →
    ∃ t, exec (.copyEntryComplete core ch) s = .next t ∧
      ((t.core core).chan ch).queue = ((s.core core).chan ch).queue.tail ∧ ((t.core core).chan ch).active = false ∧
      ((t.core core).chan ch).activeAt s.cycle = true ∧ ((t.core core).chan ch).activeAt (s.cycle + 1) = false) ∧
  (∀ (core ch code : Nat) (s : State) (e : CopyEntry), ((s.core core).chan ch).queue.head? = some e → e.bad = some code →
    ((s.core core).chan ch).err = false →
    ∃ t, exec (.copyChannelError core ch) s = .next t ∧ ((t.core core).chan ch).err = true ∧
      ((t.core core).chan ch).code = code ∧ ((t.core core).chan ch).queue = [])

/-- R62, R219, R226, R378, R379. A STORE or BULK_WRITE is classified first, and the table keeps that. An accepted one writes its
first row into its buffer, and is acknowledged after its last; an accepted one whose place is refused is discarded with its
fault; a duplicate leaves every buffer alone and is acknowledged again, wherever it points; a stale one is dropped; one that
finds the table full is discarded with 0x8C. -/
def Sys2Proof.Rule.StorePacketsAtACore : Prop :=
  ∀ (c n : Nat) (s : State) (p : Packet) (ins : Instr) (opc : Nat),
    (ins = .store c n ∧ opc = 0x01 ∨ ins = .bulkWrite c n ∧ opc = 0x0E) →
    s.rxAt c n [opc] = some p → (s.core c).rxWork = none →
    let (b, r, rows) := Packet.rowsOf p
    let cl := classify (s.core c).seqTable p.src p.cls p.seq s.cycle
    let s1 := s.modCore c (fun k => { k with seqTable := cl.2 })
    ((s.core c).rxFault p = none → cl.1 = .accept →
      ∃ t : State, exec ins s = .next (if rows = 1 then t.sendResponse c p 0x08 0 [] else t) ∧ (t.core c).seqTable = cl.2 ∧
        (t.core c).buf b = Memory.write ((s.core c).buf b) (256 * r) (bytesOf 256 (p.rowAt 0).toNat) ∧
        (t.core c).rx = (if rows = 1 then (s.core c).rx.eraseIdx n else (s.core c).rx) ∧
        (t.core c).rxWork = if rows = 1 then none else some (1, [])) ∧
    (cl.1 = .duplicate → exec ins s = .next ((s1.dropRx c n).sendResponse c p 0x08 0 []) ∧
      ((s1.dropRx c n).core c).rx = (s.core c).rx.eraseIdx n ∧ ∀ b', ((s1.dropRx c n).core c).buf b' = (s.core c).buf b') ∧
    (cl.1 = .stale → exec ins s = .next (s1.dropRx c n)) ∧
    (∀ code, cl.1 = .accept → (s.core c).rxFault p = some code → exec ins s = .next (s1.refuseRx c n p code)) ∧
    (cl.1 = .full → exec ins s = .next (s1.refuseRx c n p 0x8C)) ∧
    (cl.1 ≠ .accept ∨ (s.core c).rxFault p ≠ none →
      ∃ t, exec ins s = .next t ∧ (t.core c).rx = (s.core c).rx.eraseIdx n ∧
        ∀ b', (t.core c).buf b' = (s.core c).buf b')

/-- R221, R371, R378, R379. A LOAD_REQ or BULK_READ_REQ reads its first row as it stands after the cycle's local writes, which
it keeps until the last row of the request has been read and the rows are returned, and leaves every buffer alone; an accepted
AMO replaces its word of the A buffer once, answers with the old value and keeps it for a repetition, which is answered with
it. -/
def Sys2Proof.Rule.LoadAndAtomicPacketsAtACore : Prop :=
  (∀ (c n : Nat) (s : State) (p : Packet) (ins : Instr) (opc rsp : Nat),
    (ins = .loadReq c n ∧ opc = 0x02 ∧ rsp = 0x03 ∨ ins = .bulkReadReq c n ∧ opc = 0x0F ∧ rsp = 0x10) →
    s.rxAt c n [opc] = some p → (s.core c).rxWork = none → (s.core c).rxFault p = none →
    (classify (s.core c).seqTable p.src p.cls p.seq s.cycle).1 ≠ .full →
    let (b, r, rows) := Packet.rowsOf p
    let data := rowFlits ((s.coreAfter c).row b r)
    (s.core c).badRows.contains (rowKey b r) = false →
    ∃ t : State, exec ins s = .next (if rows = 1 then t.sendResponse c p rsp 0 data else t) ∧
      (∀ b', (t.core c).buf b' = (s.core c).buf b') ∧
      (rows = 1 → (t.core c).rx = (s.core c).rx.eraseIdx n) ∧
      (rows ≠ 1 → (t.core c).rxWork = some (1, data))) ∧
  (∀ (c n : Nat) (s : State) (p : Packet) (f : AmoFields) (op : AmoOp), s.rxAt c n [0x06] = some p →
    (s.core c).rxFault p = none →
    (classify (s.core c).seqTable p.src p.cls p.seq s.cycle).1 = .accept → Packet.amo p = some f →
    amoOfCode f.op = some op →
    let r := faOff p.dest / 256
    let x := amoRow f op (faOff p.dest) ((s.core c).row .a r).toNat
    ∃ t : State, exec (.amo c n) s = .next (t.sendResponse c p 0x07 0 [x.1.setWidth 512]) ∧
      (t.core c).rx = (s.core c).rx.eraseIdx n ∧
      (t.core c).a = Memory.write (s.core c).a (256 * r) (bytesOf 256 (BitVec.ofNat 2048 x.2).toNat) ∧
      resOf (t.core c).seqTable p.src p.cls p.seq = some x.1) ∧
  (∀ (c n : Nat) (s : State) (p : Packet) (old : Word), s.rxAt c n [0x06] = some p →
    let cl := classify (s.core c).seqTable p.src p.cls p.seq s.cycle
    cl.1 = .duplicate → resOf (s.core c).seqTable p.src p.cls p.seq = some old →
    exec (.amo c n) s = .next (((s.modCore c (fun k => { k with seqTable := cl.2 })).dropRx c n).sendResponse c p 0x07 0
      [old.setWidth 512]))

/-- R376, R379. A response ends the operation that its tag names: a LOAD_RSP or AMO_RSP fills its load-queue entry, an ACK with
status 0 releases its store-queue entry, an ERROR or an ACK with another status makes its entry carry the fault, and bulk data
reaches its copy entry. A response that no operation awaits changes nothing but the packets that wait. -/
def Sys2Proof.Rule.ResponsesEndTheirOperations : Prop :=
  ∀ (c n : Nat) (s : State) (p : Packet),
    let s1 := s.modCore c (fun k => { k with rx := k.rx.eraseIdx n })
    (s1.answered c p = none → ∀ q ∈ [(Instr.loadRsp c n, 0x03), (.amoRsp c n, 0x07), (.ack c n, 0x08), (.error c n, 0x0C),
      (.bulkReadRsp c n, 0x10)], s.rxAt c n [q.2] = some p → exec q.1 s = .next s1) ∧
    (∀ x r, s1.answered c p = some (x, r) →
      let ended (i : Instr) (P : Context → Core → Prop) := ∃ t, exec i s = .next t ∧
        (t.core c).rx = (s.core c).rx.eraseIdx n ∧
        (t.ctxOf c x).remote = (s.ctxOf c x).remote.filter (fun q => q.tag != r.tag) ∧ P (t.ctxOf c x) (t.core c)
      let filled (q : Nat) (bytes : List Byte) (l : List LoadEntry) :=
        l.map (fun e => if e.seq = q then e.fill 0 bytes none else e)
      (∀ q, s.rxAt c n [0x03] = some p → r.lq = some q → ended (.loadRsp c n) (fun t _ =>
        t.lq = filled q (bytesOf 256 (p.rowAt 0).toNat) (s.ctxOf c x).lq)) ∧
      (∀ q, s.rxAt c n [0x07] = some p → r.lq = some q → ended (.amoRsp c n) (fun t _ =>
        t.lq = filled q (bytesOf 8 (p.payload.getD 0 0).toNat) (s.ctxOf c x).lq)) ∧
      (∀ q, s.rxAt c n [0x08] = some p → p.status = 0 → r.copy = none → r.sq = some q → ended (.ack c n) (fun t _ =>
        ∀ e ∈ t.sq, e.seq ≠ q)) ∧
      (∀ i, (i = .error c n ∧ s.rxAt c n [0x0C] = some p ∨ i = .ack c n ∧ s.rxAt c n [0x08] = some p ∧ p.status ≠ 0) →
        (r.copy = none → ended i (fun t _ =>
          (∀ q, r.lq = some q →
            t.lq = (s.ctxOf c x).lq.map (fun e => if e.seq = q then e.failed p.status else e)) ∧
          (∀ e ∈ t.sq, some e.seq ≠ r.sq) ∧
          ((s.ctxOf c x).launch ≠ none → (s.ctxOf c x).seqBase ≤ r.seq → t.uip.getLsbD 16 = true ∧
            (p.status < 256 → (s.ctxOf c x).ucause.toNat % 2 ^ 13 = 0 →
              t.ucause.toNat % 2 ^ 13 = 16 * 2 ^ 8 + p.status)))) ∧
        (∀ ch uid row, r.copy = some (ch, uid, row) → ended i (fun _ k =>
          (k.chan ch).queue.length = ((s.core c).chan ch).queue.length ∧
          ∀ e ∈ (k.chan ch).queue, e.uid = uid → e.bad ≠ none))) ∧
      (∀ ch uid row, s.rxAt c n [0x10] = some p → r.copy = some (ch, uid, row) → p.len = 4 → ended (.bulkReadRsp c n)
        (fun _ k => (k.chan ch).queue.length = ((s.core c).chan ch).queue.length ∧
          ∀ e ∈ (k.chan ch).queue, e.uid = uid →
            ∃ j, j < e.arrived.length ∧ (e.arrived[j]?).map (fun a => (a.1, a.2.1)) = some (row, 0))))

/-- Stores, loads and atomics that arrive at a core are performed once; a response ends the operation of its tag. -/
def Obligations.PacketsDeliveredToACore : Prop :=
  Rule.StorePacketsAtACore ∧ Rule.LoadAndAtomicPacketsAtACore ∧ Rule.ResponsesEndTheirOperations

/-- R49 to R52, R55, R68. A packet that leaves the Z die's waiting packets follows its top entry: an empty stack takes DELIVER
for this package or a live alternative; FWD sends it to its port with one hop more, or, where the port is not up, the packet
takes a new selection with its hops kept, and is discarded with 0x82 when there is none or the hops would exceed 8; DELIVER,
COMBINE and FANOUT with legal arguments deliver it, hand it to its node, and fan it out. -/
def Sys2Proof.Rule.PacketsFollowTheirRoutes : Prop :=
  ∀ (n : Nat) (s : State) (z : ZPacket), s.zAt n = some z →
    (s.zStage z = .fill → faPkg z.pkt.dest = s.pkgId → Packet.toNode z.pkt = false →
      ∃ t, exec (.packetRouteFill n) s = .next t ∧ (t.zin[n]?).map (fun y => (y.pkt.top, y.pkt.depth, y.pkt.hops)) =
        some (rtEntry 1 0, 1, 0)) ∧
    (∀ l, s.zStage z = .fill → faPkg z.pkt.dest ≠ s.pkgId → s.selectRoute z.pkt = some l →
      ∃ t, exec (.packetRouteFill n) s = .next t ∧ (t.zin[n]?).map (fun y => (y.pkt.depth, y.pkt.hops)) =
        some (l.length, 0)) ∧
    (s.zStage z = .fill → faPkg z.pkt.dest ≠ s.pkgId → s.selectRoute z.pkt = none →
      exec (.packetRouteFill n) s = .next ((s.takeZ n).discard z 0x82)) ∧
    (s.zStage z = .fwd → rtArg z.pkt.top = 0 → s.portUp (rtPort z.pkt.top) = true → z.pkt.pop.hops ≠ 8 →
      ∃ t, exec (.routeFwd n) s = .next t ∧
        (t.port (rtPort z.pkt.top)).out.getLast?.map (fun o => o.z.pkt) = some z.pkt.pop ∧
        z.pkt.pop.hops = z.pkt.hops + 1 ∧ z.pkt.pop.depth = z.pkt.depth - 1) ∧
    (s.zStage z = .fwd → rtArg z.pkt.top = 0 → s.portUp (rtPort z.pkt.top) = true → z.pkt.pop.hops = 8 →
      exec (.routeFwd n) s = .next ((s.takeZ n).discard z 0x81)) ∧
    (∀ l, s.zStage z = .fwd → rtArg z.pkt.top = 0 → s.portUp (rtPort z.pkt.top) = false →
      s.selectRoute z.pkt.pop = some l → z.pkt.pop.hops + l.length ≤ 8 →
      ∃ t, exec (.routeFwd n) s = .next t ∧ t.zin.head?.map (fun y => (y.pkt.depth, y.pkt.hops, y.pkt.payload)) =
        some (l.length, z.pkt.pop.hops, z.pkt.payload)) ∧
    (s.zStage z = .fwd → rtArg z.pkt.top = 0 → s.portUp (rtPort z.pkt.top) = false →
      (∀ l, s.selectRoute z.pkt.pop = some l → 8 < z.pkt.pop.hops + l.length) →
      exec (.routeFwd n) s = .next ((s.takeZ n).discard { z with pkt := z.pkt.pop, space := false } 0x82)) ∧
    (s.zStage z = .bad → exec (.routeFwd n) s = .next ((s.takeZ n).discard z 0x81)) ∧
    (s.zStage z = .deliver → rtPort z.pkt.top = 0 → rtArg z.pkt.top = 0 → faPkg z.pkt.dest = s.pkgId →
      z.pkt.pop.depth = 0 →
      exec (.routeDeliver n) s = .next ((s.takeZ n).deliver { z with pkt := z.pkt.pop } (faCore z.pkt.dest))) ∧
    (∀ h, s.zStage z = .combine → rtPort z.pkt.top = 0 → rtArg z.pkt.top < 2 ^ 14 → z.poison = false →
      z.pkt.ecrc = z.pkt.crc → (s.takeZ n).group z.pkt.group = some h → h.f 101 88 = rtArg z.pkt.top →
      Packet.toNode z.pkt = true →
      ∃ t, exec (.routeCombine n) s = .next t ∧
        t.fab.handed = s.fab.handed ++ [{ z with pkt := z.pkt.pop }]) ∧
    (s.zStage z = .fanout → rtPort z.pkt.top = 0 → rtArg z.pkt.top < 2 ^ 12 → z.pkt.pop.hops < 8 → z.poison = false →
      exec (.routeFanout n) s = .next ((s.takeZ n).fanOut z.pkt.pop (rtArg z.pkt.top) z.port .sender))

/-- R55, R57. An acknowledgement takes its copy away from its fan-out point, and a point without copies is finished; copies
that have waited 2^MCWAIT cycles are lost. -/
def Sys2Proof.Rule.FanOutPointsSettle : Prop :=
  (∀ (n id place : Nat) (s : State) (z : ZPacket) (f : Fan), s.zAt n = some z → s.fanOf z = some (id, place) →
    z.invalid = false → z.pkt.ecrc = z.pkt.crc → s.fab.fans.find? (fun y => y.id == id) = some f →
    ∃ t, exec (.fanoutAck n) s = .next t ∧
      (f.copies.all (fun c => c.1 == place) = true → ∀ y ∈ t.fab.fans, y.id ≠ id) ∧
      (f.copies.all (fun c => c.1 == place) = false → ∃ y ∈ t.fab.fans, y.id = id ∧
        y.copies = f.copies.filter (fun c => c.1 != place))) ∧
  (∀ (id : Nat) (s : State) (f : Fan), s.fab.fans.find? (fun y => y.id == id) = some f →
    f.copies ≠ [] → f.copies.all (fun c => c.2 + 2 ^ s.mcwait ≤ s.cycle) = true →
    ∃ t, exec (.fanoutAckTimeout id) s = .next t ∧ ∀ y ∈ t.fab.fans, y.id ≠ id)

/-- R56. The registers at +0, +8 and +16 of an alternative change its staging copy alone; the one at +24 publishes the staging
copy with its LEN in one step, a LEN of 7 as 0 and reported as a refused configuration in MGMTERR.CFG. -/
def Sys2Proof.Rule.RouteTableWrites : Prop :=
  ∀ (k w : Nat) (v : Word) (s : State), k < 32768 → w < 4 →
    let offset := 0x1000000 + 32 * k + 8 * w
    let old := Assoc.get s.fab.staging k 0
    (w ≠ 3 → ∃ t, exec (.routeTableStageWrite offset v) s = .next t ∧ t.fab.routes = s.fab.routes ∧
      ∀ i, i < 192 → (Assoc.get t.fab.staging k 0).getLsbD i =
        if 64 * w ≤ i ∧ i < 64 * w + 64 then v.getLsbD (i - 64 * w) else old.getLsbD i) ∧
    (w = 3 → ∃ t, exec (.routeTablePublish offset v) s = .next t ∧ t.fab.staging = s.fab.staging ∧
      (Assoc.get t.fab.routes k 0).toNat = old.toNat + (if v.toNat % 8 = 7 then 0 else v.toNat % 8) * 2 ^ 192 ∧
      t.mgmt.cfgErr = (s.mgmt.cfgErr || decide (v.toNat % 8 = 7)))

/-- R48, R84, R85, R378. An access to a ring is classified first, and the table keeps that. A RING_WRITE of an accepted packet
fills its empty slot for all readers and is acknowledged, and a repeated one is acknowledged again; a RING_READ returns the
slot's data and takes one reader away, emptying the slot with the last one; a full slot refuses a write with 0x8A and an empty
one a read with 0x8B. By the model's choice (log 64) a management packet is taken by its die. -/
def Sys2Proof.Rule.RingAccesses : Prop :=
  let classified (s : State) (n : Nat) (z : ZPacket) := (s.dropHanded n).setZTable
    (classify s.fab.seqTable z.pkt.src z.pkt.cls z.pkt.seq s.cycle).2
  let verdict (s : State) (z : ZPacket) := (classify s.fab.seqTable z.pkt.src z.pkt.cls z.pkt.seq s.cycle).1
  (∀ (n ring slot : Nat) (s : State) (z : ZPacket), s.ringAt n 0x01 0x0E = some z →
    (s.dropHanded n).ringPlace z.pkt.dest = some (ring, slot) →
    z.pkt.len = 16 → z.fan = none → verdict s z = .accept →
    (Assoc.find (s.dropHanded n).fab.ringSlots (256 * ring + slot) = none →
      ∃ t, exec (.ringWrite n) s = .next t ∧ Assoc.find t.fab.ringSlots (256 * ring + slot) =
        some (s.ringCfg ring / 2 ^ 48 % 2 ^ 8, z.pkt.payload) ∧
        t.zin.getLast?.map (fun y => y.pkt) = some (z.pkt.respond s.zSrc 0x08 0 [])) ∧
    (∀ x, Assoc.find (s.dropHanded n).fab.ringSlots (256 * ring + slot) = some x →
      exec (.ringWrite n) s = .next ((classified s n z).discard z 0x8A))) ∧
  (∀ (n : Nat) (s : State) (z : ZPacket), s.ringAt n 0x01 0x0E = some z → verdict s z = .duplicate →
    exec (.ringWrite n) s = .next ((classified s n z).zRespond z 0x08 [])) ∧
  (∀ (n ring slot : Nat) (s : State) (z : ZPacket), s.ringAt n 0x02 0x0F = some z →
    (s.dropHanded n).ringPlace z.pkt.dest = some (ring, slot) →
    z.pkt.oparg = 4 → z.fan = none → verdict s z ≠ .full →
    (∀ k data, Assoc.find (s.dropHanded n).fab.ringSlots (256 * ring + slot) = some (k, data) → 1 < k →
      ∃ t, exec (.ringRead n) s = .next t ∧ Assoc.find t.fab.ringSlots (256 * ring + slot) = some (k - 1, data) ∧
        t.zin.getLast?.map (fun y => y.pkt.payload) = some data) ∧
    (∀ data, Assoc.find (s.dropHanded n).fab.ringSlots (256 * ring + slot) = some (1, data) →
      ∃ t, exec (.ringRead n) s = .next t ∧ Assoc.find t.fab.ringSlots (256 * ring + slot) = none ∧
        t.zin.getLast?.map (fun y => y.pkt.payload) = some data) ∧
    (Assoc.find (s.dropHanded n).fab.ringSlots (256 * ring + slot) = none →
      exec (.ringRead n) s = .next ((classified s n z).discard z 0x8B))) ∧
  (∀ (n : Nat) (s : State) (z : ZPacket), s.handedAt n 0x0D = some z → exec (.mgmt n) s = .next (s.dropHanded n))

/-- Routing, fan-out points, route-table writes, and ring accesses on the Z die. -/
def Obligations.PacketsOnTheZDie : Prop :=
  Rule.PacketsFollowTheirRoutes ∧ Rule.FanOutPointsSettle ∧ Rule.RouteTableWrites ∧ Rule.RingAccesses

/-- R94, R98, R369, R371. A request that its controller serves leaves it and is answered: a read with its bytes, or with 0x2E
when its block is or becomes poisoned, what it finds being counted; a write stores exactly its bytes, part of a block that
cannot be read being discarded; an atomic replaces its word and is answered with the old one. A request whose place has moved
is forwarded. -/
def Obligations.MemoryRequestsAreServed : Prop :=
  ∀ (i : Nat) (s : State) (r : MemReq), s.mem.reqs[i]? = some r →
    let s1 := s.modMem (fun m => { m with reqs := m.reqs.eraseIdx i })
    let lost := s.lost r.unit r.uaddr
    let at0 := memKey r.unit r.uaddr
    (s.atUnit r = .serve → s.reqFault r = none →
      (∀ n f, r.op = .read n →
        let g := worstFinding f (s.upset r.unit r.uaddr)
        let u := match g with
          | .clean => s1
          | .oneSymbol => s1.countEcc r.unit 1 0
          | .uncorrectable => (s1.countEcc r.unit 0 1).poisonBlock r.unit r.uaddr
        (s.poisoned r.unit r.uaddr = false → exec (.memoryRead i f) s = .next (u.answerReq r (if g = .uncorrectable then .err 0x2E
          else .ok (((u.blockRead r.unit r.uaddr r.pa r.key).drop (r.uaddr % 64)).take n)))) ∧
        (s.poisoned r.unit r.uaddr = true → exec (.memoryRead i f) s = .next ((s1.countEcc r.unit 0 1).answerReq r (.err 0x2E)))) ∧
      (∀ data, r.op = .write data → r.uaddr % 64 + data.length ≤ 64 →
        (lost = true → data.length < 64 →
          exec (.memoryWrite i) s = .next ((s1.checkBlock r.unit r.uaddr .clean).answerReq r (.err 0x2E))) ∧
        (lost = false ∨ data.length = 64 → r.key = 0 →
          ∃ u : State, exec (.memoryWrite i) s = .next (u.answerReq r (.ok [])) ∧ u.mem.reqs = s.mem.reqs.eraseIdx i ∧
            u.poisoned r.unit r.uaddr = false ∧ ∀ a, Memory.readByte u.mem.mem a =
              if at0 ≤ a ∧ a < at0 + data.length then data.getD (a - at0) 0 else Memory.readByte s.mem.mem a)) ∧
      (∀ op v c, r.op = .atomic op v c → lost = false → r.key = 0 → r.uaddr % 8 = 0 →
        ∃ (u : State) (old : Nat), exec (.memoryAtomic i .clean) s = .next (u.answerReq r (.ok (bytesOf 8 old))) ∧
          old = ofBytes (Memory.read s.mem.mem at0 8) ∧ ∀ a, Memory.readByte u.mem.mem a =
            if at0 ≤ a ∧ a < at0 + 8 then
              BitVec.ofNat 8 ((amoApply op (BitVec.ofNat 64 old) v c).1.toNat / 2 ^ (8 * (a - at0)))
            else Memory.readByte s.mem.mem a)) ∧
    (∀ u a late n, s.atUnit r = .forward u a late → r.op = .read n →
      exec (.memoryRead i .clean) s = .next (s1.forwardReq r u a late))

/-- R91 to R93, R95. An advance or a migration is refused while one is under way, and with the lowest failing entry in ERRENT;
an accepted one makes the next bank current and begins its drain. A die that hears of the version stamps it; the drain ends
when nothing of the old version is left. The model's choices (log 19): a refused GO stores REGION and RESUME, ERRENT is REGION
where the migration's own checks fail, and ACTIVE stays 1 after the drain while requests of the old version stand at their
controllers. -/
def Obligations.RegionVersionsAndMigrations : Prop :=
  (∀ s : State,
    (s.mem.draining = true ∨ s.mem.migActive = true → ∀ v,
      exec .regionAdvance s = .next (s.modMem (fun m => { m with err := true })) ∧
      exec (.migrationStart v) s = .next (s.modMem (fun m => { m with
        migSel := v.toNat % 16, migResume := v.getLsbD 6, err := true }))) ∧
    (s.mem.draining = false → s.mem.migActive = false →
      (∀ e, s.bankFault s.nextVer = some e →
        exec .regionAdvance s = .next (s.modMem (fun m => { m with err := true, errEnt := e })) ∧
        ∀ v : Word, exec (.migrationStart v) s = .next (s.modMem (fun m => { m with
          migSel := v.toNat % 16, migResume := v.getLsbD 6, err := true, errEnt := e }))) ∧
      (s.bankFault s.nextVer = none → ∃ t, exec .regionAdvance s = .next t ∧ t.mem.old = s.mem.cur ∧
        t.mem.cur = (s.mem.cur + 1) % 4 ∧ t.mem.draining = true ∧ t.mem.regions = s.mem.regions ∧
        ∀ d, d < 15 → t.dieVersion d = s.mem.cur) ∧
      (∀ v : Word, s.bankFault s.nextVer = none → s.migrationOk (v.toNat % 16) s.nextVer = true →
        ∃ t, exec (.migrationStart v) s = .next t ∧ t.mem.migActive = true ∧ t.mem.migRegion = v.toNat % 16 ∧
          t.mem.cursor = 0 ∧ t.mem.old = s.mem.cur ∧ t.mem.cur = (s.mem.cur + 1) % 4 ∧ t.mem.draining = true) ∧
      (∀ v : Word, s.bankFault s.nextVer = none → s.migrationOk (v.toNat % 16) s.nextVer = false →
        ∃ t, exec (.migrationStart v) s = .next t ∧ t.mem.migActive = false ∧ t.mem.err = true ∧
          t.mem.errEnt = v.toNat % 16 ∧ t.mem.cur = s.mem.cur))) ∧
  (∀ (die i v : Nat) (s : State), s.mem.markers[i]? = some (die, v) →
    (v < 4 → exec (.drainMarker die i) s = .next (s.modMem (fun m => { m with markers := m.markers.eraseIdx i }))) ∧
    (4 ≤ v → ∃ t, exec (.drainMarker die i) s = .next t ∧ t.dieVersion die = s.mem.cur)) ∧
  (∀ s : State, s.drained = true → ∃ t, exec .drainComplete s = .next t ∧ t.mem.draining = false ∧
    (∀ d, t.dieVersion d = s.mem.cur) ∧
    t.mem.migActive = (s.mem.migActive && !(s.mem.cursor == s.migBlocks && s.mem.reqs.all (fun r => r.ver != s.mem.old)))) ∧
  (∀ (s : State) (o n : Nat × Nat), s.copyReady = some (o, n) →
    ∃ t, exec .migrationBlockCopy s = .next t ∧ t.mem.cursor = s.mem.cursor + 1 ∧
      ∀ a, Memory.readByte t.mem.mem a = if memKey n.1 n.2 ≤ a ∧ a < memKey n.1 n.2 + 4096 then
        Memory.readByte s.mem.mem (memKey o.1 o.2 + (a - memKey n.1 n.2)) else Memory.readByte s.mem.mem a) ∧
  (∀ s : State, s.mem.migActive = true → exec .migrationResume s =
    .next (s.modMem (fun m => { m with migStopped := false }))) ∧
  (∀ s : State, s.mem.cursor < 2 ^ 32 → s.mem.late < 2 ^ 16 → s.mem.early < 2 ^ 16 →
    ∃ t, exec .migstatRead s = .next t ∧
      t.mgmt.readData.toNat = s.mem.cursor * 2 ^ 32 + s.mem.late * 2 ^ 16 + s.mem.early ∧
      t.mem = { s.mem with late := 0, early := 0 })

/-- R97 to R99, R101. A scrub read counts and poisons what it finds; reading ECCCNT clears its counts; a far port goes down,
stopping a migration that uses it, and comes back; a key slot is loaded from two distinct halves of a block, which becomes
zero, and enabled only once loaded. The model's choices: a key block that cannot be read loads none, with ERR (log 72); a key block
in a region that migrates is read where R94 serves it, after the copy of its block where that is due (log 71). -/
def Obligations.MemoryMaintenance : Prop :=
  (∀ (u block : Nat) (s : State), s.mem.scrub ≠ 0 → u < 20 → 64 * block + 64 ≤ s.unitCap u → s.unitUp u = true →
    s.mem.reqs.any (fun r => r.unit == u) = false →
    (s.poisoned u (64 * block) = false → ∀ f, exec (.scrubRead u block f) s = .next (
      match worstFinding f (s.upset u (64 * block)) with
      | .clean => s.cleanBlock u (64 * block)
      | .oneSymbol => (s.countEcc u 1 0).cleanBlock u (64 * block)
      | .uncorrectable => (s.countEcc u 0 1).poisonBlock u (64 * block))) ∧
    (s.poisoned u (64 * block) = true → ∀ f, exec (.scrubRead u block f) s = .next (s.countEcc u 0 1))) ∧
  (∀ (u : Nat) (s : State) (c n : Nat), Assoc.get s.mem.ecc u (0, 0) = (c, n) → c < 2 ^ 32 → n < 2 ^ 16 →
    ∃ t, exec (.ecccntRead u) s = .next t ∧ t.mgmt.readData.toNat = c * 2 ^ 32 + n * 2 ^ 16 ∧
      Assoc.get t.mem.ecc u (0, 0) = (0, 0)) ∧
  (∀ (p : Nat) (s : State),
    (∃ t, exec (.cxlPortDown p) s = .next t ∧ t.unitUp (12 + p) = false ∧
      (s.migUses p = true → s.mem.cursor < s.migBlocks → t.mem.migErr = true ∧ t.mem.migStopped = true)) ∧
    ((Assoc.find s.mem.farCap p).isSome = true → ∃ t, exec (.cxlPortRetrain p) s = .next t ∧ t.unitUp (12 + p) = true)) ∧
  (∀ (v : Word) (s : State),
    let s1 := s.keyFields v
    let s2 := s1.meetMigration 15 (64 * (v.toNat / 2 ^ 12 % 2 ^ 46))
    let k := v.toNat / 2 ^ 4 % 2 ^ 8
    (∀ u a, s2.keyBlock = some (u, a) →
      let d := Memory.read s2.mem.mem (memKey u a) 64
      (k ≠ 0 → s.keyEnabled k = false → s2.lost u a = false → ofBytes (d.take 32) ≠ ofBytes (d.drop 32) →
        ∃ t, exec (.keyLoad v) s = .next t ∧ (t.key k).loaded = true ∧ (t.key k).enabled = false ∧
          (t.key k).dataKey.toNat = ofBytes (d.take 32) ∧ (t.key k).tweakKey.toNat = ofBytes (d.drop 32) ∧
          ∀ x, Memory.readByte t.mem.mem x =
            if memKey u a ≤ x ∧ x < memKey u a + 64 then 0 else Memory.readByte s2.mem.mem x) ∧
      (k = 0 ∨ s.keyEnabled k = true ∨ s2.lost u a = true ∨ ofBytes (d.take 32) = ofBytes (d.drop 32) →
        exec (.keyLoad v) s = .next (s2.checkBlock u a .clean).refuseKey)) ∧
    (s2.keyBlock = none → exec (.keyLoad v) s = .next s2.refuseKey) ∧
    (s.mem.migActive = false → s2 = s1) ∧
    (k ≠ 0 → (s.key k).loaded = true → ∃ t, exec (.keyEnable v) s = .next t ∧ t.keyEnabled k = true) ∧
    (k = 0 ∨ (s.key k).loaded = false → exec (.keyEnable v) s = .next s1.refuseKey) ∧
    (k ≠ 0 → ∃ t, exec (.keyDisable v) s = .next t ∧ t.keyEnabled k = false))

/-- R105, R107, R109 to R112. A walk that ends installs its entry for each core that waits and may use it, or leaves its
fault; a stale one is walked again. A posted invalidation is queued, the oldest queued one is started and drops what it
matches, noting the accesses and the copies that its acknowledgements wait for, and it completes with its last
acknowledgement; a pin that outlasts 64 µs fails its channel with 0x18. The model's choice (log 23): DONE is 1 only once no
other posted request is queued. -/
def Obligations.WalksAndInvalidations : Prop :=
  (∀ (i : Nat) (s : State) (w : WalkReq), i < 64 → s.mem.walks[i]? = some w →
    (w.stale = true → ∃ t, exec (.pageWalkComplete i) s = .next t ∧
      t.mem.walks = s.mem.walks.eraseIdx i ++ [{ w with stale := false }] ∧ t.cores = s.cores) ∧
    let u := (s.modMem (fun m => { m with walks := m.walks.eraseIdx i })).checkWalk w.asid (4096 * w.page)
    (w.stale = false → ∀ e seen, u.walk w.asid (4096 * w.page) = .ok (e, seen) →
      ∃ t, exec (.pageWalkComplete i) s = .next t ∧ t.mem.walks = s.mem.walks.eraseIdx i ∧
        ∀ c k, (Holder.core c, k) ∈ w.waiters → (u.leafFault e k = none → e ∈ (t.core c).tlb) ∧
          (u.leafFault e k ≠ none → (c, w.asid, w.page) ∈ t.mem.walkFaults)) ∧
    (w.stale = false → ∀ code, u.walk w.asid (4096 * w.page) = .error code →
      ∃ t, exec (.pageWalkComplete i) s = .next t ∧ t.mem.walks = s.mem.walks.eraseIdx i ∧
        ∀ c k, (Holder.core c, k) ∈ w.waiters → (c, w.asid, w.page) ∈ t.mem.walkFaults)) ∧
  (∀ (v : Word) (s : State),
    (16 ≤ s.mem.invQueue.length → exec (.invalidationPost v) s = .next s.refuseCfg) ∧
    (s.mem.invQueue.length < 16 → ∃ t, exec (.invalidationPost v) s = .next t ∧ t.mem.invDone = false ∧
      t.mem.invQueue = s.mem.invQueue ++ [⟨v.toNat / 2 ^ 48, v.getLsbD 3, s.mem.invAddr / 4096, v.toNat / 2 ^ 8 % 2 ^ 32,
        none⟩])) ∧
  (∀ (s : State) (i : Invalidation) (l : List Invalidation), s.mem.invNow = none → s.mem.invQueue = i :: l →
    ∃ t, exec .invalidationStart s = .next t ∧ t.mem.invNow = some ⟨i, s.ticks, s.holders, s.accessesOpen i,
        (s.cores.map (fun p => s.openCopies i p.1)).flatten⟩ ∧
      t.mem.invQueue = l ++ s.mem.invWaiting.take 1 ∧
      ∀ c, (t.core c).tlb = (s.core c).tlb.filter (fun e => !i.hits e.asid e.va e.size)) ∧
  (∀ (n : Nat) (s : State) (r : InvRun), s.mem.invNow = some r → r.holders.contains (holderOf n) = true →
    s.mayAck r (holderOf n) = true →
    (r.holders.all (· == holderOf n) = true → r.inv.origin = none →
      ∃ t, exec (.tlbInvalidationAck n) s = .next t ∧ t.mem.invNow = none ∧
        (t.mem.invDone = true ↔ ∀ j ∈ s.mem.invQueue, j.origin ≠ none)) ∧
    (r.holders.all (· == holderOf n) = false → ∃ t, exec (.tlbInvalidationAck n) s = .next t ∧
      t.mem.invNow = some { r with holders := r.holders.filter (· != holderOf n) })) ∧
  (∀ (c ch : Nat) (s : State) (r : InvRun), s.mem.invNow = some r → s.pinExpired r c ch = true → ch < 16 →
    ((s.core c).chan ch).err = false →
    ∃ t, exec (.pinTimeout c ch) s = .next t ∧ ((t.core c).chan ch).err = true ∧ ((t.core c).chan ch).code = 0x18 ∧
      ((t.core c).chan ch).queue = [])

/-- R154, R155, R38, R33, R156, R158. The launch that is next takes its placement and the lowest free contexts of each core,
or is rejected for a core that is no longer available; loading ends in rehearsal, or in LOAD_FAULT with what was loaded before the
fault; each wave counts; at the action cycle every context of the placement is seeded and the launch runs, TACT being the cycle
counter of R31; priority 7 is noted once. -/
def Obligations.LaunchesStart : Prop :=
  (∀ (key : Nat) (s : State) (l : Launch) (place : List Nat), s.launch? (some key) = some l →
    s.nextDispatch = some (key, place) →
    (place.all (fun c => s.coresAvail.getLsbD c) = true → ∃ t, exec (.launchDispatch key) s = .next t ∧
      t.launch? (some key) = some { l with
        state := .loading, place := place, order := s.sched.dispatches + 1, tdisp := s.ticks } ∧
      ∀ c x, c ∈ place → x ∈ (s.freeFor (some key) c).take l.ctxPer → (t.ctxOf c x).launch = some key ∧ (t.ctxOf c x).home = x) ∧
    (place.all (fun c => s.coresAvail.getLsbD c) = false → ∃ t, exec (.launchDispatch key) s = .next t ∧
      t.launch? (some key) = some { l with status := 7 } ∧ t.cores = s.cores)) ∧
  (∀ (key : Nat) (s : State) (l : Launch), s.launch? (some key) = some l → l.state = .loading →
    (∀ u l', s.loadSteps key l = .ok u → u.launch? (some key) = some l' → ∃ t, exec (.loadingComplete key) s = .next t ∧
      t.cores = u.cores ∧ t.launch? (some key) = some { l' with
        state := .rehearsal, t0 := u.cycle + 1, wave := 0, action := u.cycle + 1 + 64 * ((l.place.length + 7) / 8) + 64 }) ∧
    (∀ e u l', s.loadSteps key l = .error (e, u) → u.launch? (some key) = some l' →
      ∃ t, exec (.loadingComplete key) s = .next t ∧
        t.launch? (some key) = some { l' with
          state := .draining, status := 5, detail := e.step, fcode := e.code, fcore := e.core, faddr := e.at'
          enumerated := true })) ∧
  (∀ (key : Nat) (s : State) (l : Launch), s.launch? (some key) = some l →
    (s.waveDue l = true → ∃ t, exec (.rehearsalWave key) s = .next t ∧ t.cores = s.cores ∧
      t.launch? (some key) = some { l with wave := l.wave + 1 }) ∧
    (s.actionDue l = true → ∃ t, exec (.actionCycle key) s = .next t ∧
      t.launch? (some key) = some { l with
        state := .running, tact := s.elapsed, stepSlots := if l.standing then [] else [(0, 0)], enumerated := false } ∧
      ∀ c x, c ∈ l.place → x < 4 → (s.ctxOf c x).launch = some key → (t.ctxOf c x).g = (l.seed c).rotateLeft (8 * x)) ∧
    (s.agesNow l = true → ∃ t, exec (.priorityAgeing key) s = .next t ∧ t.cores = s.cores ∧
      t.launch? (some key) = some { l with urgentAt := some (l.accepted + (7 - l.prio) * 2 ^ 16) }))

/-- R163, R200, R201, R215. Every context that a launch lacks and may take is pre-empted; one whose requests are answered is
saved with its address and leaves its hardware context to no launch; a saved one resumes with the registers of its record, or
is killed when its check differs. The model's choices: a restart that is due is taken before the save, and the issue numbers of a
resumed context move up past those of its hardware context (log 26); its opaque parts are the ones that the saved context held,
the record's opaque bytes being checked alone (log 43). -/
def Obligations.ContextsArePreemptedAndResumed : Prop :=
  (∀ (key : Nat) (s : State) (l : Launch) (v : List (Nat × Nat)), s.launch? (some key) = some l →
    s.victims key l = some v → ∃ t, exec (.contextPreempt key) s = .next t ∧
      ∀ c x, (c, x) ∈ v → (t.ctxOf c x).mode = .saved) ∧
  (∀ (c x : Nat) (s u : State) (l : Launch), s.maySave c x = true →
    let s1 := s.modCtx c x (·.settleRestart)
    let t := s1.ctxOf c x
    s1.launch? t.launch = some l → l.cancelled = false → s1.writeRecord c t .saved 0 = (none, u) →
    ∃ v, exec (.contextSaveComplete c x) s = .next v ∧ (v.ctxOf c x).launch = none ∧ (v.ctxOf c x).mode = .free ∧
      (v.core c).saved = (u.core c).saved ++ [⟨t, l.save + 65536 * (l.ordinal c * 4 + t.home)⟩]) ∧
  (∀ (key c home i x : Nat) (s u : State) (b : List Byte) (v : Saved) (l : Launch),
    s.resumable key c home = some (i, x) → (s.core c).saved[i]? = some v → s.launch? (some key) = some l →
    s.agentRead (.core c) (coreDie c) l.asid v.addr 65536 .load = (.ok b, u) →
    (crc32 (checkedBytes b) = word8 b 0x50 % 2 ^ 32 → ∃ t, exec (.contextResume key c home) s = .next t ∧
      t.ctxOf c x = (v.ctx.restore b).resumed.shiftSeq (s.ctxOf c x).seq) ∧
    (crc32 (checkedBytes b) ≠ word8 b 0x50 % 2 ^ 32 → ∃ t, exec (.contextResume key c home) s = .next t ∧
      (t.ctxOf c x).mode = .killed))

/-- R159, R160. Under dynamic distribution the next point of a running launch goes to a context: the idle one that became free first
begins it at once with its nine preset registers, its entry bundle and its literal base; with none idle, the first one that has no
pending iteration keeps it as its pending one; ISSUED counts. -/
def Sys2Proof.Rule.IterationsAreHandedOut : Prop :=
  (∀ (key c x : Nat) (s : State) (l l' : Launch) (i : Iteration), s.launch? (some key) = some l → l.handing = true →
    l.f 0 19 19 = 0 → pickContext true (s.launchContexts key) = some (c, x) → l.stepSlots ≠ [] → l.atInstant = false →
    l.enumerate = (some i, l') →
    ∃ t, exec (.iterationHandout key) s = .next t ∧ t.launch? (some key) = some { l' with issued := l'.issued + 1 } ∧
      ((s.ctxOf c x).idle = true → t.ctxOf c x = (s.ctxOf c x).begin l' i) ∧
      ((s.ctxOf c x).idle = false → t.ctxOf c x = { s.ctxOf c x with nextIteration := some i })) ∧
  (∀ (l : List (Nat × Nat × Context)) (c x : Nat), pickContext true l = some (c, x) →
    ((∃ t, (c, x, t) ∈ l ∧ t.idle = true ∧ ∀ p ∈ l, p.2.2.idle = true → t.freeAt ≤ p.2.2.freeAt) ∨
      ((∀ p ∈ l, p.2.2.idle = false) ∧ ∃ t, (c, x, t) ∈ l ∧ t.lacksPending = true))) ∧
  (∀ (t : Context) (l : Launch) (i : Iteration) (n : Nat), n < 64 →
    let v := t.begin l i
    v.mode = .ready ∧ v.pc = l.imgBase + l.f 2 45 32 ∧ v.lpc.toNat = l.litBase % 2 ^ 14 ∧
    vget v.s n = (if n < 6 then i.idx.getD n 0 else if n = 6 then BitVec.ofNat 64 i.slot else if n = 7 then i.req
      else if n = 8 then BitVec.ofNat 64 i.n else vget t.s n) ∧
    v.v = t.v ∧ v.q = t.q ∧ v.sc = t.sc ∧ v.w = t.w ∧ v.scopes = t.scopes)

/-- R161, R164, R147, R151, R162. At its boundary a step counts, the new count is stored at STEPADDR where the record has one,
and the next step starts, its slots taking their next states; a start from idle is a boundary that counts no step; a store
that fails ends the launch with its fault. A launch with nothing left retires: it is no longer live, and a waiting launch that
depends on it strictly fails unless it is COMPLETE. -/
def Sys2Proof.Rule.StepsEndAndLaunchesRetire : Prop :=
  (∀ (key : Nat) (s : State) (l : Launch), s.launch? (some key) = some l → s.boundaryDue key = true →
    let steps := if l.inStep then l.steps + 1 else l.steps
    let l' := { l with steps := steps, inStep := false, cov := if l.inStep then l.cov else l.cov.map l.update }
    let next := if l.cancelled then l' else l'.startStep
    let s1 := s.modLaunch key (fun _ => l')
    let store := s1.agentWrite .frontEnd 15 l.asid (word l.recd 10) (bytesOf 8 steps)
    (word l.recd 10 = 0 → exec (.stepBoundary key) s = .next (s.modLaunch key (fun _ => next))) ∧
    (∀ u, word l.recd 10 ≠ 0 → store = (none, u) → ∃ t, exec (.stepBoundary key) s = .next t ∧
      t.launch? (some key) = some next ∧ t.mem = u.mem) ∧
    (∀ code at' u, word l.recd 10 ≠ 0 → store = (some (code, at'), u) →
      exec (.stepBoundary key) s = .next (u.launchFault key code (word l.recd 10)))) ∧
  (∀ (l : Launch) (n : Nat), (Assoc.find l.startStep.slots n) = (Assoc.find l.slots n).map (fun p => (p.2, p.2))) ∧
  (∀ (key : Nat) (s : State) (l : Launch), s.launch? (some key) = some l → s.mayRetire l key = true →
    ∃ t, exec (.launchRetire key) s = .next t ∧ t.launch? (some key) = none ∧
      (∀ k m, k ≠ key → s.launch? (some k) = some m → l.status ≠ 0 ∨ l.killed ≠ 0 → m.state = .waiting → m.status = 0 →
        m.f 0 18 18 = 1 → m.deps.contains key = true → t.launch? (some k) = some { m with status := 9 }) ∧
      (∀ k m, k ≠ key → s.launch? (some k) = some m → (l.status = 0 ∧ l.killed = 0) ∨ m.state ≠ .waiting ∨ m.status ≠ 0 ∨ m.f 0 18 18 ≠ 1 ∨
        m.deps.contains key = false → t.launch? (some k) = some m))

/-- R169, R170. Every 4,096 cycles the paddock takes its new size; SCHEDCFG takes its four fields unless they conflict, and
then rejects the waiting communication launches that exceed the new maximum. -/
def Sys2Proof.Rule.PaddockAndSchedulerConfiguration : Prop :=
  (∀ s : State, s.sched.evalAt + 4096 ≤ s.cycle → exec .paddockEvaluate s =
    .next { s with sched := { s.sched with padN := s.padSize, evalAt := s.cycle } }) ∧
  (∀ (v : Word) (s : State),
    let lo := v.toNat / 2 ^ 32 % 2 ^ 8
    let hi := v.toNat / 2 ^ 24 % 2 ^ 8
    let top := v.toNat / 2 ^ 16 % 2 ^ 6
    let bottom := v.toNat / 2 ^ 8 % 2 ^ 6
    (top < bottom ∨ 32 < top ∨ hi ≤ lo → exec (.schedcfgWrite v) s = .next s.refuseCfg) ∧
    (¬ (top < bottom ∨ 32 < top ∨ hi ≤ lo) → ∃ t, exec (.schedcfgWrite v) s = .next t ∧
      t.sched = { s.sched with padLo := lo, padHi := hi, padMax := top, padMin := bottom } ∧
      ∀ k l, s.launch? (some k) = some l → t.launch? (some k) = some
        (if l.comm = true ∧ l.state = .waiting ∧ l.status = 0 ∧ top < l.pcount then { l with status := 6, detail := 0 } else l)))

/-- Iterations are handed out, steps end, launches retire, and the scheduler is configured. -/
def Obligations.IterationsStepsAndRetirement : Prop :=
  Rule.IterationsAreHandedOut ∧ Rule.StepsEndAndLaunchesRetire ∧ Rule.PaddockAndSchedulerConfiguration

/-- R177, R180, R182 to R184. A skipped point whose planes are written becomes done and counts in NSKIP; an audit compares and
counts in NAUDIT; a dailies update clears ACCUM, NCMP and the count since the last update, and moves F within FMIN and FMAX. -/
def Obligations.CoverageEvents : Prop :=
  (∀ (key n : Nat) (s u v : State) (l l' : Launch) (c c' : Coverage) (p : Point), s.launch? (some key) = some l →
    l.cov = some c → Assoc.find c.points n = some p → l.mayRecon c n p = true →
    s.reconPlane l (n - p.base) 0 = (none, u) → u.reconPlane l (n - p.base) 1 = (none, v) →
    v.launch? (some key) = some l' → l'.cov = some c' →
    ∃ t d, exec (.reconstructPoint key n) s = .next t ∧ (t.launch? (some key)).bind (·.cov) = some d ∧
      d.nskip = min (2 ^ 32 - 1) (c'.nskip + 1) ∧ (Assoc.find d.points n).map (fun q => q.stage) = some .done) ∧
  (∀ (key n : Nat) (s u v : State) (l l' : Launch) (c c' : Coverage) (p : Point) (r w : List Nat),
    s.launch? (some key) = some l → l.cov = some c → Assoc.find c.points n = some p → l.mayAudit c n p = true →
    let pl := planeOf c.desc 0
    s.interpolate l pl (l.parents (n - p.base)) = (.ok r, u) →
    u.readCells l.asid pl.size (pl.cells (tupleOf l.counts (n - p.base))) = (.ok w, v) →
    v.launch? (some key) = some l' → l'.cov = some c' →
    ∃ t d, exec (.auditCompare key n) s = .next t ∧ (t.launch? (some key)).bind (·.cov) = some d ∧
      d.naudit = min (2 ^ 32 - 1) (c'.naudit + 1) ∧
      (Assoc.find d.points n).map (fun q => q.error) = some (some (auditError pl w r))) ∧
  (∀ (key : Nat) (s : State) (l : Launch) (c : Coverage), s.launch? (some key) = some l → s.dueUpdate key l = some c →
    ∃ t, exec (.dailiesUpdate key) s = .next t ∧ t.launch? (some key) = some { l with cov := some c } ∧
      c.accum = 0 ∧ c.ncmp = 0 ∧ c.since = 0) ∧
  (∀ (l : Launch) (c : Coverage), l.f 48 21 13 ≤ c.f → c.f ≤ l.f 48 30 22 →
    l.f 48 21 13 ≤ (l.update c).f ∧ (l.update c).f ≤ l.f 48 30 22 ∧
    (l.update c).nupd = min 0xFFFF (c.nupd + 1))

/-- R127 to R131, R138. Enabling a queue starts it at WPTR, disabling stops it at once or after its executing packet, RESUME
goes on at the failing packet and SKIP behind it; a doorbell sets WPTR or, out of range, puts the queue into ERROR with 0x92;
reading STATE clears NOLID; a fetch adds the next unit; a restarted thread goes on at CPTR. -/
def Sys2Proof.Rule.QueuesAreControlled : Prop :=
  (∀ (q : Nat) (v : Word) (s : State), q < 32 →
    let x := s.queue q
    (x.refuses v.toNat = true →
      (x.enable = false → v.getLsbD 0 = true → exec (.queueEnable q v) s = .next s.refuseCfg) ∧
      (x.enable = true → v.getLsbD 0 = false → exec (.queueDisable q v) s = .next s.refuseCfg) ∧
      (v.getLsbD 1 = true → exec (.queueResume q v) s = .next s.refuseCfg) ∧
      (v.getLsbD 2 = true → exec (.queueSkip q v) s = .next s.refuseCfg)) ∧
    (x.refuses v.toNat = false →
      (x.enable = false → v.getLsbD 0 = true → ∃ t, exec (.queueEnable q v) s = .next t ∧
        let y := t.queue q
        y.enable = true ∧ y.st = .running ∧ y.cptr = x.wptr ∧ y.rptr = x.wptr ∧ y.wptr = x.wptr ∧ y.base = x.base ∧
        y.vec = v.toNat / 2 ^ 32 % 2 ^ 6 ∧ y.asid = v.toNat / 2 ^ 16 % 2 ^ 16 ∧ y.func = v.toNat / 2 ^ 8 % 2 ^ 6 ∧
        y.qsize = v.toNat / 2 ^ 4 % 2 ^ 4) ∧
      (x.enable = true → v.getLsbD 0 = false → ∃ t, exec (.queueDisable q v) s = .next t ∧
        (t.queue q).enable = false ∧ (t.queue q).cptr = x.cptr ∧
        (x.started = none → (t.queue q).st = .disabled) ∧
        (x.started ≠ none → (t.queue q).st = x.st ∧ (t.queue q).stop = true)) ∧
      (x.enable = true → v.getLsbD 0 = true → x.st = .error →
        (v.getLsbD 1 = true → ∃ t, exec (.queueResume q v) s = .next t ∧ (t.queue q).st = .running ∧
          (t.queue q).code = 0 ∧ (t.queue q).cptr = x.cptr ∧ (t.queue q).rptr = x.cptr) ∧
        (v.getLsbD 1 = false → v.getLsbD 2 = true → x.code ≠ 0x92 → ∀ w, x.word0 = some w →
          ∃ t, exec (.queueSkip q v) s = .next t ∧ (t.queue q).st = .running ∧ (t.queue q).code = 0 ∧
            (t.queue q).cptr = (x.cptr + (w / 2 ^ 8 % 4 + 1)) % 2 ^ 32)))) ∧
  (∀ (func q : Nat) (n : BitVec 32) (s : State), s.pageLive func q = true →
    let x := s.queue q
    (x.enable = true → s.fw.run ≠ 3 → x.qsize < 16 → indexGap x.cptr n.toNat ≤ 2 ^ x.qsize →
      indexGap x.cptr x.wptr ≤ indexGap x.cptr n.toNat → x.wptr < 2 ^ 32 → x.cptr < 2 ^ 32 →
      ∃ t, exec (.queueDoorbell func q n) s = .next t ∧ (t.queue q).wptr = n.toNat ∧ (t.queue q).cptr = x.cptr ∧
        (t.queue q).st = x.st) ∧
    (x.enable = true → s.fw.run ≠ 3 → 2 ^ x.qsize < indexGap x.cptr n.toNat → x.started = none →
      ∃ t, exec (.queueDoorbell func q n) s = .next t ∧ (t.queue q).st = .error ∧ (t.queue q).code = 0x92 ∧
        (t.queue q).cptr = x.cptr) ∧
    (∃ t, exec (.queueStatusRead func q) s = .next t ∧ (t.queue q).nolid = 0 ∧
      t.mgmt.readData = BitVec.ofNat 64 (x.nolid * 2 ^ 16 + x.code * 2 ^ 8 + x.st.code))) ∧
  (∀ (q : Nat) (s : State),
    (∀ b u, s.mayFetch q = true → s.readUnit q = (.ok b, u) → ∃ t, exec (.packetFetch q) s = .next t ∧
      (t.queue q).units = (u.queue q).units ++ [((u.queue q).rptr, BitVec.ofNat 512 (ofBytes b))] ∧
      (t.queue q).rptr = ((u.queue q).rptr + 1) % 2 ^ 32) ∧
    (q < 32 → (s.queue q).st = .running ∨ (s.queue q).st = .waiting → (s.queue q).fail = false →
      (s.queue q).enable = true → ∃ t, exec (.cpThreadRestart q) s = .next t ∧ (t.queue q).st = .running ∧
        (t.queue q).rptr = (s.queue q).cptr ∧ (t.queue q).units = [] ∧ (t.queue q).started = none))

/-- R130, R133 to R137, R139. A packet at CPTR commits, advancing CPTR by its units; a WAIT whose test fails waits and, past its
time-out, fails with 0x95; a SIGNAL with DRAIN and a FETCH_FENCE wait for the queue's launches; a LAUNCH commits once its
record is accepted or rejected; ADMIT, EVICT and CANCEL act on the live launch of their LID, and count NOLID without one. -/
def Sys2Proof.Rule.PacketsExecute : Prop :=
  (∀ (q : Nat) (s : State), (s.queue q).fail = false → (s.queue q).stop = false →
    ((s.commitPacket q).queue q).cptr = ((s.queue q).cptr + (s.queue q).headUnits) % 2 ^ 32 ∧
    ((s.commitPacket q).queue q).st = .running ∧ ((s.commitPacket q).queue q).started = none) ∧
  (∀ (q : Nat) (s : State) (u : Flit), s.executable q 0 = some u → exec (.nop q) s = .next (s.commitPacket q)) ∧
  (∀ (q : Nat) (s w : State) (u : Flit) (b : List Byte), s.executable q 1 = some u →
    s.agentRead .command 15 (s.queue q).asid (unitWord u 1) 8 .load = (.ok b, w) →
    let test := waitTest (u.toNat / 2 ^ 16 % 2 ^ 3) (ofBytes b &&& unitWord u 3) (unitWord u 2)
    let outcome (i : Instr) := (test = true → exec i s = .next (w.commitPacket q)) ∧
      (test = false → ∃ t, exec i s = .next t ∧ (t.queue q).st = .waiting ∧ (t.queue q).cptr = (w.queue q).cptr ∧
        (t.queue q).started = (w.queue q).started.or (some w.ticks))
    ((s.queue q).started = none → outcome (.wait q)) ∧ ((s.queue q).started ≠ none → outcome (.waitPoll q))) ∧
  (∀ (q : Nat) (s : State) (u : Flit), s.executable q 1 = some u → s.waitOver q u = true →
    ∃ t, exec (.waitTimeout q) s = .next t ∧ (t.queue q).st = .error ∧ (t.queue q).code = 0x95) ∧
  (∀ (q : Nat) (s : State) (u : Flit), s.executable q 2 = some u →
    let op := signalOp (u.toNat / 2 ^ 16 % 2 ^ 3) (unitWord u 2)
    (u.toNat.testBit 19 = true → s.launchesGone q = false → exec (.signal q) s = .next (s.holdPacket q false)) ∧
    (u.toNat.testBit 19 = false ∨ s.launchesGone q = true →
      ∀ w, s.updateWord (s.queue q).asid (unitWord u 1) op = (none, w) →
        exec (.signal q) s = .next (w.commitPacket q))) ∧
  (∀ (q : Nat) (s : State) (u : Flit), s.executable q 3 = some u →
    let a := s.acceptLaunch q (packetLid u) (unitWord u 1) (unitWord u 2) (BitVec.ofNat 64 (unitWord u 3)) (unitWord u 4)
    (∀ w, a = .done w → exec (.launch q) s = .next (w.commitPacket q)) ∧
    (a = .full → exec (.launch q) s = .next (s.holdPacket q true)) ∧
    (∀ c w, a = .fault c w → exec (.launch q) s = .next (w.packetError q c))) ∧
  (∀ (q : Nat) (s : State) (u : Flit),
    let slot := unitWord u 1 % 2 ^ 12
    (∀ key l, s.liveLid q (packetLid u) = some (key, l) →
      (s.executable q 4 = some u → exec (.admitSlot q) s =
        .next ((s.modLaunch key (fun m => m.admitAt slot (BitVec.ofNat 64 (unitWord u 2)))).commitPacket q)) ∧
      (s.executable q 5 = some u → exec (.evict q) s =
        .next ((s.modLaunch key (fun m => m.evict slot)).commitPacket q)) ∧
      (s.executable q 6 = some u → exec (.cancel q) s = .next ((s.cancelLaunch key).commitPacket q))) ∧
    (s.liveLid q (packetLid u) = none → ∀ i k, (i, k) ∈ [(Instr.admitSlot q, 4), (.evict q, 5), (.cancel q, 6)] →
      s.executable q k = some u → exec i s =
        .next ((s.modQueue q (fun x => { x with nolid := min 0xFFFF (x.nolid + 1) })).commitPacket q))) ∧
  (∀ (q : Nat) (s : State) (u : Flit), s.executable q 7 = some u →
    exec (.fetchFence q) s = .next (if s.launchesGone q then s.commitPacket q else s.holdPacket q false))

/-- Command queues: enable, doorbell, fetch, errors, and every packet. -/
def Obligations.QueuesAreControlledAndExecuted : Prop :=
  Rule.QueuesAreControlled ∧ Rule.PacketsExecute

/-- R161, R164. ADMIT makes a free slot's next state active, EVICT an active one's inactive; a slot beyond MAXSLOT, a second
ADMIT and an EVICT of an inactive slot only count. A cancelled launch that waits ends with status 1; one that runs without
STANDING gets no further iteration and ends with status 2 unless it has a status already, which it keeps (DEDUCED, log 25). -/
def Sys2Proof.Rule.SlotsAndCancellation : Prop :=
  (∀ (l : Launch) (slot : Nat) (req : Word),
    (l.standing = false ∨ l.maxSlot ≤ slot →
      l.admitAt slot req = { l with badSlot := min 0xFFFF (l.badSlot + 1) } ∧
      l.evict slot = { l with badSlot := min 0xFFFF (l.badSlot + 1) }) ∧
    (l.standing = true → slot < l.maxSlot →
      (l.slotNext slot = none → (l.admitAt slot req).slotNext slot = some req ∧
        (∀ n, n ≠ slot → (l.admitAt slot req).slotNext n = l.slotNext n) ∧
        l.evict slot = { l with evictEmpty := min 0xFFFF (l.evictEmpty + 1) }) ∧
      (l.slotNext slot ≠ none → (l.evict slot).slotNext slot = none ∧
        (∀ n, n ≠ slot → (l.evict slot).slotNext n = l.slotNext n) ∧
        l.admitAt slot req = { l with admitDup := min 0xFFFF (l.admitDup + 1) }))) ∧
  (∀ (key : Nat) (s : State) (l : Launch), s.launch? (some key) = some l →
    (l.state = .waiting → l.status = 0 → (s.cancelLaunch key).launch? (some key) = some { l with status := 1 }) ∧
    (l.state = .running → l.standing = false → (s.cancelLaunch key).launch? (some key) = some { l with
      cancelled := true, status := if l.status = 0 then 2 else l.status
      heldPoints := [], stepSlots := [], enumerated := true }) ∧
    (l.state = .draining → s.cancelLaunch key = s))

/-- R140. The reset of a function disables its queues and enters it into the reset list; a hot reset does so for every function
and clears Bus Master Enable; the reset completes when no launch of its queues is live, clearing its MSI-X state. PRESUMED (log 4):
a cleared MSI-X state is MSI-X Enable 0 and every vector masked, not pending, with address and data 0. -/
def Sys2Proof.Rule.FunctionResets : Prop :=
  (∀ (func : Nat) (s : State), 1 ≤ func → func < 64 → ∃ t, exec (.functionLevelReset func) s = .next t ∧
    t.mgmt.inReset.contains func = true ∧ t.busMaster = s.busMaster ∧
    ∀ q, q < 32 → (s.queue q).func = func → (t.queue q).enable = false) ∧
  (∀ s : State, ∃ t, exec .hotReset s = .next t ∧ exec (.functionLevelReset 0) s = .next t ∧ t.busMaster = false ∧
    (∀ f, f < 64 → t.mgmt.inReset.contains f = true) ∧
    ∀ q, q < 32 → (s.queue q).func < 64 → (t.queue q).enable = false) ∧
  (∀ (func : Nat) (s : State), s.resetDone func = true → ∃ t, exec (.flrComplete func) s = .next t ∧
    t.mgmt.inReset.contains func = false ∧ t.mgmt.msixOn.contains func = false ∧
    ∀ v, v < 64 → t.mgmt.vector func v = ⟨0, 0x100000000#64, false⟩)

/-- Standing slots, cancellation, and resets of functions. -/
def Obligations.SlotsCancellationAndFunctionResets : Prop :=
  Rule.SlotsAndCancellation ∧ Rule.FunctionResets

/-- R120, R121, R124 to R126, R116. An aperture access outside its window, and every AtomicOp, is an Unsupported Request; so is
one whose blocks have no place, among them those of a unit that cannot be reached, which is the model's choice (log 24). An
access meets a running migration (R94; log 71) and then a read returns the bytes of its blocks, poisoned when one is lost, and
leaves memory as it is; a write stores exactly its bytes. APERCTL clamps SIZE; unmasking a vector sends its pending message. -/
def Sys2Proof.Rule.HostAccesses : Prop :=
  (∀ (r : HostReq) (s : State),
    let v := s.aperMeets r
    (s.mem.migActive = false → v = s) ∧
    (s.aperOpen r.func r.offset r.size = false → exec (.apertureRequest r) s = .next s.unsupported) ∧
    (s.aperOpen r.func r.offset r.size = true → v.aperBlocks r = none → exec (.apertureRequest r) s = .next v.unsupported) ∧
    (∀ l, s.aperOpen r.func r.offset r.size = true → v.aperBlocks r = some l → r.write = none →
      ∃ t, exec (.apertureRequest r) s = .next t ∧ t.mgmt.unsupported = false ∧ t.mem.mem = v.mem.mem ∧
        t.mgmt.poisonedRead = l.any (fun p => v.lost p.2.2.1 p.2.2.2.1) ∧
        (t.mgmt.poisonedRead = false → t.mgmt.hostData = (l.map (fun p =>
          ((v.blockRead p.2.2.1 p.2.2.2.1 p.2.2.2.2 ((s.aperctl r.func) % 2 ^ 8)).drop (p.2.2.2.1 % 64)).take p.2.1)).flatten)) ∧
    (∀ d n u a pa, s.aperOpen r.func r.offset r.size = true → v.aperBlocks r = some [(0, n, u, a, pa)] →
      r.write = some d → d.length = n → a % 64 + n ≤ 64 → (s.aperctl r.func) % 2 ^ 8 = 0 → v.lost u a = false →
      ∃ t, exec (.apertureRequest r) s = .next t ∧ t.mgmt.unsupported = false ∧ ∀ x, Memory.readByte t.mem.mem x =
        if memKey u a ≤ x ∧ x < memKey u a + n then d.getD (x - memKey u a) 0 else Memory.readByte v.mem.mem x)) ∧
  (∀ (f : Nat) (s : State), exec (.pcieAtomicop f) s = .next s.unsupported ∧ s.unsupported.mgmt.unsupported = true) ∧
  (∀ (f : Nat) (v : Word) (s : State), f < 64 →
    let x := s.aperctl f
    let size := v.toNat % 2 ^ 14
    let top := if f = 0 then 8192 else 64
    (∃ t, exec (.aperctlWrite f false v) s = .next t ∧ t.aperctl f / 2 ^ 64 = x / 2 ^ 64 ∧
      t.aperctl f % 2 ^ 64 = v.toNat / 2 ^ 30 % 2 ^ 22 * 2 ^ 30 + v.toNat % 2 ^ 8) ∧
    (∃ t, exec (.aperctlWrite f true v) s = .next t ∧ t.aperctl f / 2 ^ 64 = min size top ∧
      t.aperctl f % 2 ^ 64 = x % 2 ^ 64 ∧ (top < size → t.mgmt.clamp = true))) ∧
  (∀ (func n : Nat) (s : State), func < 64 → n < vectorCount func →
    let x := s.mgmt.vector func n
    ∃ t, exec (.msixUnmask func n) s = .next t ∧ (t.mgmt.vector func n).data = x.data &&& ~~~ 0x100000000#64 ∧
      (x.pending = true → s.mgmt.msixOn.contains func = true → (t.mgmt.vector func n).pending = false ∧
        Assoc.get t.mgmt.msgs (64 * func + n) 0 = Assoc.get s.mgmt.msgs (64 * func + n) 0 + 1))

/-- R122 to R124. With Bus Master Enable an outbound write leaves the port and is answered, and a read awaits its completion,
whose bytes or fault 0x93 answer it, or fault 0x94 after 10 ms; without it the request is answered with 0x93. -/
def Sys2Proof.Rule.OutboundRequests : Prop :=
  ∀ (i : Nat) (s : State) (r : OutReq), s.outReqs[i]? = some r →
    let gone : State := { s with outReqs := s.outReqs.eraseIdx i }
    (s.outReady i = true → s.busMaster = false → exec (.outboundRequestSend i) s = .next (gone.answerOut r (.err 0x93))) ∧
    (∀ d, s.outReady i = true → s.busMaster = true → r.data = some d →
      exec (.outboundRequestSend i) s = .next (gone.answerOut r (.ok d))) ∧
    (s.outReady i = true → s.busMaster = true → r.data = none →
      exec (.outboundRequestSend i) s =
        .next { s with outReqs := s.outReqs.set i { r with sent := true, sentAt := s.ticks } }) ∧
    (∀ b, r.sent = true → b.length = r.size → exec (.outboundCompletion i (.data b)) s =
      .next (gone.answerOut r (.ok b))) ∧
    (∀ c, r.sent = true → (∀ b, c ≠ .data b) → exec (.outboundCompletion i c) s = .next (gone.answerOut r (.err 0x93))) ∧
    (r.sent = true → r.sentAt + 1000000 ≤ s.ticks → exec (.outboundReadTimeout i) s =
      .next (gone.answerOut r (.err 0x94)))

/-- R8, R117, R118. A 64-bit write of the management block does what the row of its register does; a write of MGMTERR clears
the bits written as 1; an offset that no register has changes nothing. -/
def Sys2Proof.Rule.ManagementRegisterWrites : Prop :=
  ∀ (v : Word) (s : State),
    exec (.mgmtRegisterWrite 0x30000 v) s = exec (.pwrstretchWrite v) s ∧
    exec (.mgmtRegisterWrite 0x30008 v) s = exec (.pwrlimitWrite v) s ∧
    exec (.mgmtRegisterWrite 0xA0000 v) s = exec (.schedcfgWrite v) s ∧
    exec (.mgmtRegisterWrite 0x60800 v) s = exec (.fabcfgWrite v) s ∧
    (∀ i, i < 384 → exec (.mgmtRegisterWrite (0x20000 + 8 * i) v) s = exec (.permitcfgWrite i v) s) ∧
    (∀ i, i < 16 → exec (.mgmtRegisterWrite (0x1C00000 + 8 * i) v) s = exec (.ringcfgWrite i v) s) ∧
    (∀ i, i < 64 → exec (.mgmtRegisterWrite (0x90000 + 16 * i) v) s = exec (.aperctlWrite i false v) s ∧
      exec (.mgmtRegisterWrite (0x90008 + 16 * i) v) s = exec (.aperctlWrite i true v) s) ∧
    (v.getLsbD 3 = true → (∀ i, i < 240 → exec (.mgmtRegisterWrite (0x10000 + 8 * i) v) s = exec (.d2dstatRetrain i) s) ∧
      ∀ i, i < 128 → exec (.mgmtRegisterWrite (0x60000 + 8 * i) v) s = exec (.fpstatRetrain i) s) ∧
    (∀ i, i < 32 → (s.queue i).enable = false → v.getLsbD 0 = true →
      exec (.mgmtRegisterWrite (0x80000 + 64 * i) v) s = exec (.queueEnable i v) s) ∧
    (∀ o, o < 8 * 2 ^ 17 → o % 32 = 24 →
      exec (.mgmtRegisterWrite (0x1000000 + o) v) s = exec (.routeTablePublish (0x1000000 + o) v) s) ∧
    (v.getLsbD 0 = true → exec (.mgmtRegisterWrite 0x78008 v) s = exec (.invalidationPost v) s) ∧
    (∃ t, exec (.mgmtRegisterWrite 0 v) s = .next t ∧ t.mgmt.cfgErr = (s.mgmt.cfgErr && !v.getLsbD 0) ∧
      t.mgmt.clamp = (s.mgmt.clamp && !v.getLsbD 1)) ∧
    (∃ t, exec (.mgmtRegisterWrite 0x71018 v) s = .next t ∧ t.mem.asidBase = v.toNat / 2 ^ 19 % 2 ^ 33 * 2 ^ 19) ∧
    (∃ t, exec (.mgmtRegisterWrite 0x78000 v) s = .next t ∧ t.mem.invAddr = v.toNat / 2 ^ 12 % 2 ^ 45 * 2 ^ 12) ∧
    (∀ o, o % 8 ≠ 0 ∨ 0x100000 ≤ o ∧ o < 0x1000000 → exec (.mgmtRegisterWrite o v) s = .next s)

/-- Aperture accesses, outbound requests, MSI-X and writes of the management block. -/
def Obligations.HostPortAndRegisters : Prop :=
  Rule.HostAccesses ∧ Rule.OutboundRequests ∧ Rule.ManagementRegisterWrites

/-- R27 to R31, R125. PWRLIMIT is clamped to 3,200 W and KMIN to 16; a controller tick raises K by 1 above the limit and
lowers it after ten ticks below 95%; a temperature of 105 degrees raises the thermal K to 16, one of 115 trips and 100 clears
it; a droop clamps K to 16 for 10 µs; a trip removes power and keeps the log; a sample accumulates energies and keeps peaks. K
is the largest controller or the floor. A limit or a floor that is clamped sets CLAMP (R119). The event code 0x101 of a trip is
the model's choice (log 17). -/
def Sys2Proof.Rule.PowerControl : Prop :=
  (∀ p : Power, p.k = max (max p.kPower p.kThermal) (max p.kDroop p.kmin)) ∧
  (∀ (v : Word) (s : State),
    (∃ t, exec (.pwrlimitWrite v) s = .next t ∧ t.power = { s.power with limit := min 3200 (v.toNat % 2 ^ 12) } ∧
      (3200 < v.toNat % 2 ^ 12 → t.mgmt.clamp = true)) ∧
    (∃ t, exec (.pwrstretchWrite v) s = .next t ∧ t.power = { s.power with kmin := min 16 (v.toNat / 2 ^ 8 % 2 ^ 5) } ∧
      (16 < v.toNat / 2 ^ 8 % 2 ^ 5 → t.mgmt.clamp = true))) ∧
  (∀ (w : Nat) (s : State), s.power.tickAt + 1000 ≤ s.ticks → ∃ t, exec (.powerControllerTick w) s = .next t ∧
    t.power.tickAt = s.ticks ∧
    (s.power.limit < w → t.power.kPower = min 16 (s.power.kPower + 1) ∧ t.power.below = 0) ∧
    (w ≤ s.power.limit → 95 * s.power.limit ≤ 100 * w → t.power.kPower = s.power.kPower ∧ t.power.below = 0) ∧
    (w ≤ s.power.limit → 100 * w < 95 * s.power.limit → s.power.below < 9 →
      t.power.kPower = s.power.kPower ∧ t.power.below = s.power.below + 1) ∧
    (w ≤ s.power.limit → 100 * w < 95 * s.power.limit → 9 ≤ s.power.below →
      t.power.kPower = s.power.kPower - 1 ∧ t.power.below = 0)) ∧
  (∀ (l : List Nat) (s : State),
    (l.any (fun x => 115 * 16 ≤ x) = true → exec (.thermalThreshold l) s =
      exec (.thermalTrip (l.findIdx (fun x => 115 * 16 ≤ x))) s) ∧
    ((∃ x ∈ l, 105 * 16 ≤ x) → (∀ x ∈ l, x < 115 * 16) → ∃ t, exec (.thermalThreshold l) s = .next t ∧ t.power = { s.power with kThermal := 16 }) ∧
    ((∀ x ∈ l, x ≤ 100 * 16) → exec (.thermalThreshold l) s = .next { s with power := { s.power with kThermal := 0 } })) ∧
  (∀ (d : Nat) (s : State), d < 8 → exec (.droopDetect d) s = .next { s with power := { s.power with
    kDroop := 16, droopEnd := s.ticks + 1000, droops := (s.power.droops + 1) % 2 ^ 64 } }) ∧
  (∀ s : State, s.power.kDroop = 16 → s.power.droopEnd ≤ s.ticks →
    exec .droopHoldEnd s = .next { s with power := { s.power with kDroop := 0 } }) ∧
  (∀ (d : Nat) (s : State), ∃ t, exec (.thermalTrip d) s = .next t ∧ t.power.off = true ∧
    t.eventLog = (s.logEvent d 0x101 d).eventLog ∧ t.power.energy = s.power.energy ∧ t.power.peaks = s.power.peaks ∧
    t.fw.flash = s.fw.flash) ∧
  (∀ (e l : List Nat) (s : State), s.power.sampleAt + 100 ≤ s.ticks → ∃ t, exec (.telemetrySample e l) s = .next t ∧
    t.power.sampleAt = s.ticks ∧ t.power.energy.length = s.power.energy.length ∧ t.power.seenTicks = s.power.ticksAt ∧
    ∀ i, i < s.power.energy.length → i < e.length →
      t.power.energy.getD i 0 = (s.power.energy.getD i 0 + e.getD i 0) % 2 ^ 64)

/-- R29, R30, R32, R33, R38, R86. Power-on begins the wake sequence with the power limit at its reset value, and keeps the event log
and the flash; a step that is ready makes its dies ready and the next one begins; of one past its limit the dies that have not
reported are absent and the others ready, the Z die's ports apart; a core that is removed leaves service with an event. The
model's choices: CORESAVAIL is a free value of the self-test (log 69), which dies have not reported is a free value (log 18), and
the event codes 0x27 and 0x102 (log 17). -/
def Sys2Proof.Rule.PowerOnAndWake : Prop :=
  (∀ s : State, ∃ t, exec .powerOnReset s = .next t ∧ t.wake.step = 1 ∧ t.power.off = false ∧ t.power.limit = 3200 ∧
    t.eventLog = s.eventLog ∧ t.fw.flash = s.fw.flash ∧ t.cores = [] ∧ t.launches = [] ∧ t.mem = MemSys.reset ∧
    t.coresAvail = Config.selfTest s.free) ∧
  (∀ (l : List Nat) (s : State), s.wake.step ≤ 6 → ∃ t, exec (.wakeStepReady l) s = .next t ∧ t.wake.since = s.ticks ∧
    (∀ d ∈ s.wake.dies, t.wake.ready.contains d = true) ∧
    (s.wake.step = 5 → s.wake.die < 7 → t.wake.step = 5 ∧ t.wake.die = s.wake.die + 1) ∧
    (s.wake.step ≠ 5 ∨ 7 ≤ s.wake.die → t.wake.step = s.wake.step + 1) ∧
    (s.wake.step = 4 → ∀ p, p < 8 → (t.mem.farUp.contains p = true ↔ 0 < l.getD p 0))) ∧
  (∀ s : State, s.wake.step ≤ 6 → s.wake.since + s.wake.limit ≤ s.ticks → ∃ t, exec .wakeStepTimeout s = .next t ∧
    t.wake.since = s.ticks ∧ (s.wake.step = 6 → t.wake.step = 7 ∧ t.unreachable = s.unreachable) ∧
    (s.wake.step ≠ 6 → let late := s.wake.late (Config.lateDies s.free)
      (s.wake.dies ≠ [] → late ≠ []) ∧
      (∀ d ∈ late, d ∈ s.wake.dies ∧ ∀ p ∈ diePaths d, t.unreachable.contains p = true) ∧
      ∀ d ∈ s.wake.dies, d ∉ late → t.wake.ready.contains d = true)) ∧
  (∀ (c : Nat) (s : State), c < 320 → s.coresAvail.getLsbD c = true → ∃ t, exec (.coreRemoved c) s = .next t ∧
    t.coresAvail.getLsbD c = false ∧ (∀ k, k ≠ c → t.coresAvail.getLsbD k = s.coresAvail.getLsbD k) ∧
    t.eventLog.getLast? = some (s.ticks, c / 40, 0x27, c))

/-- R35, R36, R125. A mailbox request that is served clears GO with its STATUS and response: 1 for an unknown command, 2 for a
bad length, 3 for a power limit over SMBus without SMBWRITE, else 0 with the command's data. The layouts of the responses are the
model's choice (log 16). -/
def Sys2Proof.Rule.MailboxCommands : Prop :=
  ∀ s : State, s.mbox.go = true →
    let ends (i : Instr) (status : Nat) (rsp : List Byte) := ∃ t, exec i s = .next t ∧ t.mbox.go = false ∧
      t.mbox.status = status ∧ t.mbox.len = rsp.length ∧ t.mbox.rsp.toNat = ofBytes rsp % 2 ^ 2048 ∧ t.cores = s.cores
    let fits (n : Nat) := n ≤ s.mbox.len ∧ s.mbox.len ≤ 256
    let serves (i : Instr) (code need : Nat) (rsp : List Byte) := s.mbox.command = code →
      (fits need → ends i 0 rsp) ∧ (¬ fits need → ends i 2 [])
    serves .mboxReadTelemetry 1 4 s.power.telemetry ∧
    serves .mboxReadStatus 2 4 (bytesOf 4 ((s.wake.ready.map (2 ^ ·)).foldl (· + ·) 0)
      ++ (List.range 240).map (fun m => BitVec.ofNat 8 (s.mod m).stat)) ∧
    serves .mboxReadEventLog 4 8 (((s.eventLog.drop s.mbox.word1).take 15).map logEntry).flatten ∧
    serves .mboxReadFwVersions 5 4 (bytesOf 4 (s.fw.version 0) ++ bytesOf 4 (s.fw.version 1)) ∧
    serves .mboxReadScreening 6 4 ((List.range 256).map Config.screeningByte) ∧
    (s.mbox.command = 3 →
      (¬ fits 8 → ends .mboxSetPowerLimit 2 []) ∧
      (fits 8 → s.mbox.smbus = true → s.mgmt.smbWrite = false → ends .mboxSetPowerLimit 3 []) ∧
      (fits 8 → s.mbox.smbus = false ∨ s.mgmt.smbWrite = true →
        ends .mboxSetPowerLimit 0 (bytesOf 4 (min 3200 s.mbox.word1)) ∧
        ∃ t, exec .mboxSetPowerLimit s = .next t ∧ t.power.limit = min 3200 s.mbox.word1)) ∧
    (s.mbox.command = 0 ∨ 6 < s.mbox.command → (fits 4 → ends .mboxUnknownCommand 1 []) ∧
      (¬ fits 4 → ends .mboxUnknownCommand 2 []))

/-- R141, R142, R145. A GO begins an operation, and is refused while one lasts. OP 1 erases the inactive slot, programs its body
sector by sector and last its header; OP 2 sets ERR when the slot is not good; OP 3 erases a marker copy, the one of the lower
SEQ when both are valid, and writes one there that names the slot with the next SEQ. Every other byte of the flash stays. The parts
into which an operation falls, and the errors that end it early, are the model's choice (log 63). -/
def Sys2Proof.Rule.FirmwareOperations : Prop :=
  ∀ (v : Word) (s : State),
    let op := v.toNat / 2 % 8
    let f := s.fw
    let base := slotBase f.inactive
    let at' (t : State) (a : Nat) := flashAt t.fw.flash a
    let keeps (t : State) (lo n : Nat) := ∀ a, a < lo ∨ lo + n ≤ a → at' t a = at' s a
    (∀ ins k, (ins, k) ∈ [(Instr.fwWriteSlot v true, 1), (.fwWriteSlot v false, 1), (.fwVerifySlot v, 2), (.fwActivateSlot v, 3)] →
      v.getLsbD 0 = true → 1 ≤ op → op ≤ 3 →
      (f.work = none → exec ins s = .next { s with fw := { f with op := op, work := some (op, 0) } }) ∧
      (∀ o n, f.work = some (o, n) → o ≠ k → exec ins s = .next s.refuseCfg)) ∧
    (∀ ok : Bool,
      (f.work = some (1, 0) → ∃ t, exec (.fwWriteSlot v ok) s = .next t ∧ t.fw.work = some (1, 1) ∧
        (∀ i, i < slotSize → at' t (base + i) = 0xFF) ∧ keeps t base slotSize) ∧
      (∀ n h, f.work = some (1, n + 1) → s.staged (4096 * f.src) 4096 = some h →
        let len := ofBytes ((h.drop 12).take 4)
        (∀ d, len ≤ slotSize - 4096 → 4096 * n < len →
          (s.checkStaged (4096 * f.src) 4096).staged (4096 * (f.src + 1 + n)) (min 4096 (len - 4096 * n)) = some d →
          ∃ t, exec (.fwWriteSlot v ok) s = .next t ∧ t.fw.work = some (1, n + 2) ∧
            (∀ i, i < 4096 → at' t (base + 4096 * (n + 1) + i) = d.getD i 0xFF) ∧ keeps t (base + 4096 * (n + 1)) 4096) ∧
        (len ≤ slotSize - 4096 → len ≤ 4096 * n → ∃ t, exec (.fwWriteSlot v ok) s = .next t ∧ t.fw.work = none ∧
          t.fw.err = (f.err || !ok) ∧ (∀ i, i < 4096 → at' t (base + i) = h.getD i 0xFF) ∧ keeps t base 4096))) ∧
    (∀ k, f.work = some (2, k) → ∃ t, exec (.fwVerifySlot v) s = .next t ∧ t.fw.work = none ∧ t.fw.flash = f.flash ∧
      t.fw.err = (f.err || !f.good f.inactive)) ∧
    (f.work = some (3, 0) →
      (f.good f.inactive = false → ∃ t, exec (.fwActivateSlot v) s = .next t ∧ t.fw.work = none ∧ t.fw.err = true ∧
        t.fw.flash = f.flash) ∧
      (f.good f.inactive = true → f.topSeq < 2 ^ 32 - 1 →
        exec (.fwActivateSlot v) s = .next { s with fw := { f with work := some (3, 1) } })) ∧
    (f.work = some (3, 1) → ∃ t, exec (.fwActivateSlot v) s = .next t ∧ t.fw.work = some (3, 2) ∧
      let c := 4096 * f.markerTarget
      (∀ n m x y, f.marker 0 = some (n, x) → f.marker 1 = some (m, y) → c = if n < m then 0 else 4096) ∧
      (∀ i, i < 4096 → at' t (c + i) = 0xFF) ∧ keeps t c 4096) ∧
    (∀ k, f.work = some (3, k + 2) → ∃ t, exec (.fwActivateSlot v) s = .next t ∧ t.fw.work = none ∧ t.fw.err = f.err ∧
      let c := if f.marker 0 = none then 0 else if f.marker 1 = none then 4096 else 4096 * f.markerTarget
      (∀ i, i < 32 → at' t (c + i) = (markerBytes (f.topSeq + 1) f.inactive).getD i 0) ∧ keeps t c 4096)

/-- Power and thermal control, the wake sequence, mailbox commands and firmware. -/
def Obligations.PowerWakeMailboxAndFirmware : Prop :=
  Rule.PowerControl ∧ Rule.PowerOnAndWake ∧ Rule.MailboxCommands ∧ Rule.FirmwareOperations

/-- R17 to R19, R21 to R25. A module that carries flits takes the oldest one: a failed flit is counted and asks for a resend,
one out of sequence is dropped unchecked, the expected one advances the receiver and its message arrives with its last flit;
an acknowledgement frees the flits up to its number and a negative one those before it; a retraining repairs, halves or loses
the module; a message is accepted when its number is newer. The model's choices (log 33): a flit out of sequence is dropped
unchecked and uncounted, and a negative acknowledgement of n frees those before n. -/
def Obligations.ModuleEvents : Prop :=
  (∀ (m dir : Nat) (s : State) (f : LinkFlit) (rest : List LinkFlit), (s.mod m).live = true → dir < 2 →
    ((s.mod m).dir dir).wire = f :: rest →
    let l := (s.mod m).dir dir
    (f.seq = l.expect → ∃ t, exec (.ucieFlitReceive m dir false) s = .next t ∧
      (t.mod m).crcErr = min 0xFFFF ((s.mod m).crcErr + 1) ∧ ((t.mod m).dir dir).nak = some l.expect ∧
      ((t.mod m).dir dir).expect = l.expect ∧ ((t.mod m).dir dir).wire = rest) ∧
    (∀ ok : Bool, f.seq ≠ l.expect → ∃ t, exec (.ucieFlitReceive m dir ok) s = .next t ∧ ((t.mod m).dir dir).expect = l.expect ∧
      ((t.mod m).dir dir).wire = rest ∧ t.transit = s.transit ∧ t.cores = s.cores ∧ (t.mod m).crcErr = (s.mod m).crcErr) ∧
    (f.seq = l.expect → f.msg.cls ≤ 5 → f.msg.dst = (if dir = 0 then (modDies m).2 else (modDies m).1) →
      ∃ t, exec (.ucieFlitReceive m dir true) s = .next t ∧ ((t.mod m).dir dir).expect = (f.seq + 1) % 1024 ∧
        ((t.mod m).dir dir).ack = some f.seq ∧
        t.transit = if f.part + 1 = f.msg.flits then s.transit ++ [f.msg] else s.transit)) ∧
  (∀ (m dir q : Nat) (s : State), dir < 2 →
    (∀ i, ((s.mod m).dir dir).ack = some q → ((s.mod m).dir dir).replay.findIdx? (fun f => f.seq == q) = some i →
      ∃ t, exec (.ucieAcknowledgement m dir) s = .next t ∧
        ((t.mod m).dir dir).replay = ((s.mod m).dir dir).replay.drop (i + 1) ∧ ((t.mod m).dir dir).ack = none) ∧
    (∀ i, ((s.mod m).dir dir).nak = some q → ((s.mod m).dir dir).failCount < 3 →
      ((s.mod m).dir dir).replay.findIdx? (fun f => f.seq == q) = some i →
      ∃ t, exec (.ucieNak m dir) s = .next t ∧ ((t.mod m).dir dir).sent = 0 ∧ ((t.mod m).dir dir).nak = none ∧
        ((t.mod m).dir dir).replay = ((s.mod m).dir dir).replay.drop i) ∧
    ((s.mod m).live = true → ((s.mod m).dir dir).tooManyErrors = true → ∃ t, exec (.crcRateRetrain m dir) s = .next t ∧
      (t.mod m).retraining = some s.cycle ∧ (t.mod m).retrains = min 0xFF ((s.mod m).retrains + 1))) ∧
  (∀ (m : Nat) (s : State) (lanes0 lanes1 : BitVec 64) (n : Nat), (s.mod m).retraining = some n →
    let lo := halfFailed (lanes0 ||| lanes1) 0
    let hi := halfFailed (lanes0 ||| lanes1) 1
    (lo ≤ 2 ∧ hi ≤ 2 → ∃ t, exec (.moduleRetrainEnd m lanes0 lanes1) s = .next t ∧ (t.mod m).retraining = none ∧
      (t.mod m).down = false ∧ (t.mod m).repaired = lo + hi) ∧
    (2 < lo ∧ hi ≤ 2 ∨ lo ≤ 2 ∧ 2 < hi → ∃ t, exec (.moduleRetrainEnd m lanes0 lanes1) s = .next t ∧
      (t.mod m).retraining = none ∧ (t.mod m).down = false ∧ (t.mod m).width = true ∧
      (t.mod m).half = decide (2 < lo) ∧ (t.mod m).repaired = min lo hi) ∧
    (2 < lo ∧ 2 < hi → (s.mod m).down = false → m < 240 → ∃ t, exec (.moduleRetrainEnd m lanes0 lanes1) s = .next t ∧
      (t.mod m).down = true)) ∧
  (∀ (m : Nat) (s : State), (∃ t, exec (.d2dstatRetrain m) s = .next t ∧ (t.mod m).request = true ∧
      (t.mod m).retraining.isSome = true) ∧
    (∃ t, exec (.d2dstatRead m) s = .next t ∧ t.mgmt.readData = BitVec.ofNat 64 (s.mod m).stat ∧ (t.mod m).crcErr = 0 ∧
      (t.mod m).retrains = 0)) ∧
  (∀ (die i : Nat) (s : State) (m : IMsg), s.transit[i]? = some m → m.dst = die →
    (s.transit.take i).any (fun q => q.stream == m.stream) = false → m.isPacket = false →
    let s1 : State := { s with transit := s.transit.eraseIdx i }
    (newerNum (Assoc.find s.streamSeen m.stream) m.num = true → exec (.internalMessageReceive die i) s =
      .next (State.accept { s1 with streamSeen := Assoc.put s.streamSeen m.stream m.num } m)) ∧
    (newerNum (Assoc.find s.streamSeen m.stream) m.num = false →
      exec (.internalMessageReceive die i) s = .next (s1.dieDrop die))) ∧
  (∀ s : State, s.epochAt + 2 ^ 20 ≤ s.cycle → ∃ t, exec .streamMappingEpoch s = .next t ∧ t.epochAt = s.cycle ∧
    ∀ m, m ∈ s.mods.map (·.1) → (t.mod m).spread = !(t.mod m).down) ∧
  (∀ (m dir : Nat) (s : State) (l : LinkDir), m < 240 → dir < 2 → (s.mod m).live = true →
    ((s.mod m).dir dir).transmit = some l → ∃ t, exec (.flitTransmit m dir) s = .next t ∧ (t.mod m).dir dir = l) ∧
  (∀ (p dir : Nat) (s : State) (x : Port), p < 128 → (s.port p).transmit = some x →
    ∃ t, exec (.flitTransmit (256 + p) dir) s = .next t ∧ t.port p = x) ∧
  (∀ (i : Nat) (v : Word) (s : State), i < 240 ∨ 256 ≤ i ∧ i < 384 →
    (permitsOk v = false → exec (.permitcfgWrite i v) s = .next s.refuseCfg) ∧
    (permitsOk v = true → ∃ t, exec (.permitcfgWrite i v) s = .next t ∧ ∀ c, c < 6 →
      (if i < 240 then (t.mod i).permits else (t.port (i - 256)).permits).getD c 0 = v.toNat / 2 ^ (8 * c) % 2 ^ 8))

/-- R41 to R45, R52, R57. A failed wire unit is counted and asks for a resend, and the third of one number retrains; data
flits behind a failed one are discarded unchecked; a good data flit in sequence advances the receiver; link control
acknowledges; retraining keeps two lanes or one, or takes the port down; training and identification bring it up; FABCFG
enables the ports and clamps MCWAIT to 28. The model's choices: a failed unit counts for the expected number (log 58); RETRAIN
of a port that is DOWN trains it again while ENABLE = 1, and one of a port that trains is kept until the end of its training
(log 66). -/
def Obligations.PortEvents : Prop :=
  (∀ (p : Nat) (f : Flit) (w : BitVec 32) (s : State), s.portUp p = true → (s.port p).retraining = none →
    let x := s.port p
    let n := if x.failSeq = x.expect then x.failCount + 1 else 1
    (x.unchecked w = true → exec (.foripFlitReceive p f w) s = .next s) ∧
    (x.unchecked w = decide (x.failCount ≠ 0 ∧ w.toNat / 2 ^ 16 % 2 ^ 4 ≠ 0 ∧ w.toNat / 2 ^ 20 % 2 ^ 12 ≠ x.expect)) ∧
    (x.unchecked w = false → unitOk f w = false → ∃ t, exec (.foripFlitReceive p f w) s = .next t ∧
      (t.port p).crcErr = min 0xFFFF (x.crcErr + 1) ∧ (t.port p).nak = true ∧ (t.port p).expect = x.expect ∧
      (3 ≤ n → (t.port p).retraining = some s.cycle) ∧ (n < 3 → (t.port p).failCount = n)) ∧
    (unitOk f w = true → w.toNat / 2 ^ 16 % 2 ^ 4 ≠ 0 → w.toNat / 2 ^ 20 % 2 ^ 12 = x.expect →
      ∃ t, exec (.foripFlitReceive p f w) s = .next t ∧ (t.port p).expect = (x.expect + 1) % 4096 ∧
        (t.port p).nak = false ∧ (t.port p).crcErr = x.crcErr) ∧
    (unitOk f w = true → w.toNat / 2 ^ 16 % 2 ^ 4 ≠ 0 → w.toNat / 2 ^ 20 % 2 ^ 12 ≠ x.expect →
      ∃ t, exec (.foripFlitReceive p f w) s = .next t ∧ t.zin = s.zin ∧ (t.port p).expect = x.expect) ∧
    (∀ i, f.getLsbD 12 = true → x.replay.findIdx? (fun g => g.seq == f.toNat % 2 ^ 12) = some i → f.getLsbD 14 = false →
      ∃ t, exec (.linkControlReceive p f) s = .next t ∧ (t.port p).replay = x.replay.drop (i + 1)) ∧
    (∃ t, exec (.linkControlSend p) s = .next t ∧ (t.port p).unit = some (x.control, trailer x.control 0 0) ∧
      (t.port p).sinceControl = 0 ∧ (t.port p).nak = false) ∧
    (x.tooManyErrors = true → ∃ t, exec (.foripRateRetrain p) s = .next t ∧ (t.port p).retraining = some s.cycle ∧
      (t.port p).retrains = min 0xFF (x.retrains + 1)) ∧
    (∃ t, exec (.fpstatRetrain p) s = .next t ∧ (t.port p).request = true ∧ (t.port p).retraining = some s.cycle)) ∧
  (∀ (p n : Nat) (s : State), (s.port p).retraining = some n →
    let x := s.port p
    (∃ t, exec (.foripRetrainEnd p true true) s = .next t ∧ (t.port p).retraining = none ∧
      (t.port p).oneLane = (x.oneLane && !x.request)) ∧
    (∀ k : Bool, ∃ t, exec (.foripRetrainEnd p (!k) k) s = .next t ∧ (t.port p).retraining = none ∧
      (t.port p).oneLane = true ∧ (t.port p).lane = if k then 1 else 0) ∧
    (∃ t, exec (.foripRetrainEnd p false false) s = .next t ∧ (t.port p).st = .down)) ∧
  (∀ (p : Nat) (s : State), p < 128 → ∃ t, exec (.fpstatRead p) s = .next t ∧
    t.mgmt.readData = BitVec.ofNat 64 (s.fpstat p) ∧ (t.port p).crcErr = 0 ∧ (t.port p).retrains = 0 ∧
    Assoc.get t.drops p 0 = 0) ∧
  (∀ (p : Nat) (s : State), s.fab.enable = true →
    ((s.port p).st = .train → ∃ t, exec (.portTrainComplete p) s = .next t ∧ (t.port p).st = .ident ∧
      (t.port p).identSent = some (s.pkgId, p)) ∧
    ((s.port p).st = .down → ∃ t, exec (.fpstatRetrain p) s = .next t ∧ (t.port p).st = .train)) ∧
  (∀ (p : Nat) (s : State), (s.port p).st ≠ .up → ∃ t, exec (.fpstatRetrain p) s = .next t ∧ (t.port p).request = true ∧
    (t.port p).retraining = (s.port p).retraining ∧ ((s.port p).st ≠ .down → (t.port p).st = (s.port p).st)) ∧
  (∀ (p pkg q : Nat) (s : State), (s.port p).st = .ident → pkg < 2 ^ 13 → q < 128 →
    ∃ t, exec (.portIdent p pkg q) s = .next t ∧ (t.port p).st = .up ∧ (t.port p).peerPkg = pkg ∧ (t.port p).peerPort = q ∧
      (t.port p).oneLane = ((s.port p).oneLane && !(s.port p).request) ∧ (t.port p).request = false) ∧
  (∀ (v : Word) (s : State), ∃ t, exec (.fabcfgWrite v) s = .next t ∧ t.mcwait = min 28 (v.toNat / 2 ^ 40 % 2 ^ 5) ∧
    (28 < v.toNat / 2 ^ 40 % 2 ^ 5 → t.mgmt.clamp = true) ∧ t.fab.enable = v.getLsbD 13 ∧ t.pkgId = (if s.fab.enable then s.pkgId else v.toNat % 2 ^ 13) ∧
    (s.fab.enable = false → v.getLsbD 13 = true → ∀ p, p < 128 → (s.port p).st = .down → (t.port p).st = .train))

/-- R68 to R71, R81, R82. A core's contribution or arrival of the expected version opens a free slot for its sequence and sets
its input's bit; a second one of an input changes nothing; one of another version, or one that a stopped or leaving node opens no
slot for, is answered with code 2; a REDUCE that R69 forbids or with a reserved DEST bit is discarded with 0x81, one for a group
without a node with 0x87. A slot closes when its time is over. That a node stops opening slots from PREPARE's arrival on, and which
version a leaving one names, are the model's choices (log 68). -/
def Sys2Proof.Rule.InputsReachTheirSlots : Prop :=
  (∀ (n : Nat) (s : State) (z : ZPacket) (ins : Instr) (opc : Nat),
    (ins = .reduce n ∧ opc = 0x04 ∨ ins = .barrierArrive n ∧ opc = 0x09) → s.handedAt n opc = some z →
    let s1 := s.dropHanded n
    let p := z.pkt
    let bad := reduceBad (p.oparg / 16) (p.oparg % 16) (p.dest / 2 ^ 5 % 2 ^ 3)
      (p.len * 64 / fmtSize (p.oparg % 16)) false
    let x := Packet.rseq p
    Packet.part p = false →
    (opc = 0x04 → bad = true → exec ins s = .next (s1.discard z 0x81)) ∧
    (opc = 0x09 ∨ bad = false → p.dest.testBit 0 = true → exec ins s = .next (s1.discard z 0x81)) ∧
    (opc = 0x09 ∨ bad = false → p.dest.testBit 0 = false → s1.group p.group = none →
      exec ins s = .next (s1.discard z 0x87)) ∧
    (∀ h0 ix, opc = 0x09 ∨ bad = false → p.dest.testBit 0 = false → s1.group p.group = some h0 →
      let h := s1.halfFor p.group h0 x
      let k := x % h.nslot
      let r := (s1.node p.group).slot k
      srcPkg p.src = s1.pkgId → h.coreInput (srcCore p.src) = some ix →
      let takes := s1.versionOk p.group h0 x p.gver && !s1.shutFor p.group h0 x r
      (takes = true → r.stage = .free → newer x r.last = true → Packet.pres p = false →
        (∃ i, i < h.nin ∧ i ≠ ix) → ∃ t, exec ins s = .next t ∧
          let r' := (t.node p.group).slot k
          r'.stage = .opened ∧ r'.x = x ∧ r'.bits = [ix] ∧ r'.cores = [srcCore p.src] ∧ r'.barrier = (opc == 0x09) ∧
          r'.since = s1.cycle) ∧
      (takes = true → r.stage = .opened → r.x = x → r.bits.contains ix = true →
        exec ins s = .next s1) ∧
      (takes = false → exec ins s =
        .next (s1.ownStatus h0 p.group (srcCore p.src) k x 2 (if opc = 0x09 then 1 else 0))))) ∧
  (∀ (g k : Nat) (s : State), s.slotLate g k = true →
    ∃ t, exec (.slotTimeout g k) s = .next t ∧ ((t.node g).slot k).stage ≠ .opened)

/-- R70, R75 to R77, R82, R218, R239. The data of a result, its three status rows and the row of a release join what waits at
each reachable core of the set, and the Z die writes them there one row after another: a row is written whole when nothing
that came before it waits and its engine port is free, and takes the port for the cycle; the last one releases the entries
that wait for a status. A status or a release frees the leaf's slot, as does a wait of 2^RWAIT cycles, which gives every
contributing member MEMBER_UNREACHABLE. The status phase carries CODE, FLAGS, RSEQ, GVER, BOUND, NPRES and NRANK, and the
bitmap of ranks; the leaf makes code 5 of code 1 for a member whose bit is clear. What no slot awaits is counted, and
acknowledged with 0, or with 0x89 where it is data (R429); for a barrier's release 0x89, that a slot is free before its rows
are written, and that BOUND in a member's row is that of its own node, are the model's choices (log 68). -/
def Sys2Proof.Rule.ResultsReachTheirMembers : Prop :=
  (∀ (n : Nat) (s : State) (z : ZPacket), s.handedAt n 0x05 = some z →
    let p := z.pkt
    let ok := (s.fanCores z).filter s.coreReachable
    (∀ c, s.groupRefusal p = some c → ∀ i k, (i, k) ∈ [(Instr.reduceResultData n, 0), (.reduceResultStatus n, 1)] →
      p.oparg = k → exec i s = .next ((s.dropHanded n).discard z c)) ∧
    (s.groupRefusal p = none → s.awaits p = none →
      (p.oparg = 0 → exec (.reduceResultData n) s = .next (((s.dropHanded n).ackHanded z 0x89).countDrop z.port)) ∧
      (p.oparg = 1 → exec (.reduceResultStatus n) s = .next (((s.dropHanded n).ackHanded z 0).countDrop z.port))) ∧
    (∀ h k, s.groupRefusal p = none → s.awaits p = some (h, k) →
      let b := bufOfCode (h.f 103 102)
      let r := (h.f 149 128 + 1024 * k) / 256
      let q := (h.f 181 160 + 1024 * k) / 256
      (p.oparg = 0 → ∃ t, exec (.reduceResultData n) s = .next t ∧ ∀ c ∈ ok, ∃ id,
        (t.core c).rx = (s.core c).rx ++ [.rows ⟨some id, b,
          (List.range ((p.len + 3) / 4)).map (fun j => (r + j, bytesOf 256 (p.rowAt j).toNat)), none⟩]) ∧
      (∀ h0, p.oparg = 1 → s.group p.group = some h0 → ∃ t, exec (.reduceResultStatus n) s = .next t ∧
        (h.isLeaf = true → ((t.node p.group).slot k).stage = .free) ∧
        ∀ c ∈ ok,
          let sum := bytesOf 64 (p.payload.getD 0 0).toNat
          let bits := ofBytes (p.bytes.drop 64)
          let absent := (h.coreInput c).any (fun i => !bits.testBit (h.f 51 40 + i))
          let code := if (sum.headD 0).toNat = 1 ∧ absent = true then 5 else (sum.headD 0).toNat
          let row := bytesOf 1 code ++ (sum.drop 1).take 5 ++ bytesOf 2 h0.bound ++ (sum.drop 8).take 4
          ∃ id, (t.core c).rx = (s.core c).rx ++ [.rows ⟨some id, b,
            [(q, row), (q + 1, bytesOf 256 (bits % 2 ^ 2048)), (q + 2, bytesOf 256 (bits / 2 ^ 2048))],
            some (p.group, Packet.rseq p, row)⟩]))) ∧
  (∀ (n : Nat) (s : State) (z : ZPacket), s.handedAt n 0x0A = some z →
    let p := z.pkt
    (∀ c, s.groupRefusal p = some c → exec (.barrierRelease n) s = .next ((s.dropHanded n).discard z c)) ∧
    (s.groupRefusal p = none → s.awaits p = none →
      exec (.barrierRelease n) s = .next (((s.dropHanded n).ackHanded z 0x89).countDrop z.port)) ∧
    (∀ h h0 k, s.groupRefusal p = none → s.awaits p = some (h, k) → s.group p.group = some h0 →
      let x := Packet.rseq p
      let row := bytesOf 1 (p.status % 8) ++ bytesOf 1 0 ++ bytesOf 2 x ++ bytesOf 1 p.gver ++ bytesOf 1 1 ++ bytesOf 2 h0.bound
        ++ bytesOf 2 0 ++ bytesOf 2 (h.f 36 24)
      ∃ t, exec (.barrierRelease n) s = .next t ∧ (h.isLeaf = true → ((t.node p.group).slot k).stage = .free) ∧
        ∀ c ∈ (s.fanCores z).filter s.coreReachable, ∃ id, (t.core c).rx = (s.core c).rx ++
          [.rows ⟨some id, bufOfCode (h.f 103 102), [((h.f 181 160 + 1024 * k) / 256, row)], some (p.group, x, row)⟩])) ∧
  (∀ (s : State) (c i j : Nat) (r : ResultRows) (bytes : List Byte) (l : List (Nat × List Byte)), r.rows = (j, bytes) :: l →
    (s.core c).rx[i]? = some (.rows r) →
    let waits := ((s.core c).rx.take i).any RxItem.performs || !s.portOpen c r.buf j
    (waits = true → s.writeResult c i r = none) ∧
    (waits = false → ∃ t, s.writeResult c i r = some t ∧
      ((s.core c).liveRow r.buf j = false →
        (t.core c).row r.buf j = BitVec.ofNat 2048 (ofBytes bytes) ∧ t.portOpen c r.buf j = false) ∧
      (∀ j', j' ≠ j → (t.core c).row r.buf j' = (s.core c).row r.buf j') ∧
      (l ≠ [] → (t.core c).rx = (s.core c).rx.set i (.rows { r with rows := l })) ∧
      (l = [] → (t.core c).rx = (s.core c).rx.eraseIdx i ∧
        ∀ g x b, r.status = some (g, x, b) → ∀ y e, e ∈ (s.ctxOf c y).lq → e.kind = .status g x → e.missing ≠ 0 →
          { e with missing := 0, reqs := [], data := BitVec.ofNat 2048 (ofBytes (b.take 8)) } ∈ (t.ctxOf c y).lq))) ∧
  (∀ (g k : Nat) (s : State) (h0 : GroupHalf) (d : Delivery), s.group g = some h0 →
    (s.node g).deliveries.find? (fun d => d.slot == k && d.acked && !d.sent) = some d →
    let h := s.halfFor g h0 d.x
    let code := if d.mism then 4 else if (List.range d.nrank).all d.ranks.contains then 0 else 1
    let flag := if d.unreach then 1 else 0
    let sum := bytesOf 1 code ++ bytesOf 1 flag ++ bytesOf 2 d.x ++ bytesOf 1 d.gver ++ bytesOf 1 0 ++ bytesOf 2 h0.bound
      ++ bytesOf 2 d.ranks.length ++ bytesOf 2 d.nrank
    let n := (d.nrank + 511) / 512
    ∃ (u : State) (p : Packet), exec (.statusPhaseSend g k) s = .next (u.sendFan (h.f 115 104) p (.status g k d.x)) ∧ u.cores = s.cores ∧
      (∀ e ∈ (u.node g).deliveries, e.slot = k → e.x = d.x → e.sent = true) ∧
      p.opc = 0x05 ∧ p.oparg = 1 ∧ p.group = g ∧ p.gver = d.gver ∧ Packet.rseq p = d.x % 2 ^ 14 ∧
      p.status = 0xC0 + code + 8 * flag ∧
      p.payload = flitsOf 1 sum ++ flitsOf n (bytesOf (64 * n) ((d.ranks.map (2 ^ ·)).foldl (· + ·) 0))) ∧
  (∀ (g k : Nat) (s : State) (h0 : GroupHalf), s.group g = some h0 → s.resultLate g k = true →
    let r := (s.node g).slot k
    let h := s.halfFor g h0 r.x
    ∃ t, exec (.resultWaitTimeout g k) s = .next t ∧ (t.node g).slot k = r.free ∧
      ∀ c ∈ r.cores, s.coreReachable c = true →
        let row := bytesOf 1 3 ++ bytesOf 1 0 ++ bytesOf 2 r.x ++ bytesOf 1 h.ver ++ bytesOf 1 (if r.barrier then 1 else 0)
          ++ bytesOf 2 h.bound ++ bytesOf 2 0 ++ bytesOf 2 (h.f 36 24)
        .rows ⟨none, bufOfCode (h.f 103 102), [((h.f 181 160 + 1024 * k) / 256, row)], some (g, r.x, row)⟩ ∈ (t.core c).rx)

/-- R72 to R75. comb adds, takes the larger or smaller, or combines the bits of two elements; in arrival order a slot combines each
input into one accumulator, in tree order it pairs neighbours, an absent one letting the other pass up; so the sums of the example
of R74 come out as its table says; a node that is not the root sends what it combined up its route. That a slot without counted data
sends a partial of LEN 1 of zeros is the model's choice (log 68). -/
def Sys2Proof.Rule.ReducedValues : Prop :=
  (∀ (ifmt : Nat) (a b : Nat × Nat),
    (ifmt ≠ 5 → combine 0 ifmt a b = ((f32add a.1 b.1).1, 0) ∧ combine 2 ifmt a b = (largerOf 0 a.1 b.1, 0) ∧
      combine 3 ifmt a b = (smallerOf 0 a.1 b.1, 0)) ∧
    combine 0 5 a b = (wrap 64 (signed 64 a.1 + signed 64 b.1), 0) ∧
    combine 2 5 a b = (wrap 64 (max (signed 64 a.1) (signed 64 b.1)), 0) ∧
    combine 3 5 a b = (wrap 64 (min (signed 64 a.1) (signed 64 b.1)), 0) ∧
    combine 4 5 a b = (a.1 &&& b.1, 0) ∧ combine 5 5 a b = (a.1 ||| b.1, 0) ∧ combine 6 5 a b = (a.1 ^^^ b.1, 0) ∧
    (combine 1 ifmt a b).1 = (twoSum a.1 b.1).1.1) ∧
  (∀ (op ifmt : Nat) (a b : List (Nat × Nat)) (i : Nat), i < a.length → i < b.length →
    (combineAll op ifmt a b)[i]? = some (combine op ifmt (a.getD i (0, 0)) (b.getD i (0, 0)))) ∧
  (∀ (r : RSlot) (h : GroupHalf) (i : Input), r.agrees i = true → i.mism = false → i.pres = false → i.barrier = false →
    (r.take h i).acc = some (match r.acc with
      | none => i.data
      | some a => combineAll r.op r.ifmt a i.data) ∧
    Assoc.find (r.take h i).data i.ix = some i.data) ∧
  (∀ (r : RSlot) (h : GroupHalf) (a b c d : List (Nat × Nat)), r.order = false → h.nin = 4 →
    Assoc.find r.data 0 = some a → Assoc.find r.data 1 = some b → Assoc.find r.data 2 = some c → Assoc.find r.data 3 = some d →
    let comb := combineAll r.op r.ifmt
    (r.bits = [0, 1, 2, 3] → r.result h = comb (comb a b) (comb c d)) ∧
    (r.bits = [0, 2, 3] → r.result h = comb a (comb c d))) ∧
  (let big := (0x4B800000, 0)
    let one := (0x3F800000, 0)
    let neg := (0xCB800000, 0)
    let add := combine 0 0
    add (add big one) (add one neg) = (0x3F800000, 0) ∧ add (add (add big one) one) neg = (0, 0) ∧
    add (add (add neg big) one) one = (0x40000000, 0)) ∧
  (∀ (g k : Nat) (s : State) (h0 : GroupHalf), s.group g = some h0 → s.slotLate g k = true →
    let r := (s.node g).slot k
    let h := s.halfFor g h0 r.x
    h.root = false → r.barrier = false → r.mism = false →
    ∃ t p, exec (.slotTimeout g k) s = .next t ∧ p ∈ t.zin.map (·.pkt) ∧ p.opc = 0x04 ∧ p.group = g ∧
      p.oparg = r.ifmt + 16 * r.op ∧ p.route.take h.proute.length = h.proute.take 8 ∧
      let bytes := partialBytes r.op r.ifmt (r.result h)
      p.payload = flitsOf (max 1 ((bytes.length + 63) / 64)) bytes)

/-- R65, R67, R84. A write of a half's word 0 is refused while the active half is valid; one without VALID leaves the half
invalid, one with VALID makes it valid when its checks pass and is refused otherwise; a deleted group is no longer there; a
ring takes its configuration unless slots are full or its entries are taken. -/
def Sys2Proof.Rule.GroupsAndRingsAreConfigured : Prop :=
  (∀ (g : Nat) (staged : Bool) (v : Word) (s : State), g < 4096 →
    let h := s.half g staged
    let h' := (h.writeWord0 v.toNat).set 0 0 0
    (staged = false → h.ctl.getLsbD 0 = true → exec (.groupValidWrite g staged v) s = .next s.refuseCfg) ∧
    (staged = true ∨ h.ctl.getLsbD 0 = false →
      (v.getLsbD 0 = false → exec (.groupValidWrite g staged v) s = .next (s.setHalf g staged h')) ∧
      (v.getLsbD 0 = true → s.halfOk g staged h' = false →
        exec (.groupValidWrite g staged v) s = .next (s.setHalf g staged h').refuseCfg) ∧
      (v.getLsbD 0 = true → s.halfOk g staged h' = true → ∃ t, exec (.groupValidWrite g staged v) s = .next t ∧
        (t.half g staged).ctl.getLsbD 0 = true ∧ (t.half g (!staged)) = s.half g (!staged)))) ∧
  (∀ (g : Nat) (s : State) (h : GroupHalf), s.group g = some h →
    ∃ t, exec (.groupDelete g) s = .next t ∧ t.group g = none ∧ (t.node g).slots = []) ∧
  (∀ (r : Nat) (v : Word) (s : State), r < 16 →
    let base := v.toNat / 2 ^ 26 % 2 ^ 14
    let slots := v.toNat / 2 ^ 40 % 2 ^ 8
    let refused := s.ringFull r ≠ 0 ∨ s.groupTakes none base slots = true ∨ s.ringTakes (fun q _ => q != r) base slots = true
    (refused → exec (.ringcfgWrite r v) s = .next s.refuseCfg) ∧
    (¬ refused → ∃ t, exec (.ringcfgWrite r v) s = .next t ∧ t.ringCfg r = v.toNat / 2 ^ 26 % 2 ^ 30 * 2 ^ 26))

/-- R79, R80. A proposal needs a valid root and starts a round; PREPARE stops a matching node, READY is counted for its child,
COMMIT installs the staged half with its boundary, ABORT gives the round up; a round past its deadline ends with AGR = 2, a
settled commit with AGR = 3, and a node that has left is deleted. A COMMIT without a matching half logs 0x87 once; that its further
copies only end is the model's choice (log 68). -/
def Sys2Proof.Rule.AgreementRounds : Prop :=
  (∀ (g : Nat) (s : State),
    (∀ h, s.group g = some h → h.root = true → h.f 2 2 = 0 → s.stagedHalf g = none → ∃ t, exec (.groupPropose g) s = .next t ∧
      (t.half g false).f 2 2 = 1 ∧ (t.half g false).f 15 14 = 1 ∧
      (t.node g).round.map (fun r => (r.ver, r.since)) = some ((h.ver + 1) % 256, s.cycle)) ∧
    (s.group g = none → exec (.groupPropose g) s = .next s.refuseCfg) ∧
    (∀ h r, s.group g = some h → (s.node g).round = some r → s.roundLate g = true →
      ∃ t, exec (.agreeDeadline g) s = .next t ∧ (t.half g false).f 2 2 = 0 ∧ (t.half g false).f 15 14 = 2 ∧
        (t.half g true).f 0 0 = 0 ∧ (t.node g).round = none ∧ (t.node g).stopped = false) ∧
    (s.commitSettled g = true → ∃ t, exec (.agreeCommitDone g) s = .next t ∧
      (t.half g false).f 2 2 = 0 ∧ (t.half g false).f 15 14 = 3 ∧ (t.node g).round = none) ∧
    (s.leaveDone g = true → ∃ t, exec (.leaveComplete g) s = .next t ∧ t.group g = none)) ∧
  (∀ (n : Nat) (s : State) (z : ZPacket),
    let g := z.pkt.group
    let s1 := s.dropHanded n
    let ver := Packet.agreeByte z.pkt 1
    let odd := z.pkt.dest.testBit 0
    (∀ h m, s.agreeAt n 1 = some z → odd = false → s1.group g = some h → s1.matching g ver = some m →
      (∀ r, (s1.node g).round = some r → r.proposer = false) → ∃ t, exec (.agreePrepare n) s = .next t ∧ (t.node g).stopped = true) ∧
    (∀ h ix, s.agreeAt n 2 = some z → odd = false → s1.group g = some h → h.childInput (srcPkg z.pkt.src) = some ix →
      ver = (h.ver + 1) % 256 → ∃ t, exec (.agreeReady n) s = .next t ∧
        ∃ r, (t.node g).round = some r ∧ r.ver = ver ∧ r.ready.contains (srcPkg z.pkt.src) = true) ∧
    (∀ h m, s.agreeAt n 3 = some z → odd = false → s1.group g = some h → s1.matching g ver = some m → m.leaves = false →
      (h.bound == Packet.agreeB z.pkt && (h.ver == ver || (s1.node g).leaving)) = false →
      (s1.node g).refused ≠ some (ver, Packet.agreeB z.pkt) →
      ∃ t, exec (.agreeCommit n) s = .next t ∧ (t.half g false).bound = Packet.agreeB z.pkt ∧
        (t.half g true).f 0 0 = 0 ∧ (t.node g).stopped = false ∧ (Packet.agreeB z.pkt, h) ∈ (t.node g).old) ∧
    (∀ h, s.agreeAt n 3 = some z → odd = false → s1.group g = some h → s1.matching g ver = none →
      (h.bound == Packet.agreeB z.pkt && (h.ver == ver || (s1.node g).leaving)) = false →
      let refused := some (ver, Packet.agreeB z.pkt)
      exec (.agreeCommit n) s = .next (if (s1.node g).refused = refused then s1.ackHanded z 0
        else ((s1.logEvent 14 0x87 g).modNode g (fun m => { m with refused := refused })).ackHanded z 0)) ∧
    (s.agreeAt n 4 = some z → s1.agreeRefusal z.pkt = none → ∃ t, exec (.agreeAbort n) s = .next t ∧ (t.half g true).f 0 0 = 0 ∧
      (t.node g).stopped = false ∧ (t.node g).round = none) ∧
    (∀ k c ins, (k, ins) ∈ [(1, Instr.agreePrepare n), (3, .agreeCommit n), (4, .agreeAbort n)] → s.agreeAt n k = some z →
      s1.agreeRefusal z.pkt = some c → exec ins s = .next (s1.discard z c)) ∧
    (s.handedAt n 0x0B = some z → Packet.step z.pkt = 0 ∨ 4 < Packet.step z.pkt → exec (.agreeInvalidStep n) s =
      .next (if odd then s1.discard z 0x81 else s1.countDrop z.port)))

/-- Reductions, barriers, group and ring configuration, and agreement in the fabric. -/
def Obligations.ReductionsGroupsAndAgreement : Prop :=
  Rule.InputsReachTheirSlots ∧ Rule.ResultsReachTheirMembers ∧ Rule.ReducedValues ∧ Rule.GroupsAndRingsAreConfigured ∧ Rule.AgreementRounds
end

