-- ==== Sys2Proof/Laws/Assoc.lean ====
section
/-!
SUPPORT. Sparse tables: what a table reads after an entry is put, changed or deleted.
-/
namespace Sys2Proof.Machine.Assoc
variable {α : Type}

@[simp] theorem find_nil (k : Nat) : find ([] : Assoc α) k = none := rfl

@[simp] theorem get_nil (k : Nat) (d : α) : get ([] : Assoc α) k d = d := rfl

/-- A key that has just been put reads as its new entry. -/
@[simp] theorem find_put_self (t : Assoc α) (k : Nat) (x : α) : find (put t k x) k = some x := by
  induction t with
  | nil => simp [put, find]
  | cons p t ih =>
    simp only [put]
    split
    · simp [find]
    · split
      · simp [find]
      · simp only [find, *, if_false]

/-- Every other key reads as before. -/
theorem find_put_ne (t : Assoc α) {k k' : Nat} (x : α) (h : k' ≠ k) : find (put t k x) k' = find t k' := by
  induction t with
  | nil => simp [put, find, Ne.symm h]
  | cons p t ih =>
    simp only [put]
    split
    · next e => subst e; simp [find, Ne.symm h]
    · split
      · simp only [find]; split
        · omega
        · split
          · split
            · omega
            · rw [if_pos (by omega)]
          · rfl
      · simp only [find, ih]

@[simp] theorem get_put_self (t : Assoc α) (k : Nat) (x d : α) : get (put t k x) k d = x := by simp [get]

theorem get_put_ne (t : Assoc α) {k k' : Nat} (x d : α) (h : k' ≠ k) : get (put t k x) k' d = get t k' d := by
  simp [get, find_put_ne t x h]

/-- A deleted key is not listed. -/
@[simp] theorem find_del_self (t : Assoc α) (k : Nat) : find (del t k) k = none := by
  induction t with
  | nil => rfl
  | cons p t ih =>
    simp only [del, List.filter_cons] at *
    split
    · next h => simp only [find]; rw [if_neg (by simpa using h)]; split <;> simp [ih]
    · exact ih

/-- Another key that is listed stays so when a key is deleted. -/
theorem find_del_of_find (t : Assoc α) {k k' : Nat} {x : α} (h : k' ≠ k) (hx : find t k' = some x) :
    find (del t k) k' = some x := by
  induction t with
  | nil => simp at hx
  | cons p t ih =>
    simp only [find] at hx
    simp only [del, List.filter_cons]
    split at hx
    · next e => subst e; simp [h, find, hx]
    · split at hx
      · cases hx
      · split
        · simp only [find, *, if_false]; exact ih hx
        · exact ih hx

/-- Entries changed one by one keep their keys. -/
theorem find_map (t : Assoc α) (f : Nat → α → α) (k : Nat) :
    find (t.map (fun p => (p.1, f p.1 p.2))) k = (find t k).map (f k) := by
  induction t with
  | nil => rfl
  | cons p t ih =>
    simp only [List.map_cons, find]
    split
    · next e => subst e; rfl
    · split
      · rfl
      · exact ih

end Sys2Proof.Machine.Assoc
end

