-- ==== Sys2Proof/Laws/Memory.lean ====
section
/-!
SUPPORT. Byte memories: what a memory reads after a store, and that every operation on a memory keeps its canonical form.
-/
namespace Sys2Proof.Machine.Memory

@[simp] theorem readByte_nil (a : Nat) : readByte [] a = 0 := rfl

/-- Memories laid behind each other read as the first one that lists the address. -/
theorem readByte_append (l m : Memory) (a : Nat) :
    readByte (l ++ m) a = if l.any (fun c => c.1 == a) then readByte l a else readByte m a := by
  induction l with
  | nil => simp
  | cons c t ih =>
    obtain ⟨b, x⟩ := c
    by_cases h : b = a
    · simp [readByte, h]
    · simp [readByte, h, ih]

/-- A memory whose cells outside a set of addresses are dropped reads as before inside it. -/
theorem readByte_filter (m : Memory) (p : Nat → Bool) (a : Nat) :
    readByte (m.filter (fun c => p c.1)) a = if p a then readByte m a else 0 := by
  induction m with
  | nil => simp
  | cons c t ih =>
    obtain ⟨b, x⟩ := c
    simp only [List.filter_cons]
    by_cases hb : b = a
    · subst hb; by_cases hp : p b = true <;> simp [hp, readByte, ih]
    · by_cases hp : p b = true <;> simp [hp, hb, readByte, ih]

/-- A listed address is one of a dropped or kept cell. -/
theorem any_filter (m : Memory) (p : Nat → Bool) (a : Nat) :
    (m.filter (fun c => p c.1)).any (fun c => c.1 == a) = (p a && m.any (fun c => c.1 == a)) := by
  induction m with
  | nil => simp
  | cons c t ih =>
    obtain ⟨b, x⟩ := c
    simp only [List.filter_cons]
    by_cases hb : b = a
    · subst hb; by_cases hp : p b = true <;> simp [hp, ih]
    · have hb' : (b == a) = false := by simpa using hb
      by_cases hp : p b = true
      · simp only [hp, if_true, List.any_cons, hb', Bool.false_or, ih]
      · simp only [hp, Bool.false_eq_true, if_false, List.any_cons, hb', Bool.false_or, ih]

/-- An unlisted address reads as zero. -/
theorem readByte_of_not_any (m : Memory) (a : Nat) (h : m.any (fun c => c.1 == a) = false) : readByte m a = 0 := by
  induction m with
  | nil => rfl
  | cons c t ih =>
    obtain ⟨b, x⟩ := c
    simp only [List.any_cons, Bool.or_eq_false_iff, beq_eq_false_iff_ne] at h
    simp [readByte, h.1, ih h.2]

/-- The cells of a run of bytes read as the bytes. -/
theorem readByte_cellsOf (bs : List Byte) (b a : Nat) :
    readByte (cellsOf b bs) a = if b ≤ a ∧ a < b + bs.length then bs.getD (a - b) 0 else 0 := by
  induction bs generalizing b with
  | nil =>
    simp [cellsOf]
  | cons x t ih =>
    simp only [cellsOf, List.length_cons]
    by_cases ha : b = a
    · subst ha
      split
      · next h => rw [ih, if_neg (by omega), if_pos (by omega)]; simp [h]
      · rw [if_pos (by omega)]; simp [readByte]
    · have : readByte (if x = 0 then cellsOf (b + 1) t else (b, x) :: cellsOf (b + 1) t) a = readByte (cellsOf (b + 1) t) a := by
        split
        · rfl
        · simp [readByte, ha]
      rw [this, ih]
      by_cases hr : b ≤ a ∧ a < b + (t.length + 1)
      · rw [if_pos (by omega), if_pos hr]
        obtain ⟨d, hd⟩ : ∃ d, a - b = d + 1 := ⟨a - b - 1, by omega⟩
        rw [hd, show a - (b + 1) = d by omega]
        simp
      · rw [if_neg (by omega), if_neg hr]

/-- The cells of a run of bytes lie in the run. -/
theorem mem_cellsOf (bs : List Byte) (b : Nat) (c : Host.Cell) (h : c ∈ cellsOf b bs) :
    b ≤ c.1 ∧ c.1 < b + bs.length ∧ c.2 ≠ 0 := by
  induction bs generalizing b with
  | nil => simp [cellsOf] at h
  | cons x t ih =>
    simp only [cellsOf] at h
    split at h
    · obtain ⟨h1, h2, h3⟩ := ih _ h; simp only [List.length_cons]; exact ⟨by omega, by omega, h3⟩
    · next hx =>
      rcases List.mem_cons.1 h with rfl | h
      · exact ⟨by simp, by simp, hx⟩
      · obtain ⟨h1, h2, h3⟩ := ih _ h; simp only [List.length_cons]; exact ⟨by omega, by omega, h3⟩

/-- No cell of a run of bytes stands outside it. -/
theorem any_cellsOf (bs : List Byte) (b a : Nat) (h : ¬ (b ≤ a ∧ a < b + bs.length)) :
    (cellsOf b bs).any (fun c => c.1 == a) = false := by
  rw [List.any_eq_false]
  intro c hc
  obtain ⟨h1, h2, _⟩ := mem_cellsOf bs b c hc
  simp only [beq_iff_eq]
  omega

/-- A store is read back, and every byte outside it reads as before. -/
theorem readByte_write (m : Memory) (b a : Nat) (bs : List Byte) :
    readByte (write m b bs) a = if b ≤ a ∧ a < b + bs.length then bs.getD (a - b) 0 else readByte m a := by
  have e1 : (m.filter (fun c => decide (c.1 < b))).any (fun c => c.1 == a) = (decide (a < b) && m.any (fun c => c.1 == a)) :=
    any_filter m (fun n => decide (n < b)) a
  have e2 := readByte_filter m (fun n => decide (n < b)) a
  have e3 := readByte_filter m (fun n => decide (b + bs.length ≤ n)) a
  have e4 := readByte_cellsOf bs b a
  simp only [write, readByte_append, List.any_append, e1, e2, e3, e4]
  by_cases hr : b ≤ a ∧ a < b + bs.length
  · have h1 : ¬ a < b := by omega
    simp only [h1, decide_false, Bool.false_and, Bool.false_or, if_pos hr, Bool.false_eq_true, if_false]
    by_cases hc : (cellsOf b bs).any (fun c => c.1 == a) = true
    · simp only [hc, if_true]
    · have hc' : (cellsOf b bs).any (fun c => c.1 == a) = false := Bool.eq_false_iff.2 hc
      have h0 := readByte_of_not_any _ _ hc'
      rw [e4, if_pos hr] at h0
      have h2 : ¬ b + bs.length ≤ a := by omega
      simp only [hc', h2, decide_false, Bool.false_eq_true, if_false]
      exact h0.symm
  · simp only [any_cellsOf bs b a hr, Bool.or_false, if_neg hr]
    by_cases h1 : a < b
    · simp only [h1, decide_true, Bool.true_and, if_true]
      by_cases hm : m.any (fun c => c.1 == a) = true
      · simp only [hm, if_true]
      · have hm' : m.any (fun c => c.1 == a) = false := Bool.eq_false_iff.2 hm
        simp only [hm', Bool.false_eq_true, readByte_of_not_any m a hm', ite_self]
    · have h2 : b + bs.length ≤ a := by omega
      simp only [h1, h2, decide_false, decide_true, Bool.false_and, Bool.false_eq_true, if_false, if_true]

/-! ### The canonical form -/

/-- The canonical form as a property of the cells: their addresses rise and none is zero. -/
theorem wf_iff (m : Memory) : wf m = true ↔ m.Pairwise (fun c d => c.1 < d.1) ∧ ∀ c ∈ m, c.2 ≠ 0 := by
  induction m with
  | nil => simp [wf]
  | cons c t ih =>
    cases t with
    | nil => simp [wf]
    | cons d t =>
      simp only [wf, Bool.and_eq_true, bne_iff_ne, ne_eq, decide_eq_true_eq, ih, List.pairwise_cons, List.mem_cons,
        forall_eq_or_imp]
      constructor
      · rintro ⟨⟨h1, h2⟩, ⟨h3, h4⟩, h5⟩
        exact ⟨⟨⟨h2, fun a ha => Nat.lt_trans h2 (h3 a ha)⟩, h3, h4⟩, h1, h5⟩
      · rintro ⟨⟨⟨h2, _⟩, h3, h4⟩, h1, h5⟩
        exact ⟨⟨h1, h2⟩, ⟨h3, h4⟩, h5⟩

/-- The cells of a run of bytes are in canonical form. -/
theorem wf_cellsOf (bs : List Byte) (b : Nat) : wf (cellsOf b bs) = true := by
  rw [wf_iff]
  refine ⟨?_, fun c hc => (mem_cellsOf bs b c hc).2.2⟩
  induction bs generalizing b with
  | nil => simp [cellsOf]
  | cons x t ih =>
    simp only [cellsOf]
    split
    · exact ih _
    · rw [List.pairwise_cons]
      exact ⟨fun c hc => (mem_cellsOf t _ c hc).1, ih _⟩

/-- A store keeps the canonical form. -/
theorem wf_write (m : Memory) (b : Nat) (bs : List Byte) (h : wf m = true) : wf (write m b bs) = true := by
  rw [wf_iff] at h ⊢
  have hc := (wf_iff _).1 (wf_cellsOf bs b)
  constructor
  · simp only [write, List.append_assoc]
    rw [List.pairwise_append, List.pairwise_append]
    refine ⟨h.1.filter _, ⟨hc.1, h.1.filter _, ?_⟩, ?_⟩
    · intro c hc' d hd
      have := mem_cellsOf bs b c hc'
      simp only [List.mem_filter, decide_eq_true_eq] at hd
      omega
    · intro c hc' d hd
      simp only [List.mem_filter, decide_eq_true_eq] at hc'
      rcases List.mem_append.1 hd with hd | hd
      · have := mem_cellsOf bs b d hd; omega
      · simp only [List.mem_filter, decide_eq_true_eq] at hd; omega
  · intro c hc'
    simp only [write, List.mem_append, List.mem_filter] at hc'
    rcases hc' with (hc' | hc') | hc'
    · exact h.2 c hc'.1
    · exact hc.2 c hc'
    · exact h.2 c hc'.1

@[simp] theorem wf_nil : wf [] = true := rfl

/-- The bytes that a read returns are as many as were asked for. -/
@[simp] theorem length_read (m : Memory) (a n : Nat) : (read m a n).length = n := by simp [read]

/-- Byte i of a read is the byte at its address. -/
theorem getD_read (m : Memory) (a n i : Nat) (h : i < n) : (read m a n).getD i 0 = readByte m (a + i) := by
  have e : ∀ x, a ≤ x → x < a + n → readByte (m.filter (fun c => a ≤ c.1 && c.1 < a + n)) x = readByte m x := by
    intro x h1 h2
    have := readByte_filter m (fun k => decide (a ≤ k) && decide (k < a + n)) x
    rw [this]; simp [h1, h2]
  simp only [read]
  rw [List.getD_eq_getElem?_getD, List.getElem?_map, List.getElem?_range h]
  exact e _ (by omega) (by omega)

end Sys2Proof.Machine.Memory
end

