-- ==== Sys2Proof/Laws/State.lean ====
section
/-!
SUPPORT. One lemma per field per update of the state and of a core: the field that the update writes, and every other
field unchanged.
-/
namespace Sys2Proof.Machine


/-! ### State.note -/

section
variable (s : State) (f : IssueRec → IssueRec)

@[simp] theorem State.note_cycle : (s.note f).cycle = s.cycle := rfl
@[simp] theorem State.note_ticks : (s.note f).ticks = s.ticks := rfl
@[simp] theorem State.note_tickAcc : (s.note f).tickAcc = s.tickAcc := rfl
@[simp] theorem State.note_turn : (s.note f).turn = s.turn := rfl
@[simp] theorem State.note_agenda : (s.note f).agenda = s.agenda := rfl
@[simp] theorem State.note_issue : (s.note f).issue = f s.issue := rfl
@[simp] theorem State.note_free : (s.note f).free = s.free := rfl
@[simp] theorem State.note_cores : (s.note f).cores = s.cores := rfl
@[simp] theorem State.note_coresAvail : (s.note f).coresAvail = s.coresAvail := rfl
@[simp] theorem State.note_launches : (s.note f).launches = s.launches := rfl
@[simp] theorem State.note_nextLaunch : (s.note f).nextLaunch = s.nextLaunch := rfl
@[simp] theorem State.note_pkgId : (s.note f).pkgId = s.pkgId := rfl
@[simp] theorem State.note_mcwait : (s.note f).mcwait = s.mcwait := rfl
@[simp] theorem State.note_busMaster : (s.note f).busMaster = s.busMaster := rfl
@[simp] theorem State.note_writeSize : (s.note f).writeSize = s.writeSize := rfl
@[simp] theorem State.note_readSize : (s.note f).readSize = s.readSize := rfl
@[simp] theorem State.note_mem : (s.note f).mem = s.mem := rfl
@[simp] theorem State.note_unreachable : (s.note f).unreachable = s.unreachable := rfl
@[simp] theorem State.note_mods : (s.note f).mods = s.mods := rfl
@[simp] theorem State.note_streamMap : (s.note f).streamMap = s.streamMap := rfl
@[simp] theorem State.note_epochAt : (s.note f).epochAt = s.epochAt := rfl
@[simp] theorem State.note_transit : (s.note f).transit = s.transit := rfl
@[simp] theorem State.note_streamNum : (s.note f).streamNum = s.streamNum := rfl
@[simp] theorem State.note_streamSeen : (s.note f).streamSeen = s.streamSeen := rfl
@[simp] theorem State.note_outReqs : (s.note f).outReqs = s.outReqs := rfl
@[simp] theorem State.note_zin : (s.note f).zin = s.zin := rfl
@[simp] theorem State.note_drops : (s.note f).drops = s.drops := rfl
@[simp] theorem State.note_eventLog : (s.note f).eventLog = s.eventLog := rfl
@[simp] theorem State.note_fab : (s.note f).fab = s.fab := rfl
@[simp] theorem State.note_power : (s.note f).power = s.power := rfl
@[simp] theorem State.note_wake : (s.note f).wake = s.wake := rfl
@[simp] theorem State.note_mbox : (s.note f).mbox = s.mbox := rfl
@[simp] theorem State.note_mgmt : (s.note f).mgmt = s.mgmt := rfl
@[simp] theorem State.note_queues : (s.note f).queues = s.queues := rfl
@[simp] theorem State.note_fw : (s.note f).fw = s.fw := rfl
@[simp] theorem State.note_sched : (s.note f).sched = s.sched := rfl
end


/-! ### State.setCore -/

section
variable (s : State) (c : Nat) (k : Core)

@[simp] theorem State.setCore_cycle : (s.setCore c k).cycle = s.cycle := rfl
@[simp] theorem State.setCore_ticks : (s.setCore c k).ticks = s.ticks := rfl
@[simp] theorem State.setCore_tickAcc : (s.setCore c k).tickAcc = s.tickAcc := rfl
@[simp] theorem State.setCore_turn : (s.setCore c k).turn = s.turn := rfl
@[simp] theorem State.setCore_agenda : (s.setCore c k).agenda = s.agenda := rfl
@[simp] theorem State.setCore_issue : (s.setCore c k).issue = s.issue := rfl
@[simp] theorem State.setCore_free : (s.setCore c k).free = s.free := rfl
@[simp] theorem State.setCore_cores : (s.setCore c k).cores = Assoc.put s.cores c k := rfl
@[simp] theorem State.setCore_coresAvail : (s.setCore c k).coresAvail = s.coresAvail := rfl
@[simp] theorem State.setCore_launches : (s.setCore c k).launches = s.launches := rfl
@[simp] theorem State.setCore_nextLaunch : (s.setCore c k).nextLaunch = s.nextLaunch := rfl
@[simp] theorem State.setCore_pkgId : (s.setCore c k).pkgId = s.pkgId := rfl
@[simp] theorem State.setCore_mcwait : (s.setCore c k).mcwait = s.mcwait := rfl
@[simp] theorem State.setCore_busMaster : (s.setCore c k).busMaster = s.busMaster := rfl
@[simp] theorem State.setCore_writeSize : (s.setCore c k).writeSize = s.writeSize := rfl
@[simp] theorem State.setCore_readSize : (s.setCore c k).readSize = s.readSize := rfl
@[simp] theorem State.setCore_mem : (s.setCore c k).mem = s.mem := rfl
@[simp] theorem State.setCore_unreachable : (s.setCore c k).unreachable = s.unreachable := rfl
@[simp] theorem State.setCore_mods : (s.setCore c k).mods = s.mods := rfl
@[simp] theorem State.setCore_streamMap : (s.setCore c k).streamMap = s.streamMap := rfl
@[simp] theorem State.setCore_epochAt : (s.setCore c k).epochAt = s.epochAt := rfl
@[simp] theorem State.setCore_transit : (s.setCore c k).transit = s.transit := rfl
@[simp] theorem State.setCore_streamNum : (s.setCore c k).streamNum = s.streamNum := rfl
@[simp] theorem State.setCore_streamSeen : (s.setCore c k).streamSeen = s.streamSeen := rfl
@[simp] theorem State.setCore_outReqs : (s.setCore c k).outReqs = s.outReqs := rfl
@[simp] theorem State.setCore_zin : (s.setCore c k).zin = s.zin := rfl
@[simp] theorem State.setCore_drops : (s.setCore c k).drops = s.drops := rfl
@[simp] theorem State.setCore_eventLog : (s.setCore c k).eventLog = s.eventLog := rfl
@[simp] theorem State.setCore_fab : (s.setCore c k).fab = s.fab := rfl
@[simp] theorem State.setCore_power : (s.setCore c k).power = s.power := rfl
@[simp] theorem State.setCore_wake : (s.setCore c k).wake = s.wake := rfl
@[simp] theorem State.setCore_mbox : (s.setCore c k).mbox = s.mbox := rfl
@[simp] theorem State.setCore_mgmt : (s.setCore c k).mgmt = s.mgmt := rfl
@[simp] theorem State.setCore_queues : (s.setCore c k).queues = s.queues := rfl
@[simp] theorem State.setCore_fw : (s.setCore c k).fw = s.fw := rfl
@[simp] theorem State.setCore_sched : (s.setCore c k).sched = s.sched := rfl
end


/-! ### State.modCore -/

section
variable (s : State) (c : Nat) (f : Core → Core)

@[simp] theorem State.modCore_cycle : (s.modCore c f).cycle = s.cycle := rfl
@[simp] theorem State.modCore_ticks : (s.modCore c f).ticks = s.ticks := rfl
@[simp] theorem State.modCore_tickAcc : (s.modCore c f).tickAcc = s.tickAcc := rfl
@[simp] theorem State.modCore_turn : (s.modCore c f).turn = s.turn := rfl
@[simp] theorem State.modCore_agenda : (s.modCore c f).agenda = s.agenda := rfl
@[simp] theorem State.modCore_issue : (s.modCore c f).issue = s.issue := rfl
@[simp] theorem State.modCore_free : (s.modCore c f).free = s.free := rfl
@[simp] theorem State.modCore_cores : (s.modCore c f).cores = Assoc.put s.cores c (f (s.core c)) := rfl
@[simp] theorem State.modCore_coresAvail : (s.modCore c f).coresAvail = s.coresAvail := rfl
@[simp] theorem State.modCore_launches : (s.modCore c f).launches = s.launches := rfl
@[simp] theorem State.modCore_nextLaunch : (s.modCore c f).nextLaunch = s.nextLaunch := rfl
@[simp] theorem State.modCore_pkgId : (s.modCore c f).pkgId = s.pkgId := rfl
@[simp] theorem State.modCore_mcwait : (s.modCore c f).mcwait = s.mcwait := rfl
@[simp] theorem State.modCore_busMaster : (s.modCore c f).busMaster = s.busMaster := rfl
@[simp] theorem State.modCore_writeSize : (s.modCore c f).writeSize = s.writeSize := rfl
@[simp] theorem State.modCore_readSize : (s.modCore c f).readSize = s.readSize := rfl
@[simp] theorem State.modCore_mem : (s.modCore c f).mem = s.mem := rfl
@[simp] theorem State.modCore_unreachable : (s.modCore c f).unreachable = s.unreachable := rfl
@[simp] theorem State.modCore_mods : (s.modCore c f).mods = s.mods := rfl
@[simp] theorem State.modCore_streamMap : (s.modCore c f).streamMap = s.streamMap := rfl
@[simp] theorem State.modCore_epochAt : (s.modCore c f).epochAt = s.epochAt := rfl
@[simp] theorem State.modCore_transit : (s.modCore c f).transit = s.transit := rfl
@[simp] theorem State.modCore_streamNum : (s.modCore c f).streamNum = s.streamNum := rfl
@[simp] theorem State.modCore_streamSeen : (s.modCore c f).streamSeen = s.streamSeen := rfl
@[simp] theorem State.modCore_outReqs : (s.modCore c f).outReqs = s.outReqs := rfl
@[simp] theorem State.modCore_zin : (s.modCore c f).zin = s.zin := rfl
@[simp] theorem State.modCore_drops : (s.modCore c f).drops = s.drops := rfl
@[simp] theorem State.modCore_eventLog : (s.modCore c f).eventLog = s.eventLog := rfl
@[simp] theorem State.modCore_fab : (s.modCore c f).fab = s.fab := rfl
@[simp] theorem State.modCore_power : (s.modCore c f).power = s.power := rfl
@[simp] theorem State.modCore_wake : (s.modCore c f).wake = s.wake := rfl
@[simp] theorem State.modCore_mbox : (s.modCore c f).mbox = s.mbox := rfl
@[simp] theorem State.modCore_mgmt : (s.modCore c f).mgmt = s.mgmt := rfl
@[simp] theorem State.modCore_queues : (s.modCore c f).queues = s.queues := rfl
@[simp] theorem State.modCore_fw : (s.modCore c f).fw = s.fw := rfl
@[simp] theorem State.modCore_sched : (s.modCore c f).sched = s.sched := rfl
end


/-! ### State.modCtx -/

section
variable (s : State) (c x : Nat) (f : Context → Context)

@[simp] theorem State.modCtx_cycle : (s.modCtx c x f).cycle = s.cycle := rfl
@[simp] theorem State.modCtx_ticks : (s.modCtx c x f).ticks = s.ticks := rfl
@[simp] theorem State.modCtx_tickAcc : (s.modCtx c x f).tickAcc = s.tickAcc := rfl
@[simp] theorem State.modCtx_turn : (s.modCtx c x f).turn = s.turn := rfl
@[simp] theorem State.modCtx_agenda : (s.modCtx c x f).agenda = s.agenda := rfl
@[simp] theorem State.modCtx_issue : (s.modCtx c x f).issue = s.issue := rfl
@[simp] theorem State.modCtx_free : (s.modCtx c x f).free = s.free := rfl
@[simp] theorem State.modCtx_cores : (s.modCtx c x f).cores = Assoc.put s.cores c ((s.core c).setCtx x (f ((s.core c).ctx x))) := rfl
@[simp] theorem State.modCtx_coresAvail : (s.modCtx c x f).coresAvail = s.coresAvail := rfl
@[simp] theorem State.modCtx_launches : (s.modCtx c x f).launches = s.launches := rfl
@[simp] theorem State.modCtx_nextLaunch : (s.modCtx c x f).nextLaunch = s.nextLaunch := rfl
@[simp] theorem State.modCtx_pkgId : (s.modCtx c x f).pkgId = s.pkgId := rfl
@[simp] theorem State.modCtx_mcwait : (s.modCtx c x f).mcwait = s.mcwait := rfl
@[simp] theorem State.modCtx_busMaster : (s.modCtx c x f).busMaster = s.busMaster := rfl
@[simp] theorem State.modCtx_writeSize : (s.modCtx c x f).writeSize = s.writeSize := rfl
@[simp] theorem State.modCtx_readSize : (s.modCtx c x f).readSize = s.readSize := rfl
@[simp] theorem State.modCtx_mem : (s.modCtx c x f).mem = s.mem := rfl
@[simp] theorem State.modCtx_unreachable : (s.modCtx c x f).unreachable = s.unreachable := rfl
@[simp] theorem State.modCtx_mods : (s.modCtx c x f).mods = s.mods := rfl
@[simp] theorem State.modCtx_streamMap : (s.modCtx c x f).streamMap = s.streamMap := rfl
@[simp] theorem State.modCtx_epochAt : (s.modCtx c x f).epochAt = s.epochAt := rfl
@[simp] theorem State.modCtx_transit : (s.modCtx c x f).transit = s.transit := rfl
@[simp] theorem State.modCtx_streamNum : (s.modCtx c x f).streamNum = s.streamNum := rfl
@[simp] theorem State.modCtx_streamSeen : (s.modCtx c x f).streamSeen = s.streamSeen := rfl
@[simp] theorem State.modCtx_outReqs : (s.modCtx c x f).outReqs = s.outReqs := rfl
@[simp] theorem State.modCtx_zin : (s.modCtx c x f).zin = s.zin := rfl
@[simp] theorem State.modCtx_drops : (s.modCtx c x f).drops = s.drops := rfl
@[simp] theorem State.modCtx_eventLog : (s.modCtx c x f).eventLog = s.eventLog := rfl
@[simp] theorem State.modCtx_fab : (s.modCtx c x f).fab = s.fab := rfl
@[simp] theorem State.modCtx_power : (s.modCtx c x f).power = s.power := rfl
@[simp] theorem State.modCtx_wake : (s.modCtx c x f).wake = s.wake := rfl
@[simp] theorem State.modCtx_mbox : (s.modCtx c x f).mbox = s.mbox := rfl
@[simp] theorem State.modCtx_mgmt : (s.modCtx c x f).mgmt = s.mgmt := rfl
@[simp] theorem State.modCtx_queues : (s.modCtx c x f).queues = s.queues := rfl
@[simp] theorem State.modCtx_fw : (s.modCtx c x f).fw = s.fw := rfl
@[simp] theorem State.modCtx_sched : (s.modCtx c x f).sched = s.sched := rfl
end


/-! ### State.modCk -/

section
variable (s : State) (f : Core → Core)

@[simp] theorem State.modCk_cycle : (s.modCk f).cycle = s.cycle := rfl
@[simp] theorem State.modCk_ticks : (s.modCk f).ticks = s.ticks := rfl
@[simp] theorem State.modCk_tickAcc : (s.modCk f).tickAcc = s.tickAcc := rfl
@[simp] theorem State.modCk_turn : (s.modCk f).turn = s.turn := rfl
@[simp] theorem State.modCk_agenda : (s.modCk f).agenda = s.agenda := rfl
@[simp] theorem State.modCk_issue : (s.modCk f).issue = s.issue := rfl
@[simp] theorem State.modCk_free : (s.modCk f).free = s.free := rfl
@[simp] theorem State.modCk_cores : (s.modCk f).cores = Assoc.put s.cores s.issue.core (f s.ck) := rfl
@[simp] theorem State.modCk_coresAvail : (s.modCk f).coresAvail = s.coresAvail := rfl
@[simp] theorem State.modCk_launches : (s.modCk f).launches = s.launches := rfl
@[simp] theorem State.modCk_nextLaunch : (s.modCk f).nextLaunch = s.nextLaunch := rfl
@[simp] theorem State.modCk_pkgId : (s.modCk f).pkgId = s.pkgId := rfl
@[simp] theorem State.modCk_mcwait : (s.modCk f).mcwait = s.mcwait := rfl
@[simp] theorem State.modCk_busMaster : (s.modCk f).busMaster = s.busMaster := rfl
@[simp] theorem State.modCk_writeSize : (s.modCk f).writeSize = s.writeSize := rfl
@[simp] theorem State.modCk_readSize : (s.modCk f).readSize = s.readSize := rfl
@[simp] theorem State.modCk_mem : (s.modCk f).mem = s.mem := rfl
@[simp] theorem State.modCk_unreachable : (s.modCk f).unreachable = s.unreachable := rfl
@[simp] theorem State.modCk_mods : (s.modCk f).mods = s.mods := rfl
@[simp] theorem State.modCk_streamMap : (s.modCk f).streamMap = s.streamMap := rfl
@[simp] theorem State.modCk_epochAt : (s.modCk f).epochAt = s.epochAt := rfl
@[simp] theorem State.modCk_transit : (s.modCk f).transit = s.transit := rfl
@[simp] theorem State.modCk_streamNum : (s.modCk f).streamNum = s.streamNum := rfl
@[simp] theorem State.modCk_streamSeen : (s.modCk f).streamSeen = s.streamSeen := rfl
@[simp] theorem State.modCk_outReqs : (s.modCk f).outReqs = s.outReqs := rfl
@[simp] theorem State.modCk_zin : (s.modCk f).zin = s.zin := rfl
@[simp] theorem State.modCk_drops : (s.modCk f).drops = s.drops := rfl
@[simp] theorem State.modCk_eventLog : (s.modCk f).eventLog = s.eventLog := rfl
@[simp] theorem State.modCk_fab : (s.modCk f).fab = s.fab := rfl
@[simp] theorem State.modCk_power : (s.modCk f).power = s.power := rfl
@[simp] theorem State.modCk_wake : (s.modCk f).wake = s.wake := rfl
@[simp] theorem State.modCk_mbox : (s.modCk f).mbox = s.mbox := rfl
@[simp] theorem State.modCk_mgmt : (s.modCk f).mgmt = s.mgmt := rfl
@[simp] theorem State.modCk_queues : (s.modCk f).queues = s.queues := rfl
@[simp] theorem State.modCk_fw : (s.modCk f).fw = s.fw := rfl
@[simp] theorem State.modCk_sched : (s.modCk f).sched = s.sched := rfl
end


/-! ### State.modCx -/

section
variable (s : State) (f : Context → Context)

@[simp] theorem State.modCx_cycle : (s.modCx f).cycle = s.cycle := rfl
@[simp] theorem State.modCx_ticks : (s.modCx f).ticks = s.ticks := rfl
@[simp] theorem State.modCx_tickAcc : (s.modCx f).tickAcc = s.tickAcc := rfl
@[simp] theorem State.modCx_turn : (s.modCx f).turn = s.turn := rfl
@[simp] theorem State.modCx_agenda : (s.modCx f).agenda = s.agenda := rfl
@[simp] theorem State.modCx_issue : (s.modCx f).issue = s.issue := rfl
@[simp] theorem State.modCx_free : (s.modCx f).free = s.free := rfl
@[simp] theorem State.modCx_cores : (s.modCx f).cores = Assoc.put s.cores s.issue.core (s.ck.setCtx s.issue.ctx (f s.cx)) := rfl
@[simp] theorem State.modCx_coresAvail : (s.modCx f).coresAvail = s.coresAvail := rfl
@[simp] theorem State.modCx_launches : (s.modCx f).launches = s.launches := rfl
@[simp] theorem State.modCx_nextLaunch : (s.modCx f).nextLaunch = s.nextLaunch := rfl
@[simp] theorem State.modCx_pkgId : (s.modCx f).pkgId = s.pkgId := rfl
@[simp] theorem State.modCx_mcwait : (s.modCx f).mcwait = s.mcwait := rfl
@[simp] theorem State.modCx_busMaster : (s.modCx f).busMaster = s.busMaster := rfl
@[simp] theorem State.modCx_writeSize : (s.modCx f).writeSize = s.writeSize := rfl
@[simp] theorem State.modCx_readSize : (s.modCx f).readSize = s.readSize := rfl
@[simp] theorem State.modCx_mem : (s.modCx f).mem = s.mem := rfl
@[simp] theorem State.modCx_unreachable : (s.modCx f).unreachable = s.unreachable := rfl
@[simp] theorem State.modCx_mods : (s.modCx f).mods = s.mods := rfl
@[simp] theorem State.modCx_streamMap : (s.modCx f).streamMap = s.streamMap := rfl
@[simp] theorem State.modCx_epochAt : (s.modCx f).epochAt = s.epochAt := rfl
@[simp] theorem State.modCx_transit : (s.modCx f).transit = s.transit := rfl
@[simp] theorem State.modCx_streamNum : (s.modCx f).streamNum = s.streamNum := rfl
@[simp] theorem State.modCx_streamSeen : (s.modCx f).streamSeen = s.streamSeen := rfl
@[simp] theorem State.modCx_outReqs : (s.modCx f).outReqs = s.outReqs := rfl
@[simp] theorem State.modCx_zin : (s.modCx f).zin = s.zin := rfl
@[simp] theorem State.modCx_drops : (s.modCx f).drops = s.drops := rfl
@[simp] theorem State.modCx_eventLog : (s.modCx f).eventLog = s.eventLog := rfl
@[simp] theorem State.modCx_fab : (s.modCx f).fab = s.fab := rfl
@[simp] theorem State.modCx_power : (s.modCx f).power = s.power := rfl
@[simp] theorem State.modCx_wake : (s.modCx f).wake = s.wake := rfl
@[simp] theorem State.modCx_mbox : (s.modCx f).mbox = s.mbox := rfl
@[simp] theorem State.modCx_mgmt : (s.modCx f).mgmt = s.mgmt := rfl
@[simp] theorem State.modCx_queues : (s.modCx f).queues = s.queues := rfl
@[simp] theorem State.modCx_fw : (s.modCx f).fw = s.fw := rfl
@[simp] theorem State.modCx_sched : (s.modCx f).sched = s.sched := rfl
end


/-! ### State.modMem -/

section
variable (s : State) (f : MemSys → MemSys)

@[simp] theorem State.modMem_cycle : (s.modMem f).cycle = s.cycle := rfl
@[simp] theorem State.modMem_ticks : (s.modMem f).ticks = s.ticks := rfl
@[simp] theorem State.modMem_tickAcc : (s.modMem f).tickAcc = s.tickAcc := rfl
@[simp] theorem State.modMem_turn : (s.modMem f).turn = s.turn := rfl
@[simp] theorem State.modMem_agenda : (s.modMem f).agenda = s.agenda := rfl
@[simp] theorem State.modMem_issue : (s.modMem f).issue = s.issue := rfl
@[simp] theorem State.modMem_free : (s.modMem f).free = s.free := rfl
@[simp] theorem State.modMem_cores : (s.modMem f).cores = s.cores := rfl
@[simp] theorem State.modMem_coresAvail : (s.modMem f).coresAvail = s.coresAvail := rfl
@[simp] theorem State.modMem_launches : (s.modMem f).launches = s.launches := rfl
@[simp] theorem State.modMem_nextLaunch : (s.modMem f).nextLaunch = s.nextLaunch := rfl
@[simp] theorem State.modMem_pkgId : (s.modMem f).pkgId = s.pkgId := rfl
@[simp] theorem State.modMem_mcwait : (s.modMem f).mcwait = s.mcwait := rfl
@[simp] theorem State.modMem_busMaster : (s.modMem f).busMaster = s.busMaster := rfl
@[simp] theorem State.modMem_writeSize : (s.modMem f).writeSize = s.writeSize := rfl
@[simp] theorem State.modMem_readSize : (s.modMem f).readSize = s.readSize := rfl
@[simp] theorem State.modMem_mem : (s.modMem f).mem = f s.mem := rfl
@[simp] theorem State.modMem_unreachable : (s.modMem f).unreachable = s.unreachable := rfl
@[simp] theorem State.modMem_mods : (s.modMem f).mods = s.mods := rfl
@[simp] theorem State.modMem_streamMap : (s.modMem f).streamMap = s.streamMap := rfl
@[simp] theorem State.modMem_epochAt : (s.modMem f).epochAt = s.epochAt := rfl
@[simp] theorem State.modMem_transit : (s.modMem f).transit = s.transit := rfl
@[simp] theorem State.modMem_streamNum : (s.modMem f).streamNum = s.streamNum := rfl
@[simp] theorem State.modMem_streamSeen : (s.modMem f).streamSeen = s.streamSeen := rfl
@[simp] theorem State.modMem_outReqs : (s.modMem f).outReqs = s.outReqs := rfl
@[simp] theorem State.modMem_zin : (s.modMem f).zin = s.zin := rfl
@[simp] theorem State.modMem_drops : (s.modMem f).drops = s.drops := rfl
@[simp] theorem State.modMem_eventLog : (s.modMem f).eventLog = s.eventLog := rfl
@[simp] theorem State.modMem_fab : (s.modMem f).fab = s.fab := rfl
@[simp] theorem State.modMem_power : (s.modMem f).power = s.power := rfl
@[simp] theorem State.modMem_wake : (s.modMem f).wake = s.wake := rfl
@[simp] theorem State.modMem_mbox : (s.modMem f).mbox = s.mbox := rfl
@[simp] theorem State.modMem_mgmt : (s.modMem f).mgmt = s.mgmt := rfl
@[simp] theorem State.modMem_queues : (s.modMem f).queues = s.queues := rfl
@[simp] theorem State.modMem_fw : (s.modMem f).fw = s.fw := rfl
@[simp] theorem State.modMem_sched : (s.modMem f).sched = s.sched := rfl
end


/-! ### State.modFab -/

section
variable (s : State) (f : Fabric → Fabric)

@[simp] theorem State.modFab_cycle : (s.modFab f).cycle = s.cycle := rfl
@[simp] theorem State.modFab_ticks : (s.modFab f).ticks = s.ticks := rfl
@[simp] theorem State.modFab_tickAcc : (s.modFab f).tickAcc = s.tickAcc := rfl
@[simp] theorem State.modFab_turn : (s.modFab f).turn = s.turn := rfl
@[simp] theorem State.modFab_agenda : (s.modFab f).agenda = s.agenda := rfl
@[simp] theorem State.modFab_issue : (s.modFab f).issue = s.issue := rfl
@[simp] theorem State.modFab_free : (s.modFab f).free = s.free := rfl
@[simp] theorem State.modFab_cores : (s.modFab f).cores = s.cores := rfl
@[simp] theorem State.modFab_coresAvail : (s.modFab f).coresAvail = s.coresAvail := rfl
@[simp] theorem State.modFab_launches : (s.modFab f).launches = s.launches := rfl
@[simp] theorem State.modFab_nextLaunch : (s.modFab f).nextLaunch = s.nextLaunch := rfl
@[simp] theorem State.modFab_pkgId : (s.modFab f).pkgId = s.pkgId := rfl
@[simp] theorem State.modFab_mcwait : (s.modFab f).mcwait = s.mcwait := rfl
@[simp] theorem State.modFab_busMaster : (s.modFab f).busMaster = s.busMaster := rfl
@[simp] theorem State.modFab_writeSize : (s.modFab f).writeSize = s.writeSize := rfl
@[simp] theorem State.modFab_readSize : (s.modFab f).readSize = s.readSize := rfl
@[simp] theorem State.modFab_mem : (s.modFab f).mem = s.mem := rfl
@[simp] theorem State.modFab_unreachable : (s.modFab f).unreachable = s.unreachable := rfl
@[simp] theorem State.modFab_mods : (s.modFab f).mods = s.mods := rfl
@[simp] theorem State.modFab_streamMap : (s.modFab f).streamMap = s.streamMap := rfl
@[simp] theorem State.modFab_epochAt : (s.modFab f).epochAt = s.epochAt := rfl
@[simp] theorem State.modFab_transit : (s.modFab f).transit = s.transit := rfl
@[simp] theorem State.modFab_streamNum : (s.modFab f).streamNum = s.streamNum := rfl
@[simp] theorem State.modFab_streamSeen : (s.modFab f).streamSeen = s.streamSeen := rfl
@[simp] theorem State.modFab_outReqs : (s.modFab f).outReqs = s.outReqs := rfl
@[simp] theorem State.modFab_zin : (s.modFab f).zin = s.zin := rfl
@[simp] theorem State.modFab_drops : (s.modFab f).drops = s.drops := rfl
@[simp] theorem State.modFab_eventLog : (s.modFab f).eventLog = s.eventLog := rfl
@[simp] theorem State.modFab_fab : (s.modFab f).fab = f s.fab := rfl
@[simp] theorem State.modFab_power : (s.modFab f).power = s.power := rfl
@[simp] theorem State.modFab_wake : (s.modFab f).wake = s.wake := rfl
@[simp] theorem State.modFab_mbox : (s.modFab f).mbox = s.mbox := rfl
@[simp] theorem State.modFab_mgmt : (s.modFab f).mgmt = s.mgmt := rfl
@[simp] theorem State.modFab_queues : (s.modFab f).queues = s.queues := rfl
@[simp] theorem State.modFab_fw : (s.modFab f).fw = s.fw := rfl
@[simp] theorem State.modFab_sched : (s.modFab f).sched = s.sched := rfl
end


/-! ### State.modMgmt -/

section
variable (s : State) (f : Mgmt → Mgmt)

@[simp] theorem State.modMgmt_cycle : (s.modMgmt f).cycle = s.cycle := rfl
@[simp] theorem State.modMgmt_ticks : (s.modMgmt f).ticks = s.ticks := rfl
@[simp] theorem State.modMgmt_tickAcc : (s.modMgmt f).tickAcc = s.tickAcc := rfl
@[simp] theorem State.modMgmt_turn : (s.modMgmt f).turn = s.turn := rfl
@[simp] theorem State.modMgmt_agenda : (s.modMgmt f).agenda = s.agenda := rfl
@[simp] theorem State.modMgmt_issue : (s.modMgmt f).issue = s.issue := rfl
@[simp] theorem State.modMgmt_free : (s.modMgmt f).free = s.free := rfl
@[simp] theorem State.modMgmt_cores : (s.modMgmt f).cores = s.cores := rfl
@[simp] theorem State.modMgmt_coresAvail : (s.modMgmt f).coresAvail = s.coresAvail := rfl
@[simp] theorem State.modMgmt_launches : (s.modMgmt f).launches = s.launches := rfl
@[simp] theorem State.modMgmt_nextLaunch : (s.modMgmt f).nextLaunch = s.nextLaunch := rfl
@[simp] theorem State.modMgmt_pkgId : (s.modMgmt f).pkgId = s.pkgId := rfl
@[simp] theorem State.modMgmt_mcwait : (s.modMgmt f).mcwait = s.mcwait := rfl
@[simp] theorem State.modMgmt_busMaster : (s.modMgmt f).busMaster = s.busMaster := rfl
@[simp] theorem State.modMgmt_writeSize : (s.modMgmt f).writeSize = s.writeSize := rfl
@[simp] theorem State.modMgmt_readSize : (s.modMgmt f).readSize = s.readSize := rfl
@[simp] theorem State.modMgmt_mem : (s.modMgmt f).mem = s.mem := rfl
@[simp] theorem State.modMgmt_unreachable : (s.modMgmt f).unreachable = s.unreachable := rfl
@[simp] theorem State.modMgmt_mods : (s.modMgmt f).mods = s.mods := rfl
@[simp] theorem State.modMgmt_streamMap : (s.modMgmt f).streamMap = s.streamMap := rfl
@[simp] theorem State.modMgmt_epochAt : (s.modMgmt f).epochAt = s.epochAt := rfl
@[simp] theorem State.modMgmt_transit : (s.modMgmt f).transit = s.transit := rfl
@[simp] theorem State.modMgmt_streamNum : (s.modMgmt f).streamNum = s.streamNum := rfl
@[simp] theorem State.modMgmt_streamSeen : (s.modMgmt f).streamSeen = s.streamSeen := rfl
@[simp] theorem State.modMgmt_outReqs : (s.modMgmt f).outReqs = s.outReqs := rfl
@[simp] theorem State.modMgmt_zin : (s.modMgmt f).zin = s.zin := rfl
@[simp] theorem State.modMgmt_drops : (s.modMgmt f).drops = s.drops := rfl
@[simp] theorem State.modMgmt_eventLog : (s.modMgmt f).eventLog = s.eventLog := rfl
@[simp] theorem State.modMgmt_fab : (s.modMgmt f).fab = s.fab := rfl
@[simp] theorem State.modMgmt_power : (s.modMgmt f).power = s.power := rfl
@[simp] theorem State.modMgmt_wake : (s.modMgmt f).wake = s.wake := rfl
@[simp] theorem State.modMgmt_mbox : (s.modMgmt f).mbox = s.mbox := rfl
@[simp] theorem State.modMgmt_mgmt : (s.modMgmt f).mgmt = f s.mgmt := rfl
@[simp] theorem State.modMgmt_queues : (s.modMgmt f).queues = s.queues := rfl
@[simp] theorem State.modMgmt_fw : (s.modMgmt f).fw = s.fw := rfl
@[simp] theorem State.modMgmt_sched : (s.modMgmt f).sched = s.sched := rfl
end


/-! ### State.modFw -/

section
variable (s : State) (f : Firmware → Firmware)

@[simp] theorem State.modFw_cycle : (s.modFw f).cycle = s.cycle := rfl
@[simp] theorem State.modFw_ticks : (s.modFw f).ticks = s.ticks := rfl
@[simp] theorem State.modFw_tickAcc : (s.modFw f).tickAcc = s.tickAcc := rfl
@[simp] theorem State.modFw_turn : (s.modFw f).turn = s.turn := rfl
@[simp] theorem State.modFw_agenda : (s.modFw f).agenda = s.agenda := rfl
@[simp] theorem State.modFw_issue : (s.modFw f).issue = s.issue := rfl
@[simp] theorem State.modFw_free : (s.modFw f).free = s.free := rfl
@[simp] theorem State.modFw_cores : (s.modFw f).cores = s.cores := rfl
@[simp] theorem State.modFw_coresAvail : (s.modFw f).coresAvail = s.coresAvail := rfl
@[simp] theorem State.modFw_launches : (s.modFw f).launches = s.launches := rfl
@[simp] theorem State.modFw_nextLaunch : (s.modFw f).nextLaunch = s.nextLaunch := rfl
@[simp] theorem State.modFw_pkgId : (s.modFw f).pkgId = s.pkgId := rfl
@[simp] theorem State.modFw_mcwait : (s.modFw f).mcwait = s.mcwait := rfl
@[simp] theorem State.modFw_busMaster : (s.modFw f).busMaster = s.busMaster := rfl
@[simp] theorem State.modFw_writeSize : (s.modFw f).writeSize = s.writeSize := rfl
@[simp] theorem State.modFw_readSize : (s.modFw f).readSize = s.readSize := rfl
@[simp] theorem State.modFw_mem : (s.modFw f).mem = s.mem := rfl
@[simp] theorem State.modFw_unreachable : (s.modFw f).unreachable = s.unreachable := rfl
@[simp] theorem State.modFw_mods : (s.modFw f).mods = s.mods := rfl
@[simp] theorem State.modFw_streamMap : (s.modFw f).streamMap = s.streamMap := rfl
@[simp] theorem State.modFw_epochAt : (s.modFw f).epochAt = s.epochAt := rfl
@[simp] theorem State.modFw_transit : (s.modFw f).transit = s.transit := rfl
@[simp] theorem State.modFw_streamNum : (s.modFw f).streamNum = s.streamNum := rfl
@[simp] theorem State.modFw_streamSeen : (s.modFw f).streamSeen = s.streamSeen := rfl
@[simp] theorem State.modFw_outReqs : (s.modFw f).outReqs = s.outReqs := rfl
@[simp] theorem State.modFw_zin : (s.modFw f).zin = s.zin := rfl
@[simp] theorem State.modFw_drops : (s.modFw f).drops = s.drops := rfl
@[simp] theorem State.modFw_eventLog : (s.modFw f).eventLog = s.eventLog := rfl
@[simp] theorem State.modFw_fab : (s.modFw f).fab = s.fab := rfl
@[simp] theorem State.modFw_power : (s.modFw f).power = s.power := rfl
@[simp] theorem State.modFw_wake : (s.modFw f).wake = s.wake := rfl
@[simp] theorem State.modFw_mbox : (s.modFw f).mbox = s.mbox := rfl
@[simp] theorem State.modFw_mgmt : (s.modFw f).mgmt = s.mgmt := rfl
@[simp] theorem State.modFw_queues : (s.modFw f).queues = s.queues := rfl
@[simp] theorem State.modFw_fw : (s.modFw f).fw = f s.fw := rfl
@[simp] theorem State.modFw_sched : (s.modFw f).sched = s.sched := rfl
end


/-! ### State.modPower -/

section
variable (s : State) (f : Power → Power)

@[simp] theorem State.modPower_cycle : (s.modPower f).cycle = s.cycle := rfl
@[simp] theorem State.modPower_ticks : (s.modPower f).ticks = s.ticks := rfl
@[simp] theorem State.modPower_tickAcc : (s.modPower f).tickAcc = s.tickAcc := rfl
@[simp] theorem State.modPower_turn : (s.modPower f).turn = s.turn := rfl
@[simp] theorem State.modPower_agenda : (s.modPower f).agenda = s.agenda := rfl
@[simp] theorem State.modPower_issue : (s.modPower f).issue = s.issue := rfl
@[simp] theorem State.modPower_free : (s.modPower f).free = s.free := rfl
@[simp] theorem State.modPower_cores : (s.modPower f).cores = s.cores := rfl
@[simp] theorem State.modPower_coresAvail : (s.modPower f).coresAvail = s.coresAvail := rfl
@[simp] theorem State.modPower_launches : (s.modPower f).launches = s.launches := rfl
@[simp] theorem State.modPower_nextLaunch : (s.modPower f).nextLaunch = s.nextLaunch := rfl
@[simp] theorem State.modPower_pkgId : (s.modPower f).pkgId = s.pkgId := rfl
@[simp] theorem State.modPower_mcwait : (s.modPower f).mcwait = s.mcwait := rfl
@[simp] theorem State.modPower_busMaster : (s.modPower f).busMaster = s.busMaster := rfl
@[simp] theorem State.modPower_writeSize : (s.modPower f).writeSize = s.writeSize := rfl
@[simp] theorem State.modPower_readSize : (s.modPower f).readSize = s.readSize := rfl
@[simp] theorem State.modPower_mem : (s.modPower f).mem = s.mem := rfl
@[simp] theorem State.modPower_unreachable : (s.modPower f).unreachable = s.unreachable := rfl
@[simp] theorem State.modPower_mods : (s.modPower f).mods = s.mods := rfl
@[simp] theorem State.modPower_streamMap : (s.modPower f).streamMap = s.streamMap := rfl
@[simp] theorem State.modPower_epochAt : (s.modPower f).epochAt = s.epochAt := rfl
@[simp] theorem State.modPower_transit : (s.modPower f).transit = s.transit := rfl
@[simp] theorem State.modPower_streamNum : (s.modPower f).streamNum = s.streamNum := rfl
@[simp] theorem State.modPower_streamSeen : (s.modPower f).streamSeen = s.streamSeen := rfl
@[simp] theorem State.modPower_outReqs : (s.modPower f).outReqs = s.outReqs := rfl
@[simp] theorem State.modPower_zin : (s.modPower f).zin = s.zin := rfl
@[simp] theorem State.modPower_drops : (s.modPower f).drops = s.drops := rfl
@[simp] theorem State.modPower_eventLog : (s.modPower f).eventLog = s.eventLog := rfl
@[simp] theorem State.modPower_fab : (s.modPower f).fab = s.fab := rfl
@[simp] theorem State.modPower_power : (s.modPower f).power = f s.power := rfl
@[simp] theorem State.modPower_wake : (s.modPower f).wake = s.wake := rfl
@[simp] theorem State.modPower_mbox : (s.modPower f).mbox = s.mbox := rfl
@[simp] theorem State.modPower_mgmt : (s.modPower f).mgmt = s.mgmt := rfl
@[simp] theorem State.modPower_queues : (s.modPower f).queues = s.queues := rfl
@[simp] theorem State.modPower_fw : (s.modPower f).fw = s.fw := rfl
@[simp] theorem State.modPower_sched : (s.modPower f).sched = s.sched := rfl
end


/-! ### State.modWake -/

section
variable (s : State) (f : Wakeup → Wakeup)

@[simp] theorem State.modWake_cycle : (s.modWake f).cycle = s.cycle := rfl
@[simp] theorem State.modWake_ticks : (s.modWake f).ticks = s.ticks := rfl
@[simp] theorem State.modWake_tickAcc : (s.modWake f).tickAcc = s.tickAcc := rfl
@[simp] theorem State.modWake_turn : (s.modWake f).turn = s.turn := rfl
@[simp] theorem State.modWake_agenda : (s.modWake f).agenda = s.agenda := rfl
@[simp] theorem State.modWake_issue : (s.modWake f).issue = s.issue := rfl
@[simp] theorem State.modWake_free : (s.modWake f).free = s.free := rfl
@[simp] theorem State.modWake_cores : (s.modWake f).cores = s.cores := rfl
@[simp] theorem State.modWake_coresAvail : (s.modWake f).coresAvail = s.coresAvail := rfl
@[simp] theorem State.modWake_launches : (s.modWake f).launches = s.launches := rfl
@[simp] theorem State.modWake_nextLaunch : (s.modWake f).nextLaunch = s.nextLaunch := rfl
@[simp] theorem State.modWake_pkgId : (s.modWake f).pkgId = s.pkgId := rfl
@[simp] theorem State.modWake_mcwait : (s.modWake f).mcwait = s.mcwait := rfl
@[simp] theorem State.modWake_busMaster : (s.modWake f).busMaster = s.busMaster := rfl
@[simp] theorem State.modWake_writeSize : (s.modWake f).writeSize = s.writeSize := rfl
@[simp] theorem State.modWake_readSize : (s.modWake f).readSize = s.readSize := rfl
@[simp] theorem State.modWake_mem : (s.modWake f).mem = s.mem := rfl
@[simp] theorem State.modWake_unreachable : (s.modWake f).unreachable = s.unreachable := rfl
@[simp] theorem State.modWake_mods : (s.modWake f).mods = s.mods := rfl
@[simp] theorem State.modWake_streamMap : (s.modWake f).streamMap = s.streamMap := rfl
@[simp] theorem State.modWake_epochAt : (s.modWake f).epochAt = s.epochAt := rfl
@[simp] theorem State.modWake_transit : (s.modWake f).transit = s.transit := rfl
@[simp] theorem State.modWake_streamNum : (s.modWake f).streamNum = s.streamNum := rfl
@[simp] theorem State.modWake_streamSeen : (s.modWake f).streamSeen = s.streamSeen := rfl
@[simp] theorem State.modWake_outReqs : (s.modWake f).outReqs = s.outReqs := rfl
@[simp] theorem State.modWake_zin : (s.modWake f).zin = s.zin := rfl
@[simp] theorem State.modWake_drops : (s.modWake f).drops = s.drops := rfl
@[simp] theorem State.modWake_eventLog : (s.modWake f).eventLog = s.eventLog := rfl
@[simp] theorem State.modWake_fab : (s.modWake f).fab = s.fab := rfl
@[simp] theorem State.modWake_power : (s.modWake f).power = s.power := rfl
@[simp] theorem State.modWake_wake : (s.modWake f).wake = f s.wake := rfl
@[simp] theorem State.modWake_mbox : (s.modWake f).mbox = s.mbox := rfl
@[simp] theorem State.modWake_mgmt : (s.modWake f).mgmt = s.mgmt := rfl
@[simp] theorem State.modWake_queues : (s.modWake f).queues = s.queues := rfl
@[simp] theorem State.modWake_fw : (s.modWake f).fw = s.fw := rfl
@[simp] theorem State.modWake_sched : (s.modWake f).sched = s.sched := rfl
end


/-! ### State.modModule -/

section
variable (s : State) (m : Nat) (f : Module → Module)

@[simp] theorem State.modModule_cycle : (s.modModule m f).cycle = s.cycle := rfl
@[simp] theorem State.modModule_ticks : (s.modModule m f).ticks = s.ticks := rfl
@[simp] theorem State.modModule_tickAcc : (s.modModule m f).tickAcc = s.tickAcc := rfl
@[simp] theorem State.modModule_turn : (s.modModule m f).turn = s.turn := rfl
@[simp] theorem State.modModule_agenda : (s.modModule m f).agenda = s.agenda := rfl
@[simp] theorem State.modModule_issue : (s.modModule m f).issue = s.issue := rfl
@[simp] theorem State.modModule_free : (s.modModule m f).free = s.free := rfl
@[simp] theorem State.modModule_cores : (s.modModule m f).cores = s.cores := rfl
@[simp] theorem State.modModule_coresAvail : (s.modModule m f).coresAvail = s.coresAvail := rfl
@[simp] theorem State.modModule_launches : (s.modModule m f).launches = s.launches := rfl
@[simp] theorem State.modModule_nextLaunch : (s.modModule m f).nextLaunch = s.nextLaunch := rfl
@[simp] theorem State.modModule_pkgId : (s.modModule m f).pkgId = s.pkgId := rfl
@[simp] theorem State.modModule_mcwait : (s.modModule m f).mcwait = s.mcwait := rfl
@[simp] theorem State.modModule_busMaster : (s.modModule m f).busMaster = s.busMaster := rfl
@[simp] theorem State.modModule_writeSize : (s.modModule m f).writeSize = s.writeSize := rfl
@[simp] theorem State.modModule_readSize : (s.modModule m f).readSize = s.readSize := rfl
@[simp] theorem State.modModule_mem : (s.modModule m f).mem = s.mem := rfl
@[simp] theorem State.modModule_unreachable : (s.modModule m f).unreachable = s.unreachable := rfl
@[simp] theorem State.modModule_mods : (s.modModule m f).mods = Assoc.put s.mods m (f (s.mod m)) := rfl
@[simp] theorem State.modModule_streamMap : (s.modModule m f).streamMap = s.streamMap := rfl
@[simp] theorem State.modModule_epochAt : (s.modModule m f).epochAt = s.epochAt := rfl
@[simp] theorem State.modModule_transit : (s.modModule m f).transit = s.transit := rfl
@[simp] theorem State.modModule_streamNum : (s.modModule m f).streamNum = s.streamNum := rfl
@[simp] theorem State.modModule_streamSeen : (s.modModule m f).streamSeen = s.streamSeen := rfl
@[simp] theorem State.modModule_outReqs : (s.modModule m f).outReqs = s.outReqs := rfl
@[simp] theorem State.modModule_zin : (s.modModule m f).zin = s.zin := rfl
@[simp] theorem State.modModule_drops : (s.modModule m f).drops = s.drops := rfl
@[simp] theorem State.modModule_eventLog : (s.modModule m f).eventLog = s.eventLog := rfl
@[simp] theorem State.modModule_fab : (s.modModule m f).fab = s.fab := rfl
@[simp] theorem State.modModule_power : (s.modModule m f).power = s.power := rfl
@[simp] theorem State.modModule_wake : (s.modModule m f).wake = s.wake := rfl
@[simp] theorem State.modModule_mbox : (s.modModule m f).mbox = s.mbox := rfl
@[simp] theorem State.modModule_mgmt : (s.modModule m f).mgmt = s.mgmt := rfl
@[simp] theorem State.modModule_queues : (s.modModule m f).queues = s.queues := rfl
@[simp] theorem State.modModule_fw : (s.modModule m f).fw = s.fw := rfl
@[simp] theorem State.modModule_sched : (s.modModule m f).sched = s.sched := rfl
end


/-! ### State.modQueue -/

section
variable (s : State) (q : Nat) (f : Queue → Queue)

@[simp] theorem State.modQueue_cycle : (s.modQueue q f).cycle = s.cycle := rfl
@[simp] theorem State.modQueue_ticks : (s.modQueue q f).ticks = s.ticks := rfl
@[simp] theorem State.modQueue_tickAcc : (s.modQueue q f).tickAcc = s.tickAcc := rfl
@[simp] theorem State.modQueue_turn : (s.modQueue q f).turn = s.turn := rfl
@[simp] theorem State.modQueue_agenda : (s.modQueue q f).agenda = s.agenda := rfl
@[simp] theorem State.modQueue_issue : (s.modQueue q f).issue = s.issue := rfl
@[simp] theorem State.modQueue_free : (s.modQueue q f).free = s.free := rfl
@[simp] theorem State.modQueue_cores : (s.modQueue q f).cores = s.cores := rfl
@[simp] theorem State.modQueue_coresAvail : (s.modQueue q f).coresAvail = s.coresAvail := rfl
@[simp] theorem State.modQueue_launches : (s.modQueue q f).launches = s.launches := rfl
@[simp] theorem State.modQueue_nextLaunch : (s.modQueue q f).nextLaunch = s.nextLaunch := rfl
@[simp] theorem State.modQueue_pkgId : (s.modQueue q f).pkgId = s.pkgId := rfl
@[simp] theorem State.modQueue_mcwait : (s.modQueue q f).mcwait = s.mcwait := rfl
@[simp] theorem State.modQueue_busMaster : (s.modQueue q f).busMaster = s.busMaster := rfl
@[simp] theorem State.modQueue_writeSize : (s.modQueue q f).writeSize = s.writeSize := rfl
@[simp] theorem State.modQueue_readSize : (s.modQueue q f).readSize = s.readSize := rfl
@[simp] theorem State.modQueue_mem : (s.modQueue q f).mem = s.mem := rfl
@[simp] theorem State.modQueue_unreachable : (s.modQueue q f).unreachable = s.unreachable := rfl
@[simp] theorem State.modQueue_mods : (s.modQueue q f).mods = s.mods := rfl
@[simp] theorem State.modQueue_streamMap : (s.modQueue q f).streamMap = s.streamMap := rfl
@[simp] theorem State.modQueue_epochAt : (s.modQueue q f).epochAt = s.epochAt := rfl
@[simp] theorem State.modQueue_transit : (s.modQueue q f).transit = s.transit := rfl
@[simp] theorem State.modQueue_streamNum : (s.modQueue q f).streamNum = s.streamNum := rfl
@[simp] theorem State.modQueue_streamSeen : (s.modQueue q f).streamSeen = s.streamSeen := rfl
@[simp] theorem State.modQueue_outReqs : (s.modQueue q f).outReqs = s.outReqs := rfl
@[simp] theorem State.modQueue_zin : (s.modQueue q f).zin = s.zin := rfl
@[simp] theorem State.modQueue_drops : (s.modQueue q f).drops = s.drops := rfl
@[simp] theorem State.modQueue_eventLog : (s.modQueue q f).eventLog = s.eventLog := rfl
@[simp] theorem State.modQueue_fab : (s.modQueue q f).fab = s.fab := rfl
@[simp] theorem State.modQueue_power : (s.modQueue q f).power = s.power := rfl
@[simp] theorem State.modQueue_wake : (s.modQueue q f).wake = s.wake := rfl
@[simp] theorem State.modQueue_mbox : (s.modQueue q f).mbox = s.mbox := rfl
@[simp] theorem State.modQueue_mgmt : (s.modQueue q f).mgmt = s.mgmt := rfl
@[simp] theorem State.modQueue_queues : (s.modQueue q f).queues = Assoc.put s.queues q (f (s.queue q)) := rfl
@[simp] theorem State.modQueue_fw : (s.modQueue q f).fw = s.fw := rfl
@[simp] theorem State.modQueue_sched : (s.modQueue q f).sched = s.sched := rfl
end


/-! ### State.modPort -/

section
variable (s : State) (p : Nat) (f : Port → Port)

@[simp] theorem State.modPort_cycle : (s.modPort p f).cycle = s.cycle := rfl
@[simp] theorem State.modPort_ticks : (s.modPort p f).ticks = s.ticks := rfl
@[simp] theorem State.modPort_tickAcc : (s.modPort p f).tickAcc = s.tickAcc := rfl
@[simp] theorem State.modPort_turn : (s.modPort p f).turn = s.turn := rfl
@[simp] theorem State.modPort_agenda : (s.modPort p f).agenda = s.agenda := rfl
@[simp] theorem State.modPort_issue : (s.modPort p f).issue = s.issue := rfl
@[simp] theorem State.modPort_free : (s.modPort p f).free = s.free := rfl
@[simp] theorem State.modPort_cores : (s.modPort p f).cores = s.cores := rfl
@[simp] theorem State.modPort_coresAvail : (s.modPort p f).coresAvail = s.coresAvail := rfl
@[simp] theorem State.modPort_launches : (s.modPort p f).launches = s.launches := rfl
@[simp] theorem State.modPort_nextLaunch : (s.modPort p f).nextLaunch = s.nextLaunch := rfl
@[simp] theorem State.modPort_pkgId : (s.modPort p f).pkgId = s.pkgId := rfl
@[simp] theorem State.modPort_mcwait : (s.modPort p f).mcwait = s.mcwait := rfl
@[simp] theorem State.modPort_busMaster : (s.modPort p f).busMaster = s.busMaster := rfl
@[simp] theorem State.modPort_writeSize : (s.modPort p f).writeSize = s.writeSize := rfl
@[simp] theorem State.modPort_readSize : (s.modPort p f).readSize = s.readSize := rfl
@[simp] theorem State.modPort_mem : (s.modPort p f).mem = s.mem := rfl
@[simp] theorem State.modPort_unreachable : (s.modPort p f).unreachable = s.unreachable := rfl
@[simp] theorem State.modPort_mods : (s.modPort p f).mods = s.mods := rfl
@[simp] theorem State.modPort_streamMap : (s.modPort p f).streamMap = s.streamMap := rfl
@[simp] theorem State.modPort_epochAt : (s.modPort p f).epochAt = s.epochAt := rfl
@[simp] theorem State.modPort_transit : (s.modPort p f).transit = s.transit := rfl
@[simp] theorem State.modPort_streamNum : (s.modPort p f).streamNum = s.streamNum := rfl
@[simp] theorem State.modPort_streamSeen : (s.modPort p f).streamSeen = s.streamSeen := rfl
@[simp] theorem State.modPort_outReqs : (s.modPort p f).outReqs = s.outReqs := rfl
@[simp] theorem State.modPort_zin : (s.modPort p f).zin = s.zin := rfl
@[simp] theorem State.modPort_drops : (s.modPort p f).drops = s.drops := rfl
@[simp] theorem State.modPort_eventLog : (s.modPort p f).eventLog = s.eventLog := rfl
@[simp] theorem State.modPort_fab : (s.modPort p f).fab = { s.fab with ports := Assoc.put s.fab.ports p (f (s.port p)) } := rfl
@[simp] theorem State.modPort_power : (s.modPort p f).power = s.power := rfl
@[simp] theorem State.modPort_wake : (s.modPort p f).wake = s.wake := rfl
@[simp] theorem State.modPort_mbox : (s.modPort p f).mbox = s.mbox := rfl
@[simp] theorem State.modPort_mgmt : (s.modPort p f).mgmt = s.mgmt := rfl
@[simp] theorem State.modPort_queues : (s.modPort p f).queues = s.queues := rfl
@[simp] theorem State.modPort_fw : (s.modPort p f).fw = s.fw := rfl
@[simp] theorem State.modPort_sched : (s.modPort p f).sched = s.sched := rfl
end


/-! ### State.modNode -/

section
variable (s : State) (g : Nat) (f : Node → Node)

@[simp] theorem State.modNode_cycle : (s.modNode g f).cycle = s.cycle := rfl
@[simp] theorem State.modNode_ticks : (s.modNode g f).ticks = s.ticks := rfl
@[simp] theorem State.modNode_tickAcc : (s.modNode g f).tickAcc = s.tickAcc := rfl
@[simp] theorem State.modNode_turn : (s.modNode g f).turn = s.turn := rfl
@[simp] theorem State.modNode_agenda : (s.modNode g f).agenda = s.agenda := rfl
@[simp] theorem State.modNode_issue : (s.modNode g f).issue = s.issue := rfl
@[simp] theorem State.modNode_free : (s.modNode g f).free = s.free := rfl
@[simp] theorem State.modNode_cores : (s.modNode g f).cores = s.cores := rfl
@[simp] theorem State.modNode_coresAvail : (s.modNode g f).coresAvail = s.coresAvail := rfl
@[simp] theorem State.modNode_launches : (s.modNode g f).launches = s.launches := rfl
@[simp] theorem State.modNode_nextLaunch : (s.modNode g f).nextLaunch = s.nextLaunch := rfl
@[simp] theorem State.modNode_pkgId : (s.modNode g f).pkgId = s.pkgId := rfl
@[simp] theorem State.modNode_mcwait : (s.modNode g f).mcwait = s.mcwait := rfl
@[simp] theorem State.modNode_busMaster : (s.modNode g f).busMaster = s.busMaster := rfl
@[simp] theorem State.modNode_writeSize : (s.modNode g f).writeSize = s.writeSize := rfl
@[simp] theorem State.modNode_readSize : (s.modNode g f).readSize = s.readSize := rfl
@[simp] theorem State.modNode_mem : (s.modNode g f).mem = s.mem := rfl
@[simp] theorem State.modNode_unreachable : (s.modNode g f).unreachable = s.unreachable := rfl
@[simp] theorem State.modNode_mods : (s.modNode g f).mods = s.mods := rfl
@[simp] theorem State.modNode_streamMap : (s.modNode g f).streamMap = s.streamMap := rfl
@[simp] theorem State.modNode_epochAt : (s.modNode g f).epochAt = s.epochAt := rfl
@[simp] theorem State.modNode_transit : (s.modNode g f).transit = s.transit := rfl
@[simp] theorem State.modNode_streamNum : (s.modNode g f).streamNum = s.streamNum := rfl
@[simp] theorem State.modNode_streamSeen : (s.modNode g f).streamSeen = s.streamSeen := rfl
@[simp] theorem State.modNode_outReqs : (s.modNode g f).outReqs = s.outReqs := rfl
@[simp] theorem State.modNode_zin : (s.modNode g f).zin = s.zin := rfl
@[simp] theorem State.modNode_drops : (s.modNode g f).drops = s.drops := rfl
@[simp] theorem State.modNode_eventLog : (s.modNode g f).eventLog = s.eventLog := rfl
@[simp] theorem State.modNode_fab : (s.modNode g f).fab = { s.fab with nodes := Assoc.put s.fab.nodes g (f (s.node g)) } := rfl
@[simp] theorem State.modNode_power : (s.modNode g f).power = s.power := rfl
@[simp] theorem State.modNode_wake : (s.modNode g f).wake = s.wake := rfl
@[simp] theorem State.modNode_mbox : (s.modNode g f).mbox = s.mbox := rfl
@[simp] theorem State.modNode_mgmt : (s.modNode g f).mgmt = s.mgmt := rfl
@[simp] theorem State.modNode_queues : (s.modNode g f).queues = s.queues := rfl
@[simp] theorem State.modNode_fw : (s.modNode g f).fw = s.fw := rfl
@[simp] theorem State.modNode_sched : (s.modNode g f).sched = s.sched := rfl
end


/-! ### State.modLaunch -/

section
variable (s : State) (k : Nat) (f : Launch → Launch)

@[simp] theorem State.modLaunch_cycle : (s.modLaunch k f).cycle = s.cycle := by
  unfold State.modLaunch; split <;> rfl
@[simp] theorem State.modLaunch_ticks : (s.modLaunch k f).ticks = s.ticks := by
  unfold State.modLaunch; split <;> rfl
@[simp] theorem State.modLaunch_tickAcc : (s.modLaunch k f).tickAcc = s.tickAcc := by
  unfold State.modLaunch; split <;> rfl
@[simp] theorem State.modLaunch_turn : (s.modLaunch k f).turn = s.turn := by
  unfold State.modLaunch; split <;> rfl
@[simp] theorem State.modLaunch_agenda : (s.modLaunch k f).agenda = s.agenda := by
  unfold State.modLaunch; split <;> rfl
@[simp] theorem State.modLaunch_issue : (s.modLaunch k f).issue = s.issue := by
  unfold State.modLaunch; split <;> rfl
@[simp] theorem State.modLaunch_free : (s.modLaunch k f).free = s.free := by
  unfold State.modLaunch; split <;> rfl
@[simp] theorem State.modLaunch_cores : (s.modLaunch k f).cores = s.cores := by
  unfold State.modLaunch; split <;> rfl
@[simp] theorem State.modLaunch_coresAvail : (s.modLaunch k f).coresAvail = s.coresAvail := by
  unfold State.modLaunch; split <;> rfl
@[simp] theorem State.modLaunch_nextLaunch : (s.modLaunch k f).nextLaunch = s.nextLaunch := by
  unfold State.modLaunch; split <;> rfl
@[simp] theorem State.modLaunch_pkgId : (s.modLaunch k f).pkgId = s.pkgId := by
  unfold State.modLaunch; split <;> rfl
@[simp] theorem State.modLaunch_mcwait : (s.modLaunch k f).mcwait = s.mcwait := by
  unfold State.modLaunch; split <;> rfl
@[simp] theorem State.modLaunch_busMaster : (s.modLaunch k f).busMaster = s.busMaster := by
  unfold State.modLaunch; split <;> rfl
@[simp] theorem State.modLaunch_writeSize : (s.modLaunch k f).writeSize = s.writeSize := by
  unfold State.modLaunch; split <;> rfl
@[simp] theorem State.modLaunch_readSize : (s.modLaunch k f).readSize = s.readSize := by
  unfold State.modLaunch; split <;> rfl
@[simp] theorem State.modLaunch_mem : (s.modLaunch k f).mem = s.mem := by
  unfold State.modLaunch; split <;> rfl
@[simp] theorem State.modLaunch_unreachable : (s.modLaunch k f).unreachable = s.unreachable := by
  unfold State.modLaunch; split <;> rfl
@[simp] theorem State.modLaunch_mods : (s.modLaunch k f).mods = s.mods := by
  unfold State.modLaunch; split <;> rfl
@[simp] theorem State.modLaunch_streamMap : (s.modLaunch k f).streamMap = s.streamMap := by
  unfold State.modLaunch; split <;> rfl
@[simp] theorem State.modLaunch_epochAt : (s.modLaunch k f).epochAt = s.epochAt := by
  unfold State.modLaunch; split <;> rfl
@[simp] theorem State.modLaunch_transit : (s.modLaunch k f).transit = s.transit := by
  unfold State.modLaunch; split <;> rfl
@[simp] theorem State.modLaunch_streamNum : (s.modLaunch k f).streamNum = s.streamNum := by
  unfold State.modLaunch; split <;> rfl
@[simp] theorem State.modLaunch_streamSeen : (s.modLaunch k f).streamSeen = s.streamSeen := by
  unfold State.modLaunch; split <;> rfl
@[simp] theorem State.modLaunch_outReqs : (s.modLaunch k f).outReqs = s.outReqs := by
  unfold State.modLaunch; split <;> rfl
@[simp] theorem State.modLaunch_zin : (s.modLaunch k f).zin = s.zin := by
  unfold State.modLaunch; split <;> rfl
@[simp] theorem State.modLaunch_drops : (s.modLaunch k f).drops = s.drops := by
  unfold State.modLaunch; split <;> rfl
@[simp] theorem State.modLaunch_eventLog : (s.modLaunch k f).eventLog = s.eventLog := by
  unfold State.modLaunch; split <;> rfl
@[simp] theorem State.modLaunch_fab : (s.modLaunch k f).fab = s.fab := by
  unfold State.modLaunch; split <;> rfl
@[simp] theorem State.modLaunch_power : (s.modLaunch k f).power = s.power := by
  unfold State.modLaunch; split <;> rfl
@[simp] theorem State.modLaunch_wake : (s.modLaunch k f).wake = s.wake := by
  unfold State.modLaunch; split <;> rfl
@[simp] theorem State.modLaunch_mbox : (s.modLaunch k f).mbox = s.mbox := by
  unfold State.modLaunch; split <;> rfl
@[simp] theorem State.modLaunch_mgmt : (s.modLaunch k f).mgmt = s.mgmt := by
  unfold State.modLaunch; split <;> rfl
@[simp] theorem State.modLaunch_queues : (s.modLaunch k f).queues = s.queues := by
  unfold State.modLaunch; split <;> rfl
@[simp] theorem State.modLaunch_fw : (s.modLaunch k f).fw = s.fw := by
  unfold State.modLaunch; split <;> rfl
@[simp] theorem State.modLaunch_sched : (s.modLaunch k f).sched = s.sched := by
  unfold State.modLaunch; split <;> rfl
end


/-! ### Core.setCtx -/

section
variable (k : Core) (x : Nat) (t : Context)

@[simp] theorem Core.setCtx_imem : (k.setCtx x t).imem = k.imem := rfl
@[simp] theorem Core.setCtx_lmem : (k.setCtx x t).lmem = k.lmem := rfl
@[simp] theorem Core.setCtx_badImem : (k.setCtx x t).badImem = k.badImem := rfl
@[simp] theorem Core.setCtx_badLmem : (k.setCtx x t).badLmem = k.badLmem := rfl
@[simp] theorem Core.setCtx_badRows : (k.setCtx x t).badRows = k.badRows := rfl
@[simp] theorem Core.setCtx_a : (k.setCtx x t).a = k.a := rfl
@[simp] theorem Core.setCtx_w : (k.setCtx x t).w = k.w := rfl
@[simp] theorem Core.setCtx_c : (k.setCtx x t).c = k.c := rfl
@[simp] theorem Core.setCtx_tags : (k.setCtx x t).tags = k.tags := rfl
@[simp] theorem Core.setCtx_tagUsed : (k.setCtx x t).tagUsed = k.tagUsed := rfl
@[simp] theorem Core.setCtx_guard : (k.setCtx x t).guard = k.guard := rfl
@[simp] theorem Core.setCtx_latches : (k.setCtx x t).latches = k.latches := rfl
@[simp] theorem Core.setCtx_barriers : (k.setCtx x t).barriers = k.barriers := rfl
@[simp] theorem Core.setCtx_slates : (k.setCtx x t).slates = k.slates := rfl
@[simp] theorem Core.setCtx_ctxs : (k.setCtx x t).ctxs = k.ctxs.set (x % 4) t (Nat.mod_lt x (by decide)) := rfl
@[simp] theorem Core.setCtx_saved : (k.setCtx x t).saved = k.saved := rfl
@[simp] theorem Core.setCtx_kept : (k.setCtx x t).kept = k.kept := rfl
@[simp] theorem Core.setCtx_cur : (k.setCtx x t).cur = k.cur := rfl
@[simp] theorem Core.setCtx_last : (k.setCtx x t).last = k.last := rfl
@[simp] theorem Core.setCtx_resumeAt : (k.setCtx x t).resumeAt = k.resumeAt := rfl
@[simp] theorem Core.setCtx_stalled : (k.setCtx x t).stalled = k.stalled := rfl
@[simp] theorem Core.setCtx_tlb : (k.setCtx x t).tlb = k.tlb := rfl
@[simp] theorem Core.setCtx_nextCmd : (k.setCtx x t).nextCmd = k.nextCmd := rfl
@[simp] theorem Core.setCtx_array : (k.setCtx x t).array = k.array := rfl
@[simp] theorem Core.setCtx_streamEnd : (k.setCtx x t).streamEnd = k.streamEnd := rfl
@[simp] theorem Core.setCtx_macros : (k.setCtx x t).macros = k.macros := rfl
@[simp] theorem Core.setCtx_seqst : (k.setCtx x t).seqst = k.seqst := rfl
@[simp] theorem Core.setCtx_rot : (k.setCtx x t).rot = k.rot := rfl
@[simp] theorem Core.setCtx_rotRqr : (k.setCtx x t).rotRqr = k.rotRqr := rfl
@[simp] theorem Core.setCtx_rotStart : (k.setCtx x t).rotStart = k.rotStart := rfl
@[simp] theorem Core.setCtx_rotDone : (k.setCtx x t).rotDone = k.rotDone := rfl
@[simp] theorem Core.setCtx_tri : (k.setCtx x t).tri = k.tri := rfl
@[simp] theorem Core.setCtx_triPending : (k.setCtx x t).triPending = k.triPending := rfl
@[simp] theorem Core.setCtx_portCycle : (k.setCtx x t).portCycle = k.portCycle := rfl
@[simp] theorem Core.setCtx_portUsed : (k.setCtx x t).portUsed = k.portUsed := rfl
@[simp] theorem Core.setCtx_landCount : (k.setCtx x t).landCount = k.landCount := rfl
@[simp] theorem Core.setCtx_copyTurn : (k.setCtx x t).copyTurn = k.copyTurn := rfl
@[simp] theorem Core.setCtx_readTurn : (k.setCtx x t).readTurn = k.readTurn := rfl
@[simp] theorem Core.setCtx_rotOwner : (k.setCtx x t).rotOwner = k.rotOwner := rfl
@[simp] theorem Core.setCtx_chans : (k.setCtx x t).chans = k.chans := rfl
@[simp] theorem Core.setCtx_shots : (k.setCtx x t).shots = k.shots := rfl
@[simp] theorem Core.setCtx_seqTable : (k.setCtx x t).seqTable = k.seqTable := rfl
@[simp] theorem Core.setCtx_txSeq : (k.setCtx x t).txSeq = k.txSeq := rfl
@[simp] theorem Core.setCtx_rx : (k.setCtx x t).rx = k.rx := rfl
@[simp] theorem Core.setCtx_rxWork : (k.setCtx x t).rxWork = k.rxWork := rfl
@[simp] theorem Core.setCtx_returns : (k.setCtx x t).returns = k.returns := rfl
end


/-! ### Core.modChan -/

section
variable (k : Core) (c : Nat) (f : Channel → Channel)

@[simp] theorem Core.modChan_imem : (k.modChan c f).imem = k.imem := rfl
@[simp] theorem Core.modChan_lmem : (k.modChan c f).lmem = k.lmem := rfl
@[simp] theorem Core.modChan_badImem : (k.modChan c f).badImem = k.badImem := rfl
@[simp] theorem Core.modChan_badLmem : (k.modChan c f).badLmem = k.badLmem := rfl
@[simp] theorem Core.modChan_badRows : (k.modChan c f).badRows = k.badRows := rfl
@[simp] theorem Core.modChan_a : (k.modChan c f).a = k.a := rfl
@[simp] theorem Core.modChan_w : (k.modChan c f).w = k.w := rfl
@[simp] theorem Core.modChan_c : (k.modChan c f).c = k.c := rfl
@[simp] theorem Core.modChan_tags : (k.modChan c f).tags = k.tags := rfl
@[simp] theorem Core.modChan_tagUsed : (k.modChan c f).tagUsed = k.tagUsed := rfl
@[simp] theorem Core.modChan_guard : (k.modChan c f).guard = k.guard := rfl
@[simp] theorem Core.modChan_latches : (k.modChan c f).latches = k.latches := rfl
@[simp] theorem Core.modChan_barriers : (k.modChan c f).barriers = k.barriers := rfl
@[simp] theorem Core.modChan_slates : (k.modChan c f).slates = k.slates := rfl
@[simp] theorem Core.modChan_ctxs : (k.modChan c f).ctxs = k.ctxs := rfl
@[simp] theorem Core.modChan_saved : (k.modChan c f).saved = k.saved := rfl
@[simp] theorem Core.modChan_kept : (k.modChan c f).kept = k.kept := rfl
@[simp] theorem Core.modChan_cur : (k.modChan c f).cur = k.cur := rfl
@[simp] theorem Core.modChan_last : (k.modChan c f).last = k.last := rfl
@[simp] theorem Core.modChan_resumeAt : (k.modChan c f).resumeAt = k.resumeAt := rfl
@[simp] theorem Core.modChan_stalled : (k.modChan c f).stalled = k.stalled := rfl
@[simp] theorem Core.modChan_tlb : (k.modChan c f).tlb = k.tlb := rfl
@[simp] theorem Core.modChan_nextCmd : (k.modChan c f).nextCmd = k.nextCmd := rfl
@[simp] theorem Core.modChan_array : (k.modChan c f).array = k.array := rfl
@[simp] theorem Core.modChan_streamEnd : (k.modChan c f).streamEnd = k.streamEnd := rfl
@[simp] theorem Core.modChan_macros : (k.modChan c f).macros = k.macros := rfl
@[simp] theorem Core.modChan_seqst : (k.modChan c f).seqst = k.seqst := rfl
@[simp] theorem Core.modChan_rot : (k.modChan c f).rot = k.rot := rfl
@[simp] theorem Core.modChan_rotRqr : (k.modChan c f).rotRqr = k.rotRqr := rfl
@[simp] theorem Core.modChan_rotStart : (k.modChan c f).rotStart = k.rotStart := rfl
@[simp] theorem Core.modChan_rotDone : (k.modChan c f).rotDone = k.rotDone := rfl
@[simp] theorem Core.modChan_tri : (k.modChan c f).tri = k.tri := rfl
@[simp] theorem Core.modChan_triPending : (k.modChan c f).triPending = k.triPending := rfl
@[simp] theorem Core.modChan_portCycle : (k.modChan c f).portCycle = k.portCycle := rfl
@[simp] theorem Core.modChan_portUsed : (k.modChan c f).portUsed = k.portUsed := rfl
@[simp] theorem Core.modChan_landCount : (k.modChan c f).landCount = k.landCount := rfl
@[simp] theorem Core.modChan_copyTurn : (k.modChan c f).copyTurn = k.copyTurn := rfl
@[simp] theorem Core.modChan_readTurn : (k.modChan c f).readTurn = k.readTurn := rfl
@[simp] theorem Core.modChan_rotOwner : (k.modChan c f).rotOwner = k.rotOwner := rfl
@[simp] theorem Core.modChan_chans : (k.modChan c f).chans = k.chans.set (c % 16) (f (k.chan c)) (Nat.mod_lt c (by decide)) := rfl
@[simp] theorem Core.modChan_shots : (k.modChan c f).shots = k.shots := rfl
@[simp] theorem Core.modChan_seqTable : (k.modChan c f).seqTable = k.seqTable := rfl
@[simp] theorem Core.modChan_txSeq : (k.modChan c f).txSeq = k.txSeq := rfl
@[simp] theorem Core.modChan_rx : (k.modChan c f).rx = k.rx := rfl
@[simp] theorem Core.modChan_rxWork : (k.modChan c f).rxWork = k.rxWork := rfl
@[simp] theorem Core.modChan_returns : (k.modChan c f).returns = k.returns := rfl
end


/-! ### Core.setLatch -/

section
variable (k : Core) (n : Nat) (x : Row)

@[simp] theorem Core.setLatch_imem : (k.setLatch n x).imem = k.imem := rfl
@[simp] theorem Core.setLatch_lmem : (k.setLatch n x).lmem = k.lmem := rfl
@[simp] theorem Core.setLatch_badImem : (k.setLatch n x).badImem = k.badImem := rfl
@[simp] theorem Core.setLatch_badLmem : (k.setLatch n x).badLmem = k.badLmem := rfl
@[simp] theorem Core.setLatch_badRows : (k.setLatch n x).badRows = k.badRows := rfl
@[simp] theorem Core.setLatch_a : (k.setLatch n x).a = k.a := rfl
@[simp] theorem Core.setLatch_w : (k.setLatch n x).w = k.w := rfl
@[simp] theorem Core.setLatch_c : (k.setLatch n x).c = k.c := rfl
@[simp] theorem Core.setLatch_tags : (k.setLatch n x).tags = k.tags := rfl
@[simp] theorem Core.setLatch_tagUsed : (k.setLatch n x).tagUsed = k.tagUsed := rfl
@[simp] theorem Core.setLatch_guard : (k.setLatch n x).guard = k.guard := rfl
@[simp] theorem Core.setLatch_latches : (k.setLatch n x).latches = k.latches.set (n % 8) ⟨x, true⟩ (Nat.mod_lt n (by decide)) := rfl
@[simp] theorem Core.setLatch_barriers : (k.setLatch n x).barriers = k.barriers := rfl
@[simp] theorem Core.setLatch_slates : (k.setLatch n x).slates = k.slates := rfl
@[simp] theorem Core.setLatch_ctxs : (k.setLatch n x).ctxs = k.ctxs := rfl
@[simp] theorem Core.setLatch_saved : (k.setLatch n x).saved = k.saved := rfl
@[simp] theorem Core.setLatch_kept : (k.setLatch n x).kept = k.kept := rfl
@[simp] theorem Core.setLatch_cur : (k.setLatch n x).cur = k.cur := rfl
@[simp] theorem Core.setLatch_last : (k.setLatch n x).last = k.last := rfl
@[simp] theorem Core.setLatch_resumeAt : (k.setLatch n x).resumeAt = k.resumeAt := rfl
@[simp] theorem Core.setLatch_stalled : (k.setLatch n x).stalled = k.stalled := rfl
@[simp] theorem Core.setLatch_tlb : (k.setLatch n x).tlb = k.tlb := rfl
@[simp] theorem Core.setLatch_nextCmd : (k.setLatch n x).nextCmd = k.nextCmd := rfl
@[simp] theorem Core.setLatch_array : (k.setLatch n x).array = k.array := rfl
@[simp] theorem Core.setLatch_streamEnd : (k.setLatch n x).streamEnd = k.streamEnd := rfl
@[simp] theorem Core.setLatch_macros : (k.setLatch n x).macros = k.macros := rfl
@[simp] theorem Core.setLatch_seqst : (k.setLatch n x).seqst = k.seqst := rfl
@[simp] theorem Core.setLatch_rot : (k.setLatch n x).rot = k.rot := rfl
@[simp] theorem Core.setLatch_rotRqr : (k.setLatch n x).rotRqr = k.rotRqr := rfl
@[simp] theorem Core.setLatch_rotStart : (k.setLatch n x).rotStart = k.rotStart := rfl
@[simp] theorem Core.setLatch_rotDone : (k.setLatch n x).rotDone = k.rotDone := rfl
@[simp] theorem Core.setLatch_tri : (k.setLatch n x).tri = k.tri := rfl
@[simp] theorem Core.setLatch_triPending : (k.setLatch n x).triPending = k.triPending := rfl
@[simp] theorem Core.setLatch_portCycle : (k.setLatch n x).portCycle = k.portCycle := rfl
@[simp] theorem Core.setLatch_portUsed : (k.setLatch n x).portUsed = k.portUsed := rfl
@[simp] theorem Core.setLatch_landCount : (k.setLatch n x).landCount = k.landCount := rfl
@[simp] theorem Core.setLatch_copyTurn : (k.setLatch n x).copyTurn = k.copyTurn := rfl
@[simp] theorem Core.setLatch_readTurn : (k.setLatch n x).readTurn = k.readTurn := rfl
@[simp] theorem Core.setLatch_rotOwner : (k.setLatch n x).rotOwner = k.rotOwner := rfl
@[simp] theorem Core.setLatch_chans : (k.setLatch n x).chans = k.chans := rfl
@[simp] theorem Core.setLatch_shots : (k.setLatch n x).shots = k.shots := rfl
@[simp] theorem Core.setLatch_seqTable : (k.setLatch n x).seqTable = k.seqTable := rfl
@[simp] theorem Core.setLatch_txSeq : (k.setLatch n x).txSeq = k.txSeq := rfl
@[simp] theorem Core.setLatch_rx : (k.setLatch n x).rx = k.rx := rfl
@[simp] theorem Core.setLatch_rxWork : (k.setLatch n x).rxWork = k.rxWork := rfl
@[simp] theorem Core.setLatch_returns : (k.setLatch n x).returns = k.returns := rfl
end


/-! ### Core.dropLatches -/

section
variable (k : Core) 

@[simp] theorem Core.dropLatches_imem : (k.dropLatches).imem = k.imem := rfl
@[simp] theorem Core.dropLatches_lmem : (k.dropLatches).lmem = k.lmem := rfl
@[simp] theorem Core.dropLatches_badImem : (k.dropLatches).badImem = k.badImem := rfl
@[simp] theorem Core.dropLatches_badLmem : (k.dropLatches).badLmem = k.badLmem := rfl
@[simp] theorem Core.dropLatches_badRows : (k.dropLatches).badRows = k.badRows := rfl
@[simp] theorem Core.dropLatches_a : (k.dropLatches).a = k.a := rfl
@[simp] theorem Core.dropLatches_w : (k.dropLatches).w = k.w := rfl
@[simp] theorem Core.dropLatches_c : (k.dropLatches).c = k.c := rfl
@[simp] theorem Core.dropLatches_tags : (k.dropLatches).tags = k.tags := rfl
@[simp] theorem Core.dropLatches_tagUsed : (k.dropLatches).tagUsed = k.tagUsed := rfl
@[simp] theorem Core.dropLatches_guard : (k.dropLatches).guard = k.guard := rfl
@[simp] theorem Core.dropLatches_latches : (k.dropLatches).latches = k.latches.map (fun l => { l with valid := false }) := rfl
@[simp] theorem Core.dropLatches_barriers : (k.dropLatches).barriers = k.barriers := rfl
@[simp] theorem Core.dropLatches_slates : (k.dropLatches).slates = k.slates := rfl
@[simp] theorem Core.dropLatches_ctxs : (k.dropLatches).ctxs = k.ctxs := rfl
@[simp] theorem Core.dropLatches_saved : (k.dropLatches).saved = k.saved := rfl
@[simp] theorem Core.dropLatches_kept : (k.dropLatches).kept = k.kept := rfl
@[simp] theorem Core.dropLatches_cur : (k.dropLatches).cur = k.cur := rfl
@[simp] theorem Core.dropLatches_last : (k.dropLatches).last = k.last := rfl
@[simp] theorem Core.dropLatches_resumeAt : (k.dropLatches).resumeAt = k.resumeAt := rfl
@[simp] theorem Core.dropLatches_stalled : (k.dropLatches).stalled = k.stalled := rfl
@[simp] theorem Core.dropLatches_tlb : (k.dropLatches).tlb = k.tlb := rfl
@[simp] theorem Core.dropLatches_nextCmd : (k.dropLatches).nextCmd = k.nextCmd := rfl
@[simp] theorem Core.dropLatches_array : (k.dropLatches).array = k.array := rfl
@[simp] theorem Core.dropLatches_streamEnd : (k.dropLatches).streamEnd = k.streamEnd := rfl
@[simp] theorem Core.dropLatches_macros : (k.dropLatches).macros = k.macros := rfl
@[simp] theorem Core.dropLatches_seqst : (k.dropLatches).seqst = k.seqst := rfl
@[simp] theorem Core.dropLatches_rot : (k.dropLatches).rot = k.rot := rfl
@[simp] theorem Core.dropLatches_rotRqr : (k.dropLatches).rotRqr = k.rotRqr := rfl
@[simp] theorem Core.dropLatches_rotStart : (k.dropLatches).rotStart = k.rotStart := rfl
@[simp] theorem Core.dropLatches_rotDone : (k.dropLatches).rotDone = k.rotDone := rfl
@[simp] theorem Core.dropLatches_tri : (k.dropLatches).tri = k.tri := rfl
@[simp] theorem Core.dropLatches_triPending : (k.dropLatches).triPending = k.triPending := rfl
@[simp] theorem Core.dropLatches_portCycle : (k.dropLatches).portCycle = k.portCycle := rfl
@[simp] theorem Core.dropLatches_portUsed : (k.dropLatches).portUsed = k.portUsed := rfl
@[simp] theorem Core.dropLatches_landCount : (k.dropLatches).landCount = k.landCount := rfl
@[simp] theorem Core.dropLatches_copyTurn : (k.dropLatches).copyTurn = k.copyTurn := rfl
@[simp] theorem Core.dropLatches_readTurn : (k.dropLatches).readTurn = k.readTurn := rfl
@[simp] theorem Core.dropLatches_rotOwner : (k.dropLatches).rotOwner = k.rotOwner := rfl
@[simp] theorem Core.dropLatches_chans : (k.dropLatches).chans = k.chans := rfl
@[simp] theorem Core.dropLatches_shots : (k.dropLatches).shots = k.shots := rfl
@[simp] theorem Core.dropLatches_seqTable : (k.dropLatches).seqTable = k.seqTable := rfl
@[simp] theorem Core.dropLatches_txSeq : (k.dropLatches).txSeq = k.txSeq := rfl
@[simp] theorem Core.dropLatches_rx : (k.dropLatches).rx = k.rx := rfl
@[simp] theorem Core.dropLatches_rxWork : (k.dropLatches).rxWork = k.rxWork := rfl
@[simp] theorem Core.dropLatches_returns : (k.dropLatches).returns = k.returns := rfl
end


end Sys2Proof.Machine
end

