-- ==== Sys2Proof/Laws/Access.lean ====
section
/-!
SUPPORT. Reading a part of the state after one part was replaced: cores, contexts, registers, latches, channels, rows.
-/
namespace Sys2Proof.Machine
open Sys2Proof

/-! ### Files of registers -/

@[simp] theorem vget_vset_self {α : Type} {n : Nat} [NeZero n] (v : Vector α n) (i : Nat) (x : α) :
    vget (vset v i x) i = x := by
  simp [vget, vset]

/-- Another register reads as before. -/
theorem vget_vset_ne {α : Type} {n : Nat} [NeZero n] (v : Vector α n) {i j : Nat} (x : α) (h : i % n ≠ j % n) :
    vget (vset v i x) j = vget v j := by
  simp [vget, vset, Vector.getElem_set_ne, h]

/-! ### Cores -/

@[simp] theorem core_setCore_self (s : State) (c : Nat) (k : Core) : (s.setCore c k).core c = k := by
  simp [State.core]

/-- Another core stays. -/
theorem core_setCore_ne (s : State) {c c' : Nat} (k : Core) (h : c' ≠ c) : (s.setCore c k).core c' = s.core c' := by
  simp [State.core, Assoc.get_put_ne _ _ _ h]

@[simp] theorem core_modCore_self (s : State) (c : Nat) (f : Core → Core) : (s.modCore c f).core c = f (s.core c) := by
  simp [State.core]

/-- Another core stays. -/
theorem core_modCore_ne (s : State) {c c' : Nat} (f : Core → Core) (h : c' ≠ c) :
    (s.modCore c f).core c' = s.core c' := core_setCore_ne s _ h

@[simp] theorem core_note (s : State) (f : IssueRec → IssueRec) (c : Nat) : (s.note f).core c = s.core c := rfl

@[simp] theorem ck_modCk (s : State) (f : Core → Core) : (s.modCk f).ck = f s.ck := by
  simp [State.ck, State.modCk]

/-! ### Contexts -/

@[simp] theorem Core.ctx_setCtx_self (k : Core) (x : Nat) (t : Context) : (k.setCtx x t).ctx x = t := by
  simp [Core.ctx, Core.setCtx]

/-- Another context of the core stays. -/
theorem Core.ctx_setCtx_ne (k : Core) {x y : Nat} (t : Context) (h : y % 4 ≠ x % 4) : (k.setCtx x t).ctx y = k.ctx y := by
  simp [Core.ctx, Core.setCtx, Vector.getElem_set_ne, Ne.symm h]

@[simp] theorem ctxOf_modCtx_self (s : State) (c x : Nat) (f : Context → Context) :
    (s.modCtx c x f).ctxOf c x = f (s.ctxOf c x) := by
  simp [State.ctxOf, State.modCtx]

/-- Another context of the same core stays. -/
theorem ctxOf_modCtx_ne (s : State) (c : Nat) {x y : Nat} (f : Context → Context) (h : y % 4 ≠ x % 4) :
    (s.modCtx c x f).ctxOf c y = s.ctxOf c y := by
  simp [State.ctxOf, State.modCtx, Core.ctx_setCtx_ne _ _ h]

/-- A context of another core stays. -/
theorem ctxOf_modCtx_core (s : State) {c c' : Nat} (x y : Nat) (f : Context → Context) (h : c' ≠ c) :
    (s.modCtx c x f).ctxOf c' y = s.ctxOf c' y := by
  simp [State.ctxOf, State.modCtx, core_modCore_ne s _ h]

@[simp] theorem ctxOf_note (s : State) (f : IssueRec → IssueRec) (c x : Nat) : (s.note f).ctxOf c x = s.ctxOf c x := rfl

@[simp] theorem cx_modCx (s : State) (f : Context → Context) : (s.modCx f).cx = f s.cx := by
  simp only [State.cx, State.modCx_issue]
  exact ctxOf_modCtx_self s s.issue.core s.issue.ctx f

@[simp] theorem ctx_setLatch (k : Core) (n x : Nat) (r : Row) : (k.setLatch n r).ctx x = k.ctx x := rfl
@[simp] theorem ctx_dropLatches (k : Core) (x : Nat) : k.dropLatches.ctx x = k.ctx x := rfl
@[simp] theorem ctx_modChan (k : Core) (c x : Nat) (f : Channel → Channel) : (k.modChan c f).ctx x = k.ctx x := rfl

/-! ### Latches and channels -/

@[simp] theorem latch_setLatch_self (k : Core) (n : Nat) (x : Row) : (k.setLatch n x).latch n = ⟨x, true⟩ := by
  simp [Core.latch, Core.setLatch]

/-- Another latch stays. -/
theorem latch_setLatch_ne (k : Core) {n m : Nat} (x : Row) (h : m % 8 ≠ n % 8) : (k.setLatch n x).latch m = k.latch m := by
  simp [Core.latch, Core.setLatch, Vector.getElem_set_ne, Ne.symm h]

/-- Every latch is invalid after a switch (R194). -/
@[simp] theorem latch_dropLatches (k : Core) (n : Nat) : (k.dropLatches.latch n).valid = false := by
  simp [Core.latch, Core.dropLatches]

@[simp] theorem latch_setCtx (k : Core) (x n : Nat) (t : Context) : (k.setCtx x t).latch n = k.latch n := rfl

@[simp] theorem chan_modChan_self (k : Core) (c : Nat) (f : Channel → Channel) : (k.modChan c f).chan c = f (k.chan c) := by
  simp [Core.chan, Core.modChan]

/-- Another channel stays. -/
theorem chan_modChan_ne (k : Core) {c d : Nat} (f : Channel → Channel) (h : d % 16 ≠ c % 16) :
    (k.modChan c f).chan d = k.chan d := by
  simp [Core.chan, Core.modChan, Vector.getElem_set_ne, Ne.symm h]

@[simp] theorem chan_setCtx (k : Core) (x c : Nat) (t : Context) : (k.setCtx x t).chan c = k.chan c := rfl

/-! ### Local buffers -/

@[simp] theorem buf_setCtx (k : Core) (x : Nat) (t : Context) (b : Buf) : (k.setCtx x t).buf b = k.buf b := by
  cases b <;> rfl

@[simp] theorem buf_setBuf_self (k : Core) (b : Buf) (m : Memory) : (k.setBuf b m).buf b = m := by cases b <;> rfl

/-- The other buffers stay. -/
theorem buf_setBuf_ne (k : Core) {b c : Buf} (m : Memory) (h : c ≠ b) : (k.setBuf b m).buf c = k.buf c := by
  cases b <;> cases c <;> first | rfl | exact absurd rfl h

/-- A row that is written keeps the buffers canonical. -/
theorem wf_setRow (k : Core) (b : Buf) (r : Nat) (x : Row) (h : k.wf = true) : (k.setRow b r x).wf = true := by
  simp only [Core.wf, Bool.and_eq_true] at h ⊢
  obtain ⟨⟨h1, h2⟩, h3⟩ := h
  cases b
  · exact ⟨⟨Memory.wf_write _ _ _ h1, h2⟩, h3⟩
  · exact ⟨⟨h1, Memory.wf_write _ _ _ h2⟩, h3⟩
  · exact ⟨⟨h1, h2⟩, Memory.wf_write _ _ _ h3⟩

@[simp] theorem wf_setCtx (k : Core) (x : Nat) (t : Context) : (k.setCtx x t).wf = k.wf := rfl

/-- Byte a of buffer b after row r of buffer c was written: the row's byte, or what it was. -/
theorem readByte_setRow (k : Core) (b c : Buf) (r a : Nat) (x : Row) :
    Memory.readByte ((k.setRow c r x).buf b) a =
      if b = c ∧ 256 * r ≤ a ∧ a < 256 * r + (bytesOf 256 x.toNat).length then (bytesOf 256 x.toNat).getD (a - 256 * r) 0
      else Memory.readByte (k.buf b) a := by
  by_cases h : b = c
  · subst h
    simp only [Core.setRow, buf_setBuf_self, Memory.readByte_write, true_and]
  · rw [if_neg (fun e => h e.1), Core.setRow, buf_setBuf_ne _ _ h]

/-! ### Launches -/

/-- A launch that is live reads as it was changed. -/
theorem find_modLaunch_self (s : State) (k : Nat) (f : Launch → Launch) (l : Launch) (h : Assoc.find s.launches k = some l) :
    Assoc.find (s.modLaunch k f).launches k = some (f l) := by
  simp [State.modLaunch, h]

/-- Another launch stays. -/
theorem find_modLaunch_ne (s : State) {k j : Nat} (f : Launch → Launch) (h : j ≠ k) :
    Assoc.find (s.modLaunch k f).launches j = Assoc.find s.launches j := by
  unfold State.modLaunch
  split
  · exact Assoc.find_put_ne _ _ h
  · rfl

end Sys2Proof.Machine
end

