-- ==== Sys2Proof/Laws/Ops.lean ====
section
/-!
SUPPORT. What the shared operations of a slot can do: notes of the bundle being issued, operands, and results. Each of them
keeps everything that `RegisterFrame` names.
-/
namespace Sys2Proof.Machine
open Sys2Proof

/-! ### The frame of a slot's operation composes -/

theorem SlotFrame.refl (s : State) : SlotFrame s s := by
  constructor <;> simp

theorem SlotFrame.trans {s t u : State} (h : SlotFrame s t) (g : SlotFrame t u) : SlotFrame s u := by
  have hb := h.bundle
  have hx : ∀ {α : Type} (p : Context → α), p u.cx = p t.cx → p t.cx = p s.cx → p u.cx = p s.cx := fun _ a b => a.trans b
  constructor
  · have h1 := h.package
    have h2 := g.package
    rw [h2, h1]
  · obtain ⟨a, b, c, d⟩ := g.bundle
    obtain ⟨a', b', c', d'⟩ := hb
    exact ⟨a.trans a', b.trans b', c.trans c', d.trans d'⟩
  · intro c hc
    rw [g.cores c (by rw [hb.1]; exact hc), h.cores c hc]
  · intro x hxx
    have h1 := h.others x hxx
    have g1 := g.others x (by rw [hb.2.1]; exact hxx)
    rw [hb.1] at g1
    simp only at h1 g1 ⊢
    rw [g1, h1]
  · intro a; rw [g.device, h.device]
  · intro c b a; rw [g.locals, h.locals]
  · intro c
    obtain ⟨a, b, d⟩ := g.core c
    obtain ⟨a', b', d'⟩ := h.core c
    exact ⟨a.trans a', b.trans b', d.trans d'⟩
  · obtain ⟨a, b, c, d⟩ := g.files
    obtain ⟨a', b', c', d'⟩ := h.files
    exact ⟨a.trans a', b.trans b', c.trans c', d.trans d'⟩
  · obtain ⟨a, b, c, d, e, f⟩ := g.special
    obtain ⟨a', b', c', d', e', f'⟩ := h.special
    exact ⟨a.trans a', b.trans b', c.trans c', d.trans d', e.trans e', f.trans f'⟩
  · obtain ⟨a, b, c, d, e, f, i, j, k⟩ := g.mode
    obtain ⟨a', b', c', d', e', f', i', j', k'⟩ := h.mode
    exact ⟨a.trans a', b.trans b', c.trans c', d.trans d', e.trans e', f.trans f', i.trans i', j.trans j', k.trans k'⟩

theorem RegisterFrame.refl (s : State) : RegisterFrame s s := ⟨SlotFrame.refl s, fun _ _ => rfl, fun _ => rfl, rfl⟩

theorem RegisterFrame.trans {s t u : State} (h : RegisterFrame s t) (g : RegisterFrame t u) : RegisterFrame s u :=
  have hb := h.slot.bundle
  ⟨h.slot.trans g.slot, fun x hx => by rw [← h.others x hx, ← hb.1]; exact g.others x (by rw [hb.2.1]; exact hx),
    fun c => by rw [g.core c, h.core c], by rw [g.issuing, h.issuing]⟩

/-! ### Notes -/

/-- A note that keeps the bundle's place changes nothing else. -/
theorem registerFrame_note (s : State) (f : IssueRec → IssueRec)
    (h : (f s.issue).core = s.issue.core ∧ (f s.issue).ctx = s.issue.ctx ∧ (f s.issue).pc = s.issue.pc ∧
      (f s.issue).cc = s.issue.cc) : RegisterFrame s (s.note f) := by
  have e : (s.note f).cx = s.cx := by
    simp only [State.cx, State.note_issue, h.1, h.2.1, ctxOf_note]
  refine ⟨⟨rfl, h, fun _ _ => rfl, fun _ _ => rfl, fun _ => rfl, fun _ _ _ => rfl, fun _ => ⟨rfl, rfl, rfl⟩, ?_, ?_, ?_⟩,
    fun _ _ => rfl, fun _ => rfl, ?_⟩ <;> simp [e]

theorem registerFrame_fail (s : State) (k : Slot) (c : Nat) : RegisterFrame s (s.fail k c) :=
  registerFrame_note s _ ⟨rfl, rfl, rfl, rfl⟩

theorem registerFrame_latchMiss (s : State) (k : Slot) : RegisterFrame s (s.latchMiss k) :=
  registerFrame_note s _ ⟨rfl, rfl, rfl, rfl⟩

theorem registerFrame_tlbMiss (s : State) (a : Miss) : RegisterFrame s (s.tlbMiss a) :=
  registerFrame_note s _ ⟨rfl, rfl, rfl, rfl⟩

theorem registerFrame_blockOn (s : State) (c : Nat) (w : Wake) : RegisterFrame s (s.blockOn c w) := by
  apply registerFrame_note
  split <;> exact ⟨rfl, rfl, rfl, rfl⟩

theorem registerFrame_noteFlags (s : State) (k : Slot) (f : Nat) : RegisterFrame s (s.noteFlags k f) := by
  unfold State.noteFlags
  split
  · exact (registerFrame_fail s k _).trans (registerFrame_note _ _ ⟨rfl, rfl, rfl, rfl⟩)
  · split
    · exact RegisterFrame.refl s
    · exact registerFrame_note s _ ⟨rfl, rfl, rfl, rfl⟩

/-- The first blocking condition of a bundle stays (R199). -/
theorem block_blockOn (s : State) (c : Nat) (w : Wake) : (s.blockOn c w).issue.block = some (s.issue.block.getD c) := by
  simp only [State.blockOn, State.note_issue]
  split <;> simp [*]

/-- A fault of a slot is noted behind those noted before. -/
@[simp] theorem faults_fail (s : State) (k : Slot) (c : Nat) : (s.fail k c).issue.faults = s.issue.faults ++ [(k.num, c)] := rfl

@[simp] theorem cx_fail (s : State) (k : Slot) (c : Nat) : (s.fail k c).cx = s.cx := rfl
@[simp] theorem ck_fail (s : State) (k : Slot) (c : Nat) : (s.fail k c).ck = s.ck := rfl
@[simp] theorem cx_latchMiss (s : State) (k : Slot) : (s.latchMiss k).cx = s.cx := rfl
@[simp] theorem cx_tlbMiss (s : State) (a : Miss) : (s.tlbMiss a).cx = s.cx := rfl

@[simp] theorem cx_blockOn (s : State) (c : Nat) (w : Wake) : (s.blockOn c w).cx = s.cx := by
  simp only [State.cx, State.blockOn, State.note_issue, ctxOf_note]
  split <;> rfl

@[simp] theorem cx_noteFlags (s : State) (k : Slot) (f : Nat) : (s.noteFlags k f).cx = s.cx := by
  unfold State.noteFlags
  split
  · rfl
  · split <;> rfl

/-! ### Changes of the issuing context -/

/-- A change of the issuing context's results in flight and popped entries changes nothing else. -/
theorem registerFrame_modCx (s : State) (f : Context → Context)
    (h : f s.cx = { s.cx with inflight := (f s.cx).inflight, lq := (f s.cx).lq }) : RegisterFrame s (s.modCx f) := by
  have e : (s.modCx f).cx = f s.cx := cx_modCx s f
  have ek : ∀ c, (s.modCx f).core c = if c = s.issue.core then s.ck.setCtx s.issue.ctx (f s.cx) else s.core c := by
    intro c
    split
    · next hc => subst hc; exact core_modCore_self s s.issue.core _
    · next hc => exact core_modCore_ne s _ hc
  have el : ∀ c b a, Memory.readByte (((s.modCx f).core c).buf b) a = Memory.readByte ((s.core c).buf b) a := by
    intro c b a; rw [ek]; split
    · next hc => subst hc; rw [buf_setCtx]; rfl
    · rfl
  refine ⟨⟨rfl, ⟨rfl, rfl, rfl, rfl⟩, fun c hc => by rw [ek, if_neg hc],
    fun x hx => ?_, fun _ => rfl, el, ?_, ?_, ?_, ?_⟩, fun x hx => ctxOf_modCtx_ne s _ _ hx, ?_, ?_⟩
  · have := ctxOf_modCtx_ne s s.issue.core f hx
    simp only [State.modCx, this]
  · intro c; rw [ek]; split
    · next hc => subst hc; exact ⟨rfl, rfl, rfl⟩
    · exact ⟨rfl, rfl, rfl⟩
  · rw [e, h]; exact ⟨rfl, rfl, rfl, rfl⟩
  · rw [e, h]; exact ⟨rfl, rfl, rfl, rfl, rfl, rfl⟩
  · rw [e, h]; exact ⟨rfl, rfl, rfl, rfl, rfl, rfl, rfl, rfl, rfl⟩
  · intro c; rw [ek]; split
    · next hc => subst hc; rfl
    · rfl
  · rw [e]; exact h

/-! ### Results (R193, R291) -/

/-- A result joins those in flight, in landing order, and nothing else changes. -/
theorem registerFrame_write (s : State) (k : Slot) (d : Dest) (lat : Nat) (x : Row) (w : Bool) :
    RegisterFrame s (s.write k d lat x w) := registerFrame_modCx s _ rfl

theorem registerFrame_writeS (s : State) (k : Slot) (d : BitVec 6) (lat : Nat) (x : Word) :
    RegisterFrame s (s.writeS k d lat x) := registerFrame_write s k _ lat _ false

@[simp] theorem inflight_write (s : State) (k : Slot) (d : Dest) (lat : Nat) (x : Row) (w : Bool) :
    (s.write k d lat x w).cx.inflight =
      insertResult s.cx.inflight ⟨k, if w then .none else d, s.issue.issued, s.issue.cc + lat, x⟩ := by
  simp [State.write]

@[simp] theorem issue_write (s : State) (k : Slot) (d : Dest) (lat : Nat) (x : Row) (w : Bool) :
    (s.write k d lat x w).issue = s.issue := rfl

/-- The results in flight are those before and the new one. -/
theorem mem_insertResult (l : List Result) (r q : Result) : q ∈ insertResult l r ↔ q = r ∨ q ∈ l := by
  induction l with
  | nil => simp [insertResult]
  | cons x t ih =>
    simp only [insertResult]
    split
    · simp only [List.mem_cons, ih]; tauto
    · simp

/-- A result in flight is one more than before. -/
@[simp] theorem length_insertResult (l : List Result) (r : Result) : (insertResult l r).length = l.length + 1 := by
  induction l with
  | nil => rfl
  | cons x t ih => simp only [insertResult]; split <;> simp [ih]

/-! ### Operands (R291) -/

/-- Reading a register changes nothing but the notes. -/
theorem registerFrame_readReg (s : State) (k : Slot) (file : File) (n : BitVec 6) :
    RegisterFrame s (s.readReg k file n).2 := by
  unfold State.readReg
  split
  · exact registerFrame_fail s k _
  · exact RegisterFrame.refl s

theorem registerFrame_readQ (s : State) (k : Slot) (n : BitVec 3) : RegisterFrame s (s.readQ k n).2 := by
  unfold State.readQ
  split
  · exact registerFrame_fail s k _
  · exact RegisterFrame.refl s

/-- A pop marks one entry of the load queue, and nothing else changes but the notes. -/
theorem registerFrame_pop (s : State) (k : Slot) : RegisterFrame s (s.pop k).2 := by
  unfold State.pop
  split
  · exact registerFrame_fail s k _
  · next e l _ =>
    have h : RegisterFrame s (s.modCx (fun t => { t with lq := l })) := registerFrame_modCx s _ rfl
    dsimp only
    split
    · exact h.trans (registerFrame_blockOn _ _ _)
    · split
      · exact h.trans (registerFrame_fail _ _ _)
      · exact h

/-- Reading an operand changes nothing but the notes and, for a pop, its entry. -/
theorem registerFrame_operand (s : State) (k : Slot) (file : File) (a : Sel) : RegisterFrame s (s.operand k file a).2 := by
  cases a with
  | reg n => exact registerFrame_readReg s k file n
  | latch n =>
    simp only [State.operand]
    split
    · exact RegisterFrame.refl s
    · exact registerFrame_latchMiss s k
  | pop =>
    have h := registerFrame_pop s k
    simp only [State.operand]
    split <;> next e => rw [e] at h; exact h
  | zero => exact RegisterFrame.refl s

theorem registerFrame_opS (s : State) (k : Slot) (a : Sel) : RegisterFrame s (s.opS k a).2 := registerFrame_operand s k .s a
theorem registerFrame_opV (s : State) (k : Slot) (a : Sel) : RegisterFrame s (s.opV k a).2 := registerFrame_operand s k .v a
theorem registerFrame_srcS (s : State) (k : Slot) (n : BitVec 6) : RegisterFrame s (s.srcS k n).2 :=
  registerFrame_readReg s k .s n

/-- What goes on from one operand keeps the frame when it does so from the state after the read. -/
theorem registerFrame_with1 {α : Type} {s : State} (p : Option α × State) (f : α → State → State)
    (hp : RegisterFrame s p.2) (hf : ∀ x t, RegisterFrame t (f x t)) : RegisterFrame s (with1 p f) := by
  obtain ⟨_ | x, t⟩ := p
  · exact hp
  · exact hp.trans (hf x t)

theorem registerFrame_with1S (s : State) (k : Slot) (a : Sel) (f : Word → State → State)
    (hf : ∀ x t, RegisterFrame t (f x t)) : RegisterFrame s (s.with1S k a f) :=
  registerFrame_with1 _ f (registerFrame_opS s k a) hf

theorem registerFrame_with1V (s : State) (k : Slot) (a : Sel) (f : Row → State → State)
    (hf : ∀ x t, RegisterFrame t (f x t)) : RegisterFrame s (s.with1V k a f) :=
  registerFrame_with1 _ f (registerFrame_opV s k a) hf

theorem registerFrame_with2S (s : State) (k : Slot) (a b : Sel) (f : Word → Word → State → State)
    (hf : ∀ x y t, RegisterFrame t (f x y t)) : RegisterFrame s (s.with2S k a b f) := by
  have h1 := registerFrame_opS s k a
  unfold State.with2S
  generalize s.opS k a = p at *
  obtain ⟨x, t⟩ := p
  have h2 := registerFrame_opS t k b
  dsimp only at h1 ⊢
  generalize t.opS k b = r at *
  obtain ⟨_ | y, u⟩ := r <;> rcases x with _ | x
  · exact h1.trans h2
  · exact h1.trans h2
  · exact h1.trans h2
  · exact (h1.trans h2).trans (hf x y u)

theorem registerFrame_with2V (s : State) (k : Slot) (a b : Sel) (f : Row → Row → State → State)
    (hf : ∀ x y t, RegisterFrame t (f x y t)) : RegisterFrame s (s.with2V k a b f) := by
  have h1 := registerFrame_opV s k a
  unfold State.with2V
  generalize s.opV k a = p at *
  obtain ⟨x, t⟩ := p
  have h2 := registerFrame_opV t k b
  dsimp only at h1 ⊢
  generalize t.opV k b = r at *
  obtain ⟨_ | y, u⟩ := r <;> rcases x with _ | x
  · exact h1.trans h2
  · exact h1.trans h2
  · exact h1.trans h2
  · exact (h1.trans h2).trans (hf x y u)

theorem registerFrame_withPred (s : State) (k : Slot) (p : Bool) (f : Word → State → State)
    (hf : ∀ x t, RegisterFrame t (f x t)) : RegisterFrame s (s.withPred k p f) := by
  unfold State.withPred
  split
  · exact registerFrame_with1 _ f (registerFrame_readQ s k _) hf
  · exact hf _ s

theorem registerFrame_withOld (s : State) (k : Slot) (d : BitVec 6) (f : Row → State → State)
    (hf : ∀ x t, RegisterFrame t (f x t)) : RegisterFrame s (s.withOld k d f) :=
  registerFrame_with1 _ f (registerFrame_readReg s k .v d) hf

/-! ### Results that land (R194), local writes that take effect (R221) -/

/-- A landing writes the context's register and the slot's latch, and leaves the buffers canonical. -/
@[simp] theorem wf_land (k : Core) (x : Nat) (r : Result) : (k.land x r).wf = k.wf := rfl

/-- The results that are due land one by one, and the buffers stay as they are. -/
@[simp] theorem wf_landDue (k : Core) (x cc : Nat) : (k.landDue x cc).wf = k.wf := by
  have h : ∀ (l : List Result) (k : Core), (l.foldl (fun k r => k.land x r) k).wf = k.wf := by
    intro l; induction l with
    | nil => intro k; rfl
    | cons r l ih => intro k; exact (ih _).trans (wf_land k x r)
  simp only [Core.landDue, wf_setCtx, h]

/-- A local write keeps the buffers canonical. -/
theorem wf_performLocal (k : Core) (x : Nat) (w : LocalWrite) (h : k.wf = true) : (k.performLocal x w).wf = true := by
  have hr : ∀ r : Row, (if k.liveRow w.buf w.row then k else k.setRow w.buf w.row r).wf = true := by
    intro r; split
    · exact h
    · exact wf_setRow k _ _ _ h
  unfold Core.performLocal
  split
  · dsimp only
    split
    · exact hr _
    · exact hr _
  · dsimp only
    split
    · exact h
    · exact hr _

end Sys2Proof.Machine
end

