-- ==== Sys2Proof/Laws/PerInstr.lean ====
section
/-!
SUPPORT. One lemma per instruction: the word of a slot operation fills 32 bits, so that no field of one spills into the word
of the next slot (R288). A step of another agent has no word.
-/
namespace Sys2Proof.Laws
open Sys2Proof.Machine

/-! ### The width of each field -/

theorem num_lt (a : Sel) : a.num < 74 := by
  cases a with
  | reg n => have := n.isLt; simp only [Sel.num]; omega
  | latch n => have := n.isLt; simp only [Sel.num]; omega
  | pop => decide
  | zero => decide

theorem code_lt (f : Fmt) : f.code < 8 := by cases f <;> decide
theorem b2n_lt (b : Bool) : b2n b < 2 := by cases b <;> decide
theorem rm_lt (r : Rm) : Encode.rm r < 8 := by cases r <;> decide
theorem buf_lt (b : Buf) : Encode.buf b < 4 := by cases b <;> decide
theorem amo_lt (o : AmoOp) : Encode.amo o < 16 := by cases o <;> decide
theorem cmp_lt (c : Cmp) : Encode.cmp c < 32 := by cases c <;> decide
theorem br_lt (c : BrCond) : Encode.br c < 8 := by cases c <;> decide

/-! ### The width of each format -/

theorem head_lt (h : Bool) (op : Nat) (ho : op < 64) : Encode.head h op + 2 ^ 25 ≤ 2 ^ 32 := by
  have := b2n_lt h
  simp only [Encode.head]
  omega

theorem sr_lt (op : Nat) (f : SR) (fn : Nat) (ho : op < 64) (hf : fn < 32) : Encode.sr op f fn < 2 ^ 32 := by
  have h1 := head_lt f.h op ho
  have h2 := f.dst.isLt
  have h3 := num_lt f.a
  have h4 := num_lt f.b
  simp only [Encode.sr]
  omega

theorem su_lt (op : Nat) (f : SU) (ho : op < 64) : Encode.su op f < 2 ^ 32 := by
  have h1 := head_lt f.h op ho
  have h2 := f.dst.isLt
  have h3 := num_lt f.a
  simp only [Encode.su]
  omega

theorem si_lt (op : Nat) (f : SI) (ho : op < 64) : Encode.si op f < 2 ^ 32 := by
  have h1 := head_lt f.h op ho
  have h2 := f.dst.isLt
  have h3 := num_lt f.a
  have h4 := f.imm.isLt
  simp only [Encode.si]
  omega

theorem sh_lt (op : Nat) (f : SH) (ho : op < 64) : Encode.sh op f < 2 ^ 32 := by
  have h1 := head_lt f.h op ho
  have h2 := f.dst.isLt
  have h3 := num_lt f.a
  have h4 := f.imm.isLt
  simp only [Encode.sh]
  omega

theorem sl_lt (op : Nat) (f : SL) (ho : op < 64) : Encode.sl op f < 2 ^ 32 := by
  have h1 := head_lt f.h op ho
  have h2 := f.dst.isLt
  have h4 := f.imm.isLt
  simp only [Encode.sl]
  omega

theorem sy_lt (op dst a low : Nat) (ho : op < 64) (hd : dst < 64) (ha : a < 128) (hl : low < 2 ^ 12) :
    Encode.sy op dst a low < 2 ^ 32 := by
  simp only [Encode.sy]
  omega

theorem vhead_lt (h : Bool) (op fmt : Nat) (p w : Bool) (dst a b : Nat) (ho : op < 64) (hf : fmt < 8) (hd : dst < 64)
    (ha : a < 128) (hb : b < 128) : Encode.vhead h op fmt p w dst a b < 2 ^ 32 := by
  have h1 := head_lt h op ho
  have h2 := b2n_lt p
  have h3 := b2n_lt w
  simp only [Encode.vhead]
  omega

theorem num_lt' (a : Sel) : a.num < 128 := Nat.lt_trans (num_lt a) (by decide)

theorem vf_lt (op : Nat) (f : VF) (ho : op < 64) : Encode.vf op f < 2 ^ 32 :=
  vhead_lt _ _ _ _ _ _ _ _ ho (code_lt _) f.dst.isLt (num_lt' _) (num_lt' _)

theorem vu_lt (op : Nat) (f : VU) (ho : op < 64) : Encode.vu op f < 2 ^ 32 :=
  vhead_lt _ _ _ _ _ _ _ _ ho (code_lt _) f.dst.isLt (num_lt' _) (by decide)

theorem vi_lt (op : Nat) (f : VI) (ho : op < 64) : Encode.vi op f < 2 ^ 32 :=
  vhead_lt _ _ _ _ _ _ _ _ ho (code_lt _) f.dst.isLt (num_lt' _) f.k.isLt

theorem vc_lt (op : Nat) (f : VC) (ho : op < 64) : Encode.vc op f < 2 ^ 32 :=
  vhead_lt _ _ _ _ _ _ _ _ ho (code_lt _) (Nat.lt_trans f.dst.isLt (by decide)) (num_lt' _) (num_lt' _)

theorem vv_lt (op : Nat) (f : VV) (ho : op < 64) : Encode.vv op f < 2 ^ 32 := by
  have h1 := f.target.isLt
  have h2 := rm_lt f.rm
  exact vhead_lt _ _ _ _ _ _ _ _ ho (code_lt _) f.dst.isLt (num_lt' _) (by omega)

theorem ql_lt (op : Nat) (f : QL) (ho : op < 64) : Encode.ql op f < 2 ^ 32 :=
  vhead_lt _ _ _ _ _ _ _ _ ho (by decide) (Nat.lt_trans f.dst.isLt (by decide)) (Nat.lt_trans f.a.isLt (by decide))
    (Nat.lt_trans f.b.isLt (by decide))

theorem xe_lt (op : Nat) (d : Due) (a b : Nat) (e : Bool) (ho : op < 64) (ha : a < 128) (hb : b < 128) :
    Encode.xe op d a b e < 2 ^ 32 := by
  have h1 := d.de.isLt
  have h2 := d.dm.isLt
  have h3 := b2n_lt e
  simp only [Encode.xe]
  omega

theorem mr_lt (op : Nat) (b : Buf) (v a imm : Nat) (ho : op < 64) (hv : v < 128) (ha : a < 128) (hi : imm < 512) :
    Encode.mr op b v a imm < 2 ^ 32 := by
  have := buf_lt b
  simp only [Encode.mr]
  omega

theorem mg_lt (op v a b sub : Nat) (ho : op < 64) (hv : v < 128) (ha : a < 128) (hb : b < 128) (hs : sub < 16) :
    Encode.mg op v a b sub < 2 ^ 32 := by
  simp only [Encode.mg]
  omega

theorem ms_lt (op idx a b sub : Nat) (ho : op < 64) (hi : idx < 64) (ha : a < 128) (hb : b < 128) (hs : sub < 32) :
    Encode.ms op idx a b sub < 2 ^ 32 := by
  simp only [Encode.ms]
  omega

/-! ### One lemma per instruction -/

/-- The word of an operation, where it has one, fills 32 bits. -/
def WordRange.Statement (i : Instr) : Prop := ∀ (k : Slot) (w : Nat), Encode.word i = some (k, w) → w < 2 ^ 32


theorem WordRange.idle (slot : Slot) : WordRange.Statement (.idle slot) := by
  intro k w h; cases h
  omega

theorem WordRange.rep (slot : Slot) (cnt : BitVec 4) (dd da db : BitVec 2) : WordRange.Statement (.rep slot cnt dd da db) := by
  intro k w h; cases h
  have h0 := cnt.isLt
  have h1 := dd.isLt
  have h2 := da.isLt
  have h3 := db.isLt
  omega

theorem WordRange.kmark (slot : Slot) : WordRange.Statement (.kmark slot) := by
  intro k w h; cases h
  omega

theorem WordRange.hint (slot : Slot) (h : Bool) (bits : BitVec 25) : WordRange.Statement (.hint slot h bits) := by
  intro k w h; cases h
  have h0 := b2n_lt h
  have h1 := bits.isLt
  simp only [Encode.head]
  omega

theorem WordRange.add (f : SR) : WordRange.Statement (.add f) := by
  intro k w h; cases h; exact sr_lt _ _ _ (by decide) (by decide)

theorem WordRange.sub (f : SR) : WordRange.Statement (.sub f) := by
  intro k w h; cases h; exact sr_lt _ _ _ (by decide) (by decide)

theorem WordRange.and (f : SR) : WordRange.Statement (.and f) := by
  intro k w h; cases h; exact sr_lt _ _ _ (by decide) (by decide)

theorem WordRange.or (f : SR) : WordRange.Statement (.or f) := by
  intro k w h; cases h; exact sr_lt _ _ _ (by decide) (by decide)

theorem WordRange.xor (f : SR) : WordRange.Statement (.xor f) := by
  intro k w h; cases h; exact sr_lt _ _ _ (by decide) (by decide)

theorem WordRange.andn (f : SR) : WordRange.Statement (.andn f) := by
  intro k w h; cases h; exact sr_lt _ _ _ (by decide) (by decide)

theorem WordRange.sll (f : SR) : WordRange.Statement (.sll f) := by
  intro k w h; cases h; exact sr_lt _ _ _ (by decide) (by decide)

theorem WordRange.srl (f : SR) : WordRange.Statement (.srl f) := by
  intro k w h; cases h; exact sr_lt _ _ _ (by decide) (by decide)

theorem WordRange.sra (f : SR) : WordRange.Statement (.sra f) := by
  intro k w h; cases h; exact sr_lt _ _ _ (by decide) (by decide)

theorem WordRange.rol (f : SR) : WordRange.Statement (.rol f) := by
  intro k w h; cases h; exact sr_lt _ _ _ (by decide) (by decide)

theorem WordRange.min (f : SR) : WordRange.Statement (.min f) := by
  intro k w h; cases h; exact sr_lt _ _ _ (by decide) (by decide)

theorem WordRange.max (f : SR) : WordRange.Statement (.max f) := by
  intro k w h; cases h; exact sr_lt _ _ _ (by decide) (by decide)

theorem WordRange.minn (f : SR) : WordRange.Statement (.minn f) := by
  intro k w h; cases h; exact sr_lt _ _ _ (by decide) (by decide)

theorem WordRange.maxn (f : SR) : WordRange.Statement (.maxn f) := by
  intro k w h; cases h; exact sr_lt _ _ _ (by decide) (by decide)

theorem WordRange.cmpCc (f : SR) (cc : Cmp) : WordRange.Statement (.cmpCc f cc) := by
  intro k w h; cases h; exact sr_lt _ _ _ (by decide) (cmp_lt _)

theorem WordRange.cmov (f : SR) : WordRange.Statement (.cmov f) := by
  intro k w h; cases h; exact sr_lt _ _ _ (by decide) (by decide)

theorem WordRange.mul (f : SR) : WordRange.Statement (.mul f) := by
  intro k w h; cases h; exact sr_lt _ _ _ (by decide) (by decide)

theorem WordRange.mulh (f : SR) : WordRange.Statement (.mulh f) := by
  intro k w h; cases h; exact sr_lt _ _ _ (by decide) (by decide)

theorem WordRange.mulhn (f : SR) : WordRange.Statement (.mulhn f) := by
  intro k w h; cases h; exact sr_lt _ _ _ (by decide) (by decide)

theorem WordRange.div (f : SR) : WordRange.Statement (.div f) := by
  intro k w h; cases h; exact sr_lt _ _ _ (by decide) (by decide)

theorem WordRange.divn (f : SR) : WordRange.Statement (.divn f) := by
  intro k w h; cases h; exact sr_lt _ _ _ (by decide) (by decide)

theorem WordRange.rem (f : SR) : WordRange.Statement (.rem f) := by
  intro k w h; cases h; exact sr_lt _ _ _ (by decide) (by decide)

theorem WordRange.remn (f : SR) : WordRange.Statement (.remn f) := by
  intro k w h; cases h; exact sr_lt _ _ _ (by decide) (by decide)

theorem WordRange.clz (f : SU) : WordRange.Statement (.clz f) := by
  intro k w h; cases h; exact su_lt _ _ (by decide)

theorem WordRange.ctz (f : SU) : WordRange.Statement (.ctz f) := by
  intro k w h; cases h; exact su_lt _ _ (by decide)

theorem WordRange.popc (f : SU) : WordRange.Statement (.popc f) := by
  intro k w h; cases h; exact su_lt _ _ (by decide)

theorem WordRange.bfx (f : SR) (fn : BitVec 5) : WordRange.Statement (.bfx f fn) := by
  intro k w h; cases h; exact sr_lt _ _ _ (by decide) (fn.isLt)

theorem WordRange.bins (f : SR) (fn : BitVec 5) : WordRange.Statement (.bins f fn) := by
  intro k w h; cases h; exact sr_lt _ _ _ (by decide) (fn.isLt)

theorem WordRange.brev (f : SU) : WordRange.Statement (.brev f) := by
  intro k w h; cases h; exact su_lt _ _ (by decide)

theorem WordRange.addi (f : SI) : WordRange.Statement (.addi f) := by
  intro k w h; cases h; exact si_lt _ _ (by decide)

theorem WordRange.andi (f : SI) : WordRange.Statement (.andi f) := by
  intro k w h; cases h; exact si_lt _ _ (by decide)

theorem WordRange.ori (f : SI) : WordRange.Statement (.ori f) := by
  intro k w h; cases h; exact si_lt _ _ (by decide)

theorem WordRange.xori (f : SI) : WordRange.Statement (.xori f) := by
  intro k w h; cases h; exact si_lt _ _ (by decide)

theorem WordRange.slli (f : SH) : WordRange.Statement (.slli f) := by
  intro k w h; cases h; exact sh_lt _ _ (by decide)

theorem WordRange.srli (f : SH) : WordRange.Statement (.srli f) := by
  intro k w h; cases h; exact sh_lt _ _ (by decide)

theorem WordRange.srai (f : SH) : WordRange.Statement (.srai f) := by
  intro k w h; cases h; exact sh_lt _ _ (by decide)

theorem WordRange.slti (f : SI) : WordRange.Statement (.slti f) := by
  intro k w h; cases h; exact si_lt _ _ (by decide)

theorem WordRange.sltni (f : SI) : WordRange.Statement (.sltni f) := by
  intro k w h; cases h; exact si_lt _ _ (by decide)

theorem WordRange.seqi (f : SI) : WordRange.Statement (.seqi f) := by
  intro k w h; cases h; exact si_lt _ _ (by decide)

theorem WordRange.movl (f : SL) : WordRange.Statement (.movl f) := by
  intro k w h; cases h; exact sl_lt _ _ (by decide)

theorem WordRange.movh (f : SL) : WordRange.Statement (.movh f) := by
  intro k w h; cases h; exact sl_lt _ _ (by decide)

theorem WordRange.ldl (slot : Slot) (h : Bool) (dst : BitVec 6) (idx : BitVec 14) : WordRange.Statement (.ldl slot h dst idx) := by
  intro k w h; cases h
  have h0 := b2n_lt h
  have h1 := dst.isLt
  have h2 := idx.isLt
  simp only [Encode.head]
  omega

theorem WordRange.brCc (c : BrCond) (a : Sel) (off : BitVec 15) : WordRange.Statement (.brCc c a off) := by
  intro k w h; cases h
  have h0 := br_lt c
  have h1 := num_lt a
  have h2 := off.isLt
  omega

theorem WordRange.loop (a : BitVec 6) (off : BitVec 15) : WordRange.Statement (.loop a off) := by
  intro k w h; cases h
  have h0 := a.isLt
  have h1 := off.isLt
  omega

theorem WordRange.call (dst : BitVec 6) (target : BitVec 14) : WordRange.Statement (.call dst target) := by
  intro k w h; cases h
  have h0 := dst.isLt
  have h1 := target.isLt
  omega

theorem WordRange.jr (a : Sel) : WordRange.Statement (.jr a) := by
  intro k w h; cases h
  have h0 := num_lt a
  apply sy_lt <;> omega

theorem WordRange.exit : WordRange.Statement .exit := by
  intro k w h; cases h
  omega

theorem WordRange.yield : WordRange.Statement .yield := by
  intro k w h; cases h
  omega

theorem WordRange.trap (num : BitVec 12) : WordRange.Statement (.trap num) := by
  intro k w h; cases h
  have h0 := num.isLt
  apply sy_lt <;> omega

theorem WordRange.uret : WordRange.Statement .uret := by
  intro k w h; cases h
  omega

theorem WordRange.srd (slot : Slot) (dst : BitVec 6) (num : BitVec 12) : WordRange.Statement (.srd slot dst num) := by
  intro k w h; cases h
  have h0 := dst.isLt
  have h1 := num.isLt
  apply sy_lt <;> omega

theorem WordRange.swr (a : Sel) (num : BitVec 12) : WordRange.Statement (.swr a num) := by
  intro k w h; cases h
  have h0 := num_lt a
  have h1 := num.isLt
  apply sy_lt <;> omega

theorem WordRange.scopew (e : BitVec 5) (a : Sel) : WordRange.Statement (.scopew e a) := by
  intro k w h; cases h
  have h0 := e.isLt
  have h1 := num_lt a
  apply sy_lt <;> omega

theorem WordRange.winw (w : BitVec 4) (a b : Sel) : WordRange.Statement (.winw w a b) := by
  intro k w h; cases h
  have h0 := w.isLt
  have h1 := num_lt a
  have h2 := num_lt b
  apply sy_lt <;> omega

theorem WordRange.winr (slot : Slot) (dst : BitVec 6) (w : BitVec 4) (hi : Bool) : WordRange.Statement (.winr slot dst w hi) := by
  intro k w h; cases h
  have h0 := dst.isLt
  have h1 := w.isLt
  have h2 := b2n_lt hi
  apply sy_lt <;> omega

theorem WordRange.inval (a b : Sel) : WordRange.Statement (.inval a b) := by
  intro k w h; cases h
  have h0 := num_lt a
  have h1 := num_lt b
  apply sy_lt <;> omega

theorem WordRange.vadd (f : VF) : WordRange.Statement (.vadd f) := by
  intro k w h; cases h; exact vf_lt _ _ (by decide)

theorem WordRange.vsub (f : VF) : WordRange.Statement (.vsub f) := by
  intro k w h; cases h; exact vf_lt _ _ (by decide)

theorem WordRange.vmul (f : VF) : WordRange.Statement (.vmul f) := by
  intro k w h; cases h; exact vf_lt _ _ (by decide)

theorem WordRange.vfma (f : VF) : WordRange.Statement (.vfma f) := by
  intro k w h; cases h; exact vf_lt _ _ (by decide)

theorem WordRange.vfms (f : VF) : WordRange.Statement (.vfms f) := by
  intro k w h; cases h; exact vf_lt _ _ (by decide)

theorem WordRange.vmin (f : VF) : WordRange.Statement (.vmin f) := by
  intro k w h; cases h; exact vf_lt _ _ (by decide)

theorem WordRange.vmax (f : VF) : WordRange.Statement (.vmax f) := by
  intro k w h; cases h; exact vf_lt _ _ (by decide)

theorem WordRange.vabs (f : VU) : WordRange.Statement (.vabs f) := by
  intro k w h; cases h; exact vu_lt _ _ (by decide)

theorem WordRange.vneg (f : VU) : WordRange.Statement (.vneg f) := by
  intro k w h; cases h; exact vu_lt _ _ (by decide)

theorem WordRange.vadds (f : VF) : WordRange.Statement (.vadds f) := by
  intro k w h; cases h; exact vf_lt _ _ (by decide)

theorem WordRange.vsubs (f : VF) : WordRange.Statement (.vsubs f) := by
  intro k w h; cases h; exact vf_lt _ _ (by decide)

theorem WordRange.vaddsn (f : VF) : WordRange.Statement (.vaddsn f) := by
  intro k w h; cases h; exact vf_lt _ _ (by decide)

theorem WordRange.vand (f : VF) : WordRange.Statement (.vand f) := by
  intro k w h; cases h; exact vf_lt _ _ (by decide)

theorem WordRange.vor (f : VF) : WordRange.Statement (.vor f) := by
  intro k w h; cases h; exact vf_lt _ _ (by decide)

theorem WordRange.vxor (f : VF) : WordRange.Statement (.vxor f) := by
  intro k w h; cases h; exact vf_lt _ _ (by decide)

theorem WordRange.vshl (f : VF) : WordRange.Statement (.vshl f) := by
  intro k w h; cases h; exact vf_lt _ _ (by decide)

theorem WordRange.vshr (f : VF) : WordRange.Statement (.vshr f) := by
  intro k w h; cases h; exact vf_lt _ _ (by decide)

theorem WordRange.vsra (f : VF) : WordRange.Statement (.vsra f) := by
  intro k w h; cases h; exact vf_lt _ _ (by decide)

theorem WordRange.vshli (f : VI) : WordRange.Statement (.vshli f) := by
  intro k w h; cases h; exact vi_lt _ _ (by decide)

theorem WordRange.vcmpEq (f : VC) : WordRange.Statement (.vcmpEq f) := by
  intro k w h; cases h; exact vc_lt _ _ (by decide)

theorem WordRange.vcmpLt (f : VC) : WordRange.Statement (.vcmpLt f) := by
  intro k w h; cases h; exact vc_lt _ _ (by decide)

theorem WordRange.vcmpLe (f : VC) : WordRange.Statement (.vcmpLe f) := by
  intro k w h; cases h; exact vc_lt _ _ (by decide)

theorem WordRange.vcmpNe (f : VC) : WordRange.Statement (.vcmpNe f) := by
  intro k w h; cases h; exact vc_lt _ _ (by decide)

theorem WordRange.vcmpLtn (f : VC) : WordRange.Statement (.vcmpLtn f) := by
  intro k w h; cases h; exact vc_lt _ _ (by decide)

theorem WordRange.vcvt (f : VV) : WordRange.Statement (.vcvt f) := by
  intro k w h; cases h; exact vv_lt _ _ (by decide)

theorem WordRange.vcvts (f : VV) : WordRange.Statement (.vcvts f) := by
  intro k w h; cases h; exact vv_lt _ _ (by decide)

theorem WordRange.vsel (f : VF) : WordRange.Statement (.vsel f) := by
  intro k w h; cases h; exact vf_lt _ _ (by decide)

theorem WordRange.vmov (f : VU) : WordRange.Statement (.vmov f) := by
  intro k w h; cases h; exact vu_lt _ _ (by decide)

theorem WordRange.vbcast (f : VI) : WordRange.Statement (.vbcast f) := by
  intro k w h; cases h; exact vi_lt _ _ (by decide)

theorem WordRange.vperm (f : VF) : WordRange.Statement (.vperm f) := by
  intro k w h; cases h; exact vf_lt _ _ (by decide)

theorem WordRange.vtrans (f : VU) : WordRange.Statement (.vtrans f) := by
  intro k w h; cases h; exact vu_lt _ _ (by decide)

theorem WordRange.vrsum (f : VU) : WordRange.Statement (.vrsum f) := by
  intro k w h; cases h; exact vu_lt _ _ (by decide)

theorem WordRange.vcsum (f : VU) : WordRange.Statement (.vcsum f) := by
  intro k w h; cases h; exact vu_lt _ _ (by decide)

theorem WordRange.vrmax (f : VU) : WordRange.Statement (.vrmax f) := by
  intro k w h; cases h; exact vu_lt _ _ (by decide)

theorem WordRange.vcmax (f : VU) : WordRange.Statement (.vcmax f) := by
  intro k w h; cases h; exact vu_lt _ _ (by decide)

theorem WordRange.vrmin (f : VU) : WordRange.Statement (.vrmin f) := by
  intro k w h; cases h; exact vu_lt _ _ (by decide)

theorem WordRange.vcmin (f : VU) : WordRange.Statement (.vcmin f) := by
  intro k w h; cases h; exact vu_lt _ _ (by decide)

theorem WordRange.vshp (slot : Slot) (h : Bool) (code : BitVec 3) : WordRange.Statement (.vshp slot h code) := by
  intro k w h; cases h
  have h0 := b2n_lt h
  have h1 := code.isLt
  apply vhead_lt <;> omega

theorem WordRange.vmovz (f : VU) : WordRange.Statement (.vmovz f) := by
  intro k w h; cases h; exact vu_lt _ _ (by decide)

theorem WordRange.vpfx (slot : Slot) (h p w : Bool) (dst : BitVec 3) (a : Sel) : WordRange.Statement (.vpfx slot h p w dst a) := by
  intro k w h; cases h
  have h0 := b2n_lt h
  have h1 := b2n_lt p
  have h2 := b2n_lt w
  have h3 := dst.isLt
  have h4 := num_lt a
  apply vhead_lt <;> omega

theorem WordRange.qand (f : QL) : WordRange.Statement (.qand f) := by
  intro k w h; cases h; exact ql_lt _ _ (by decide)

theorem WordRange.qor (f : QL) : WordRange.Statement (.qor f) := by
  intro k w h; cases h; exact ql_lt _ _ (by decide)

theorem WordRange.qxor (f : QL) : WordRange.Statement (.qxor f) := by
  intro k w h; cases h; exact ql_lt _ _ (by decide)

theorem WordRange.qnot (slot : Slot) (h w : Bool) (dst a : BitVec 3) : WordRange.Statement (.qnot slot h w dst a) := by
  intro k w h; cases h
  have h0 := b2n_lt h
  have h1 := b2n_lt w
  have h2 := dst.isLt
  have h3 := a.isLt
  apply vhead_lt <;> omega

theorem WordRange.vdq (f : VI) : WordRange.Statement (.vdq f) := by
  intro k w h; cases h; exact vi_lt _ _ (by decide)

theorem WordRange.vmac (f : VF) : WordRange.Statement (.vmac f) := by
  intro k w h; cases h; exact vf_lt _ _ (by decide)

theorem WordRange.vrot (f : VI) : WordRange.Statement (.vrot f) := by
  intro k w h; cases h; exact vi_lt _ _ (by decide)

theorem WordRange.vsplat (f : VU) : WordRange.Statement (.vsplat f) := by
  intro k w h; cases h; exact vu_lt _ _ (by decide)

theorem WordRange.xexp2 (f : VU) : WordRange.Statement (.xexp2 f) := by
  intro k w h; cases h; exact vu_lt _ _ (by decide)

theorem WordRange.xlog2 (f : VU) : WordRange.Statement (.xlog2 f) := by
  intro k w h; cases h; exact vu_lt _ _ (by decide)

theorem WordRange.xrcp (f : VU) : WordRange.Statement (.xrcp f) := by
  intro k w h; cases h; exact vu_lt _ _ (by decide)

theorem WordRange.xrsqrt (f : VU) : WordRange.Statement (.xrsqrt f) := by
  intro k w h; cases h; exact vu_lt _ _ (by decide)

theorem WordRange.xsqrt (f : VU) : WordRange.Statement (.xsqrt f) := by
  intro k w h; cases h; exact vu_lt _ _ (by decide)

theorem WordRange.xsin (f : VU) : WordRange.Statement (.xsin f) := by
  intro k w h; cases h; exact vu_lt _ _ (by decide)

theorem WordRange.xcos (f : VU) : WordRange.Statement (.xcos f) := by
  intro k w h; cases h; exact vu_lt _ _ (by decide)

theorem WordRange.xtanh (f : VU) : WordRange.Statement (.xtanh f) := by
  intro k w h; cases h; exact vu_lt _ _ (by decide)

theorem WordRange.xsigm (f : VU) : WordRange.Statement (.xsigm f) := by
  intro k w h; cases h; exact vu_lt _ _ (by decide)

theorem WordRange.xgelu (f : VU) : WordRange.Statement (.xgelu f) := by
  intro k w h; cases h; exact vu_lt _ _ (by decide)

theorem WordRange.xdiv (f : VF) : WordRange.Statement (.xdiv f) := by
  intro k w h; cases h; exact vf_lt _ _ (by decide)

theorem WordRange.mm (due : Due) (a b : Sel) : WordRange.Statement (.mm due a b) := by
  intro k w h; cases h
  have h0 := due.de.isLt
  have h1 := due.dm.isLt
  have h2 := num_lt a
  have h3 := num_lt b
  apply xe_lt <;> omega

theorem WordRange.mmacro (due : Due) (a : BitVec 6) (b : Sel) : WordRange.Statement (.mmacro due a b) := by
  intro k w h; cases h
  have h0 := due.de.isLt
  have h1 := due.dm.isLt
  have h2 := a.isLt
  have h3 := num_lt b
  apply xe_lt <;> omega

theorem WordRange.accz (t : BitVec 5) : WordRange.Statement (.accz t) := by
  intro k w h; cases h
  have h0 := t.isLt
  apply xe_lt <;> omega

theorem WordRange.rqr (due : Due) (deferred : Bool) (a b : Sel) : WordRange.Statement (.rqr due deferred a b) := by
  intro k w h; cases h
  have h0 := due.de.isLt
  have h1 := due.dm.isLt
  have h2 := b2n_lt deferred
  have h3 := num_lt a
  have h4 := num_lt b
  apply xe_lt <;> omega

theorem WordRange.rap (due : Due) (deferred : Bool) (a : BitVec 6) (b : Sel) : WordRange.Statement (.rap due deferred a b) := by
  intro k w h; cases h
  have h0 := due.de.isLt
  have h1 := due.dm.isLt
  have h2 := b2n_lt deferred
  have h3 := a.isLt
  have h4 := num_lt b
  apply xe_lt <;> omega

theorem WordRange.rrd (h p w : Bool) (dst : BitVec 6) (a : Sel) : WordRange.Statement (.rrd h p w dst a) := by
  intro k w h; cases h
  have h0 := b2n_lt h
  have h1 := b2n_lt p
  have h2 := b2n_lt w
  have h3 := dst.isLt
  have h4 := num_lt a
  apply vhead_lt <;> omega

theorem WordRange.rcl (due : Due) : WordRange.Statement (.rcl due) := by
  intro k w h; cases h
  have h0 := due.de.isLt
  have h1 := due.dm.isLt
  apply xe_lt <;> omega

theorem WordRange.rang (h p w : Bool) (dst : BitVec 6) (a : Sel) (half : Bool) : WordRange.Statement (.rang h p w dst a half) := by
  intro k w h; cases h
  have h0 := b2n_lt h
  have h1 := b2n_lt p
  have h2 := b2n_lt w
  have h3 := dst.isLt
  have h4 := num_lt a
  have h5 := b2n_lt half
  apply vhead_lt <;> omega

theorem WordRange.cp (due : Due) (a : Sel) : WordRange.Statement (.cp due a) := by
  intro k w h; cases h
  have h0 := due.de.isLt
  have h1 := due.dm.isLt
  have h2 := num_lt a
  apply xe_lt <;> omega

theorem WordRange.cpadv (due : Due) : WordRange.Statement (.cpadv due) := by
  intro k w h; cases h
  have h0 := due.de.isLt
  have h1 := due.dm.isLt
  apply xe_lt <;> omega

theorem WordRange.wmwait (a b : Sel) : WordRange.Statement (.wmwait a b) := by
  intro k w h; cases h
  have h0 := num_lt a
  have h1 := num_lt b
  apply xe_lt <;> omega

theorem WordRange.cpreset (a : Sel) : WordRange.Statement (.cpreset a) := by
  intro k w h; cases h
  have h0 := num_lt a
  apply xe_lt <;> omega

theorem WordRange.ld (f : MR) : WordRange.Statement (.ld f) := by
  intro k w h; cases h
  have h0 := buf_lt f.buf
  have h1 := f.v.isLt
  have h2 := num_lt f.a
  have h3 := f.imm.isLt
  apply mr_lt <;> omega

theorem WordRange.st (f : MRS) : WordRange.Statement (.st f) := by
  intro k w h; cases h
  have h0 := buf_lt f.buf
  have h1 := num_lt f.v
  have h2 := num_lt f.a
  have h3 := f.imm.isLt
  apply mr_lt <;> omega

theorem WordRange.ldt (f : MR) : WordRange.Statement (.ldt f) := by
  intro k w h; cases h
  have h0 := buf_lt f.buf
  have h1 := f.v.isLt
  have h2 := num_lt f.a
  have h3 := f.imm.isLt
  apply mr_lt <;> omega

theorem WordRange.stt (f : MRS) : WordRange.Statement (.stt f) := by
  intro k w h; cases h
  have h0 := buf_lt f.buf
  have h1 := num_lt f.v
  have h2 := num_lt f.a
  have h3 := f.imm.isLt
  apply mr_lt <;> omega

theorem WordRange.ldsc (buf : Buf) (v : BitVec 4) (a : Sel) (imm : BitVec 9) : WordRange.Statement (.ldsc buf v a imm) := by
  intro k w h; cases h
  have h0 := buf_lt buf
  have h1 := v.isLt
  have h2 := num_lt a
  have h3 := imm.isLt
  apply mr_lt <;> omega

theorem WordRange.ldbf (buf : Buf) (v : BitVec 6) (a : Sel) (xp : BitVec 3) (imm : BitVec 6) : WordRange.Statement (.ldbf buf v a xp imm) := by
  intro k w h; cases h
  have h0 := buf_lt buf
  have h1 := v.isLt
  have h2 := num_lt a
  have h3 := xp.isLt
  have h4 := imm.isLt
  apply mr_lt <;> omega

theorem WordRange.amoOp (slot : Slot) (op : AmoOp) (v : BitVec 6) (a b : Sel) : WordRange.Statement (.amoOp slot op v a b) := by
  intro k w h; cases h
  have h0 := amo_lt op
  have h1 := v.isLt
  have h2 := num_lt a
  have h3 := num_lt b
  apply mg_lt <;> omega

theorem WordRange.ldgRow (slot : Slot) (a b : Sel) : WordRange.Statement (.ldgRow slot a b) := by
  intro k w h; cases h
  have h0 := num_lt a
  have h1 := num_lt b
  apply mg_lt <;> omega

theorem WordRange.ldgWord (slot : Slot) (a b : Sel) : WordRange.Statement (.ldgWord slot a b) := by
  intro k w h; cases h
  have h0 := num_lt a
  have h1 := num_lt b
  apply mg_lt <;> omega

theorem WordRange.stgRow (slot : Slot) (v a b : Sel) : WordRange.Statement (.stgRow slot v a b) := by
  intro k w h; cases h
  have h0 := num_lt v
  have h1 := num_lt a
  have h2 := num_lt b
  apply mg_lt <;> omega

theorem WordRange.stgWord (slot : Slot) (v a b : Sel) : WordRange.Statement (.stgWord slot v a b) := by
  intro k w h; cases h
  have h0 := num_lt v
  have h1 := num_lt a
  have h2 := num_lt b
  apply mg_lt <;> omega

theorem WordRange.ldff (slot : Slot) (a b : Sel) (q : BitVec 3) : WordRange.Statement (.ldff slot a b q) := by
  intro k w h; cases h
  have h0 := num_lt a
  have h1 := num_lt b
  have h2 := q.isLt
  apply mg_lt <;> omega

theorem WordRange.amogOp (slot : Slot) (op : AmoOp) (v a b : Sel) : WordRange.Statement (.amogOp slot op v a b) := by
  intro k w h; cases h
  have h0 := amo_lt op
  have h1 := num_lt v
  have h2 := num_lt a
  have h3 := num_lt b
  apply mg_lt <;> omega

theorem WordRange.rst (slot : Slot) (v a : Sel) : WordRange.Statement (.rst slot v a) := by
  intro k w h; cases h
  have h0 := num_lt v
  have h1 := num_lt a
  apply mg_lt <;> omega

theorem WordRange.rld (slot : Slot) (a : Sel) : WordRange.Statement (.rld slot a) := by
  intro k w h; cases h
  have h0 := num_lt a
  apply mg_lt <;> omega

theorem WordRange.rred (slot : Slot) (v : BitVec 6) (a : Sel) (ifmt : BitVec 4) (arrival : Bool) (nr : BitVec 2) : WordRange.Statement (.rred slot v a ifmt arrival nr) := by
  intro k w h; cases h
  have h0 := v.isLt
  have h1 := num_lt a
  have h2 := ifmt.isLt
  have h3 := b2n_lt arrival
  have h4 := nr.isLt
  omega

theorem WordRange.rfaaI64 (slot : Slot) (a b : Sel) : WordRange.Statement (.rfaaI64 slot a b) := by
  intro k w h; cases h
  have h0 := num_lt a
  have h1 := num_lt b
  apply mg_lt <;> omega

theorem WordRange.rfaaI32 (slot : Slot) (a b : Sel) : WordRange.Statement (.rfaaI32 slot a b) := by
  intro k w h; cases h
  have h0 := num_lt a
  have h1 := num_lt b
  apply mg_lt <;> omega

theorem WordRange.rmc (slot : Slot) (v a b : Sel) : WordRange.Statement (.rmc slot v a b) := by
  intro k w h; cases h
  have h0 := num_lt v
  have h1 := num_lt a
  have h2 := num_lt b
  apply mg_lt <;> omega

theorem WordRange.clap (slot : Slot) : WordRange.Statement (.clap slot) := by
  intro k w h; cases h
  omega

theorem WordRange.fence (slot : Slot) (e : BitVec 5) : WordRange.Statement (.fence slot e) := by
  intro k w h; cases h
  have h0 := e.isLt
  apply ms_lt <;> omega

theorem WordRange.barInit (slot : Slot) (b : BitVec 6) (a : Sel) : WordRange.Statement (.barInit slot b a) := by
  intro k w h; cases h
  have h0 := b.isLt
  have h1 := num_lt a
  apply ms_lt <;> omega

theorem WordRange.barArr (slot : Slot) (b : BitVec 6) : WordRange.Statement (.barArr slot b) := by
  intro k w h; cases h
  have h0 := b.isLt
  apply ms_lt <;> omega

theorem WordRange.barWait (slot : Slot) (b : BitVec 6) : WordRange.Statement (.barWait slot b) := by
  intro k w h; cases h
  have h0 := b.isLt
  apply ms_lt <;> omega

theorem WordRange.barSync (slot : Slot) (b : BitVec 6) : WordRange.Statement (.barSync slot b) := by
  intro k w h; cases h
  have h0 := b.isLt
  apply ms_lt <;> omega

theorem WordRange.barDep (slot : Slot) (b : BitVec 6) : WordRange.Statement (.barDep slot b) := by
  intro k w h; cases h
  have h0 := b.isLt
  apply ms_lt <;> omega

theorem WordRange.barEnd (slot : Slot) (b : BitVec 6) : WordRange.Statement (.barEnd slot b) := by
  intro k w h; cases h
  have h0 := b.isLt
  apply ms_lt <;> omega

theorem WordRange.fbar (slot : Slot) (e : BitVec 5) (a : Sel) : WordRange.Statement (.fbar slot e a) := by
  intro k w h; cases h
  have h0 := e.isLt
  have h1 := num_lt a
  apply ms_lt <;> omega

theorem WordRange.guardSet (slot : Slot) (a b : Sel) : WordRange.Statement (.guardSet slot a b) := by
  intro k w h; cases h
  have h0 := num_lt a
  have h1 := num_lt b
  apply mg_lt <;> omega

theorem WordRange.guardClr (slot : Slot) (a b : Sel) : WordRange.Statement (.guardClr slot a b) := by
  intro k w h; cases h
  have h0 := num_lt a
  have h1 := num_lt b
  apply mg_lt <;> omega

theorem WordRange.rmg (slot : Slot) (dst a b : BitVec 6) (c : Sel) : WordRange.Statement (.rmg slot dst a b c) := by
  intro k w h; cases h
  have h0 := dst.isLt
  have h1 := a.isLt
  have h2 := b.isLt
  have h3 := num_lt c
  omega

theorem WordRange.tagwFull (slot : Slot) (a : Sel) : WordRange.Statement (.tagwFull slot a) := by
  intro k w h; cases h
  have h0 := num_lt a
  apply ms_lt <;> omega

theorem WordRange.tagwEmpty (slot : Slot) (a : Sel) : WordRange.Statement (.tagwEmpty slot a) := by
  intro k w h; cases h
  have h0 := num_lt a
  apply ms_lt <;> omega

theorem WordRange.contextWake (core ctx : Nat) : WordRange.Statement (.contextWake core ctx) := by
  intro k w h; cases h

theorem WordRange.regionRestart (core ctx : Nat) : WordRange.Statement (.regionRestart core ctx) := by
  intro k w h; cases h

theorem WordRange.engineHung (core ctx : Nat) : WordRange.Statement (.engineHung core ctx) := by
  intro k w h; cases h

theorem WordRange.uintDelivery (core ctx : Nat) : WordRange.Statement (.uintDelivery core ctx) := by
  intro k w h; cases h

theorem WordRange.repInstance (core ctx slot : Nat) : WordRange.Statement (.repInstance core ctx slot) := by
  intro k w h; cases h

theorem WordRange.globalLoadReturn (core i : Nat) : WordRange.Statement (.globalLoadReturn core i) := by
  intro k w h; cases h

theorem WordRange.storeQueueSend (core ctx : Nat) : WordRange.Statement (.storeQueueSend core ctx) := by
  intro k w h; cases h

theorem WordRange.remoteTimeout (core i : Nat) : WordRange.Statement (.remoteTimeout core i) := by
  intro k w h; cases h

theorem WordRange.seqEntryExpire (core i : Nat) : WordRange.Statement (.seqEntryExpire core i) := by
  intro k w h; cases h

theorem WordRange.matrixCommandStart (core : Nat) : WordRange.Statement (.matrixCommandStart core) := by
  intro k w h; cases h

theorem WordRange.matrixCommandComplete (core : Nat) : WordRange.Statement (.matrixCommandComplete core) := by
  intro k w h; cases h

theorem WordRange.macroStep (core : Nat) : WordRange.Statement (.macroStep core) := by
  intro k w h; cases h

theorem WordRange.rotatorCommandStart (core : Nat) : WordRange.Statement (.rotatorCommandStart core) := by
  intro k w h; cases h

theorem WordRange.rotatorCommandComplete (core : Nat) : WordRange.Statement (.rotatorCommandComplete core) := by
  intro k w h; cases h

theorem WordRange.copyEntryStart (core ch : Nat) : WordRange.Statement (.copyEntryStart core ch) := by
  intro k w h; cases h

theorem WordRange.copyRowLand (core ch row : Nat) : WordRange.Statement (.copyRowLand core ch row) := by
  intro k w h; cases h

theorem WordRange.followOnEnqueue (core ch : Nat) : WordRange.Statement (.followOnEnqueue core ch) := by
  intro k w h; cases h

theorem WordRange.copyEntryComplete (core ch : Nat) : WordRange.Statement (.copyEntryComplete core ch) := by
  intro k w h; cases h

theorem WordRange.copyChannelError (core ch : Nat) : WordRange.Statement (.copyChannelError core ch) := by
  intro k w h; cases h

theorem WordRange.store (core i : Nat) : WordRange.Statement (.store core i) := by
  intro k w h; cases h

theorem WordRange.loadReq (core i : Nat) : WordRange.Statement (.loadReq core i) := by
  intro k w h; cases h

theorem WordRange.loadRsp (core i : Nat) : WordRange.Statement (.loadRsp core i) := by
  intro k w h; cases h

theorem WordRange.amo (core i : Nat) : WordRange.Statement (.amo core i) := by
  intro k w h; cases h

theorem WordRange.amoRsp (core i : Nat) : WordRange.Statement (.amoRsp core i) := by
  intro k w h; cases h

theorem WordRange.ack (core i : Nat) : WordRange.Statement (.ack core i) := by
  intro k w h; cases h

theorem WordRange.error (core i : Nat) : WordRange.Statement (.error core i) := by
  intro k w h; cases h

theorem WordRange.bulkWrite (core i : Nat) : WordRange.Statement (.bulkWrite core i) := by
  intro k w h; cases h

theorem WordRange.bulkReadReq (core i : Nat) : WordRange.Statement (.bulkReadReq core i) := by
  intro k w h; cases h

theorem WordRange.bulkReadRsp (core i : Nat) : WordRange.Statement (.bulkReadRsp core i) := by
  intro k w h; cases h

theorem WordRange.mgmt (i : Nat) : WordRange.Statement (.mgmt i) := by
  intro k w h; cases h

theorem WordRange.ringWrite (i : Nat) : WordRange.Statement (.ringWrite i) := by
  intro k w h; cases h

theorem WordRange.ringRead (i : Nat) : WordRange.Statement (.ringRead i) := by
  intro k w h; cases h

theorem WordRange.packetRouteFill (i : Nat) : WordRange.Statement (.packetRouteFill i) := by
  intro k w h; cases h

theorem WordRange.routeFwd (i : Nat) : WordRange.Statement (.routeFwd i) := by
  intro k w h; cases h

theorem WordRange.routeDeliver (i : Nat) : WordRange.Statement (.routeDeliver i) := by
  intro k w h; cases h

theorem WordRange.routeCombine (i : Nat) : WordRange.Statement (.routeCombine i) := by
  intro k w h; cases h

theorem WordRange.routeFanout (i : Nat) : WordRange.Statement (.routeFanout i) := by
  intro k w h; cases h

theorem WordRange.fanoutAck (i : Nat) : WordRange.Statement (.fanoutAck i) := by
  intro k w h; cases h

theorem WordRange.fanoutAckTimeout (fan : Nat) : WordRange.Statement (.fanoutAckTimeout fan) := by
  intro k w h; cases h

theorem WordRange.routeTableStageWrite (offset : Nat) (v : Word) : WordRange.Statement (.routeTableStageWrite offset v) := by
  intro k w h; cases h

theorem WordRange.routeTablePublish (offset : Nat) (v : Word) : WordRange.Statement (.routeTablePublish offset v) := by
  intro k w h; cases h

theorem WordRange.pageWalkComplete (i : Nat) : WordRange.Statement (.pageWalkComplete i) := by
  intro k w h; cases h

theorem WordRange.invalidationPost (v : Word) : WordRange.Statement (.invalidationPost v) := by
  intro k w h; cases h

theorem WordRange.invalidationStart : WordRange.Statement .invalidationStart := by
  intro k w h; cases h

theorem WordRange.tlbInvalidationAck (holder : Nat) : WordRange.Statement (.tlbInvalidationAck holder) := by
  intro k w h; cases h

theorem WordRange.pinTimeout (core ch : Nat) : WordRange.Statement (.pinTimeout core ch) := by
  intro k w h; cases h

theorem WordRange.launchDispatch (launch : Nat) : WordRange.Statement (.launchDispatch launch) := by
  intro k w h; cases h

theorem WordRange.loadingComplete (launch : Nat) : WordRange.Statement (.loadingComplete launch) := by
  intro k w h; cases h

theorem WordRange.priorityAgeing (launch : Nat) : WordRange.Statement (.priorityAgeing launch) := by
  intro k w h; cases h

theorem WordRange.contextPreempt (launch : Nat) : WordRange.Statement (.contextPreempt launch) := by
  intro k w h; cases h

theorem WordRange.contextSaveComplete (core ctx : Nat) : WordRange.Statement (.contextSaveComplete core ctx) := by
  intro k w h; cases h

theorem WordRange.contextResume (launch core home : Nat) : WordRange.Statement (.contextResume launch core home) := by
  intro k w h; cases h

theorem WordRange.iterationHandout (launch : Nat) : WordRange.Statement (.iterationHandout launch) := by
  intro k w h; cases h

theorem WordRange.stepBoundary (launch : Nat) : WordRange.Statement (.stepBoundary launch) := by
  intro k w h; cases h

theorem WordRange.launchRetire (launch : Nat) : WordRange.Statement (.launchRetire launch) := by
  intro k w h; cases h

theorem WordRange.paddockEvaluate : WordRange.Statement .paddockEvaluate := by
  intro k w h; cases h

theorem WordRange.schedcfgWrite (v : Word) : WordRange.Statement (.schedcfgWrite v) := by
  intro k w h; cases h

theorem WordRange.reconstructPoint (launch n : Nat) : WordRange.Statement (.reconstructPoint launch n) := by
  intro k w h; cases h

theorem WordRange.auditCompare (launch n : Nat) : WordRange.Statement (.auditCompare launch n) := by
  intro k w h; cases h

theorem WordRange.dailiesUpdate (launch : Nat) : WordRange.Statement (.dailiesUpdate launch) := by
  intro k w h; cases h

theorem WordRange.drainMarker (die i : Nat) : WordRange.Statement (.drainMarker die i) := by
  intro k w h; cases h

theorem WordRange.drainComplete : WordRange.Statement .drainComplete := by
  intro k w h; cases h

theorem WordRange.migrationBlockCopy : WordRange.Statement .migrationBlockCopy := by
  intro k w h; cases h

theorem WordRange.memoryRead (i : Nat) (finding : Finding) : WordRange.Statement (.memoryRead i finding) := by
  intro k w h; cases h

theorem WordRange.memoryWrite (i : Nat) : WordRange.Statement (.memoryWrite i) := by
  intro k w h; cases h

theorem WordRange.memoryAtomic (i : Nat) (finding : Finding) : WordRange.Statement (.memoryAtomic i finding) := by
  intro k w h; cases h

theorem WordRange.regionAdvance : WordRange.Statement .regionAdvance := by
  intro k w h; cases h

theorem WordRange.migrationStart (v : Word) : WordRange.Statement (.migrationStart v) := by
  intro k w h; cases h

theorem WordRange.migrationResume : WordRange.Statement .migrationResume := by
  intro k w h; cases h

theorem WordRange.migstatRead : WordRange.Statement .migstatRead := by
  intro k w h; cases h

theorem WordRange.scrubRead (unit block : Nat) (finding : Finding) : WordRange.Statement (.scrubRead unit block finding) := by
  intro k w h; cases h

theorem WordRange.ecccntRead (u : Nat) : WordRange.Statement (.ecccntRead u) := by
  intro k w h; cases h

theorem WordRange.cxlPortDown (port : Nat) : WordRange.Statement (.cxlPortDown port) := by
  intro k w h; cases h

theorem WordRange.cxlPortRetrain (port : Nat) : WordRange.Statement (.cxlPortRetrain port) := by
  intro k w h; cases h

theorem WordRange.keyLoad (v : Word) : WordRange.Statement (.keyLoad v) := by
  intro k w h; cases h

theorem WordRange.keyEnable (v : Word) : WordRange.Statement (.keyEnable v) := by
  intro k w h; cases h

theorem WordRange.keyDisable (v : Word) : WordRange.Statement (.keyDisable v) := by
  intro k w h; cases h

theorem WordRange.reduce (i : Nat) : WordRange.Statement (.reduce i) := by
  intro k w h; cases h

theorem WordRange.barrierArrive (i : Nat) : WordRange.Statement (.barrierArrive i) := by
  intro k w h; cases h

theorem WordRange.slotTimeout (group k : Nat) : WordRange.Statement (.slotTimeout group k) := by
  intro k w h; cases h

theorem WordRange.reduceResultData (i : Nat) : WordRange.Statement (.reduceResultData i) := by
  intro k w h; cases h

theorem WordRange.statusPhaseSend (group k : Nat) : WordRange.Statement (.statusPhaseSend group k) := by
  intro k w h; cases h

theorem WordRange.reduceResultStatus (i : Nat) : WordRange.Statement (.reduceResultStatus i) := by
  intro k w h; cases h

theorem WordRange.resultWaitTimeout (group k : Nat) : WordRange.Statement (.resultWaitTimeout group k) := by
  intro k w h; cases h

theorem WordRange.barrierRelease (i : Nat) : WordRange.Statement (.barrierRelease i) := by
  intro k w h; cases h

theorem WordRange.groupValidWrite (group : Nat) (staged : Bool) (v : Word) : WordRange.Statement (.groupValidWrite group staged v) := by
  intro k w h; cases h

theorem WordRange.groupDelete (group : Nat) : WordRange.Statement (.groupDelete group) := by
  intro k w h; cases h

theorem WordRange.groupPropose (group : Nat) : WordRange.Statement (.groupPropose group) := by
  intro k w h; cases h

theorem WordRange.agreePrepare (i : Nat) : WordRange.Statement (.agreePrepare i) := by
  intro k w h; cases h

theorem WordRange.agreeReady (i : Nat) : WordRange.Statement (.agreeReady i) := by
  intro k w h; cases h

theorem WordRange.agreeCommit (i : Nat) : WordRange.Statement (.agreeCommit i) := by
  intro k w h; cases h

theorem WordRange.agreeAbort (i : Nat) : WordRange.Statement (.agreeAbort i) := by
  intro k w h; cases h

theorem WordRange.agreeInvalidStep (i : Nat) : WordRange.Statement (.agreeInvalidStep i) := by
  intro k w h; cases h

theorem WordRange.agreeDeadline (group : Nat) : WordRange.Statement (.agreeDeadline group) := by
  intro k w h; cases h

theorem WordRange.agreeCommitDone (group : Nat) : WordRange.Statement (.agreeCommitDone group) := by
  intro k w h; cases h

theorem WordRange.leaveComplete (group : Nat) : WordRange.Statement (.leaveComplete group) := by
  intro k w h; cases h

theorem WordRange.ringcfgWrite (ring : Nat) (v : Word) : WordRange.Statement (.ringcfgWrite ring v) := by
  intro k w h; cases h

theorem WordRange.queueEnable (q : Nat) (v : Word) : WordRange.Statement (.queueEnable q v) := by
  intro k w h; cases h

theorem WordRange.queueDisable (q : Nat) (v : Word) : WordRange.Statement (.queueDisable q v) := by
  intro k w h; cases h

theorem WordRange.queueResume (q : Nat) (v : Word) : WordRange.Statement (.queueResume q v) := by
  intro k w h; cases h

theorem WordRange.queueSkip (q : Nat) (v : Word) : WordRange.Statement (.queueSkip q v) := by
  intro k w h; cases h

theorem WordRange.queueDoorbell (func q : Nat) (x : BitVec 32) : WordRange.Statement (.queueDoorbell func q x) := by
  intro k w h; cases h

theorem WordRange.queueStatusRead (func q : Nat) : WordRange.Statement (.queueStatusRead func q) := by
  intro k w h; cases h

theorem WordRange.packetFetch (q : Nat) : WordRange.Statement (.packetFetch q) := by
  intro k w h; cases h

theorem WordRange.nop (q : Nat) : WordRange.Statement (.nop q) := by
  intro k w h; cases h

theorem WordRange.wait (q : Nat) : WordRange.Statement (.wait q) := by
  intro k w h; cases h

theorem WordRange.waitPoll (q : Nat) : WordRange.Statement (.waitPoll q) := by
  intro k w h; cases h

theorem WordRange.waitTimeout (q : Nat) : WordRange.Statement (.waitTimeout q) := by
  intro k w h; cases h

theorem WordRange.signal (q : Nat) : WordRange.Statement (.signal q) := by
  intro k w h; cases h

theorem WordRange.launch (q : Nat) : WordRange.Statement (.launch q) := by
  intro k w h; cases h

theorem WordRange.admitSlot (q : Nat) : WordRange.Statement (.admitSlot q) := by
  intro k w h; cases h

theorem WordRange.evict (q : Nat) : WordRange.Statement (.evict q) := by
  intro k w h; cases h

theorem WordRange.cancel (q : Nat) : WordRange.Statement (.cancel q) := by
  intro k w h; cases h

theorem WordRange.fetchFence (q : Nat) : WordRange.Statement (.fetchFence q) := by
  intro k w h; cases h

theorem WordRange.cpThreadRestart (q : Nat) : WordRange.Statement (.cpThreadRestart q) := by
  intro k w h; cases h

theorem WordRange.functionLevelReset (func : Nat) : WordRange.Statement (.functionLevelReset func) := by
  intro k w h; cases h

theorem WordRange.hotReset : WordRange.Statement .hotReset := by
  intro k w h; cases h

theorem WordRange.flrComplete (func : Nat) : WordRange.Statement (.flrComplete func) := by
  intro k w h; cases h

theorem WordRange.apertureRequest (r : HostReq) : WordRange.Statement (.apertureRequest r) := by
  intro k w h; cases h

theorem WordRange.pcieAtomicop (func : Nat) : WordRange.Statement (.pcieAtomicop func) := by
  intro k w h; cases h

theorem WordRange.aperctlWrite (func : Nat) (high : Bool) (v : Word) : WordRange.Statement (.aperctlWrite func high v) := by
  intro k w h; cases h

theorem WordRange.outboundRequestSend (i : Nat) : WordRange.Statement (.outboundRequestSend i) := by
  intro k w h; cases h

theorem WordRange.outboundCompletion (i : Nat) (c : Completion) : WordRange.Statement (.outboundCompletion i c) := by
  intro k w h; cases h

theorem WordRange.outboundReadTimeout (i : Nat) : WordRange.Statement (.outboundReadTimeout i) := by
  intro k w h; cases h

theorem WordRange.msixUnmask (func vector : Nat) : WordRange.Statement (.msixUnmask func vector) := by
  intro k w h; cases h

theorem WordRange.mgmtRegisterWrite (offset : Nat) (v : Word) : WordRange.Statement (.mgmtRegisterWrite offset v) := by
  intro k w h; cases h

theorem WordRange.ucieFlitReceive (m dir : Nat) (crcOk : Bool) : WordRange.Statement (.ucieFlitReceive m dir crcOk) := by
  intro k w h; cases h

theorem WordRange.ucieNak (m dir : Nat) : WordRange.Statement (.ucieNak m dir) := by
  intro k w h; cases h

theorem WordRange.ucieAcknowledgement (m dir : Nat) : WordRange.Statement (.ucieAcknowledgement m dir) := by
  intro k w h; cases h

theorem WordRange.moduleRetrainEnd (m : Nat) (failed0 failed1 : BitVec 64) : WordRange.Statement (.moduleRetrainEnd m failed0 failed1) := by
  intro k w h; cases h

theorem WordRange.crcRateRetrain (m dir : Nat) : WordRange.Statement (.crcRateRetrain m dir) := by
  intro k w h; cases h

theorem WordRange.internalMessageReceive (die i : Nat) : WordRange.Statement (.internalMessageReceive die i) := by
  intro k w h; cases h

theorem WordRange.d2dstatRetrain (m : Nat) : WordRange.Statement (.d2dstatRetrain m) := by
  intro k w h; cases h

theorem WordRange.d2dstatRead (m : Nat) : WordRange.Statement (.d2dstatRead m) := by
  intro k w h; cases h

theorem WordRange.streamMappingEpoch : WordRange.Statement .streamMappingEpoch := by
  intro k w h; cases h

theorem WordRange.flitTransmit (link dir : Nat) : WordRange.Statement (.flitTransmit link dir) := by
  intro k w h; cases h

theorem WordRange.permitcfgWrite (link : Nat) (v : Word) : WordRange.Statement (.permitcfgWrite link v) := by
  intro k w h; cases h

theorem WordRange.pwrlimitWrite (v : Word) : WordRange.Statement (.pwrlimitWrite v) := by
  intro k w h; cases h

theorem WordRange.pwrstretchWrite (v : Word) : WordRange.Statement (.pwrstretchWrite v) := by
  intro k w h; cases h

theorem WordRange.powerControllerTick (watts : Nat) : WordRange.Statement (.powerControllerTick watts) := by
  intro k w h; cases h

theorem WordRange.thermalThreshold (temps : List Nat) : WordRange.Statement (.thermalThreshold temps) := by
  intro k w h; cases h

theorem WordRange.droopDetect (die : Nat) : WordRange.Statement (.droopDetect die) := by
  intro k w h; cases h

theorem WordRange.droopHoldEnd : WordRange.Statement .droopHoldEnd := by
  intro k w h; cases h

theorem WordRange.thermalTrip (die : Nat) : WordRange.Statement (.thermalTrip die) := by
  intro k w h; cases h

theorem WordRange.telemetrySample (energy temps : List Nat) : WordRange.Statement (.telemetrySample energy temps) := by
  intro k w h; cases h

theorem WordRange.powerOnReset : WordRange.Statement .powerOnReset := by
  intro k w h; cases h

theorem WordRange.wakeStepReady (capacities : List Nat) : WordRange.Statement (.wakeStepReady capacities) := by
  intro k w h; cases h

theorem WordRange.wakeStepTimeout : WordRange.Statement .wakeStepTimeout := by
  intro k w h; cases h

theorem WordRange.rehearsalWave (launch : Nat) : WordRange.Statement (.rehearsalWave launch) := by
  intro k w h; cases h

theorem WordRange.actionCycle (launch : Nat) : WordRange.Statement (.actionCycle launch) := by
  intro k w h; cases h

theorem WordRange.mboxReadTelemetry : WordRange.Statement .mboxReadTelemetry := by
  intro k w h; cases h

theorem WordRange.mboxReadStatus : WordRange.Statement .mboxReadStatus := by
  intro k w h; cases h

theorem WordRange.mboxSetPowerLimit : WordRange.Statement .mboxSetPowerLimit := by
  intro k w h; cases h

theorem WordRange.mboxReadEventLog : WordRange.Statement .mboxReadEventLog := by
  intro k w h; cases h

theorem WordRange.mboxReadFwVersions : WordRange.Statement .mboxReadFwVersions := by
  intro k w h; cases h

theorem WordRange.mboxReadScreening : WordRange.Statement .mboxReadScreening := by
  intro k w h; cases h

theorem WordRange.mboxUnknownCommand : WordRange.Statement .mboxUnknownCommand := by
  intro k w h; cases h

theorem WordRange.coreRemoved (core : Nat) : WordRange.Statement (.coreRemoved core) := by
  intro k w h; cases h

theorem WordRange.foripFlitReceive (port : Nat) (flit : Flit) (trailer : BitVec 32) : WordRange.Statement (.foripFlitReceive port flit trailer) := by
  intro k w h; cases h

theorem WordRange.linkControlReceive (port : Nat) (flit : Flit) : WordRange.Statement (.linkControlReceive port flit) := by
  intro k w h; cases h

theorem WordRange.linkControlSend (port : Nat) : WordRange.Statement (.linkControlSend port) := by
  intro k w h; cases h

theorem WordRange.foripRateRetrain (port : Nat) : WordRange.Statement (.foripRateRetrain port) := by
  intro k w h; cases h

theorem WordRange.foripRetrainEnd (port : Nat) (lane0 lane1 : Bool) : WordRange.Statement (.foripRetrainEnd port lane0 lane1) := by
  intro k w h; cases h

theorem WordRange.fpstatRetrain (port : Nat) : WordRange.Statement (.fpstatRetrain port) := by
  intro k w h; cases h

theorem WordRange.fpstatRead (port : Nat) : WordRange.Statement (.fpstatRead port) := by
  intro k w h; cases h

theorem WordRange.portTrainComplete (port : Nat) : WordRange.Statement (.portTrainComplete port) := by
  intro k w h; cases h

theorem WordRange.portIdent (port peerPkg peerPort : Nat) : WordRange.Statement (.portIdent port peerPkg peerPort) := by
  intro k w h; cases h

theorem WordRange.fabcfgWrite (v : Word) : WordRange.Statement (.fabcfgWrite v) := by
  intro k w h; cases h

theorem WordRange.fwWriteSlot (v : Word) (readback : Bool) : WordRange.Statement (.fwWriteSlot v readback) := by
  intro k w h; cases h

theorem WordRange.fwVerifySlot (v : Word) : WordRange.Statement (.fwVerifySlot v) := by
  intro k w h; cases h

theorem WordRange.fwActivateSlot (v : Word) : WordRange.Statement (.fwActivateSlot v) := by
  intro k w h; cases h


end Sys2Proof.Laws
end

