-- ==== Sys2Proof/Laws/Rows.lean ====
section
/-!
SUPPORT. Elements of rows (R341) and the write-back of a predicated operation (R343, R344): what `lanes`, `ofElems` and
`State.vout` come to.
-/
namespace Sys2Proof.Machine
open Sys2Proof

/-- Element i of a row built from a list is the list's element i, cut to the element width. -/
theorem elem_ofElems (b : Nat) (l : List Nat) (i : Nat) (h : i < l.length) : elem b (ofElems b l) i = l[i] % 2 ^ b := by
  induction l generalizing i with
  | nil => simp at h
  | cons x t ih =>
    cases i with
    | zero => simp [elem, ofElems]
    | succ i =>
      have := ih i (by simpa using h)
      simp only [elem, ofElems, List.getElem_cons_succ] at *
      rw [← this, Nat.mul_succ, Nat.add_comm (b * i) b, Nat.pow_add, ← Nat.div_div_eq_div_mul,
        Nat.add_mul_div_left _ _ (Nat.two_pow_pos b), Nat.div_eq_of_lt (Nat.mod_lt _ (Nat.two_pow_pos b)), Nat.zero_add]

/-- A row built from n elements b bits wide lies below 2^(b × n). -/
theorem ofElems_lt (b : Nat) (l : List Nat) : ofElems b l < 2 ^ (b * l.length) := by
  induction l with
  | nil => simp [ofElems]
  | cons x t ih =>
    have h1 : x % 2 ^ b < 2 ^ b := Nat.mod_lt _ (Nat.two_pow_pos b)
    have h2 : 2 ^ b * (ofElems b t + 1) ≤ 2 ^ b * 2 ^ (b * t.length) := Nat.mul_le_mul_left _ ih
    simp only [ofElems, List.length_cons, Nat.mul_succ, Nat.add_comm (b * t.length) b, Nat.pow_add]
    rw [Nat.mul_succ] at h2
    omega

/-- A fold that gathers flags has a bit exactly when some member has it. -/
theorem testBit_gather {α : Type} (l : List α) (f : α → Nat) (a j : Nat) :
    (l.foldl (fun a p => a ||| f p) a).testBit j = (a.testBit j || l.any (fun p => (f p).testBit j)) := by
  induction l generalizing a with
  | nil => simp
  | cons x t ih => simp [ih, Bool.or_assoc]

/-- An element lies below 2^b. -/
theorem elem_lt (b v i : Nat) : elem b v i < 2 ^ b := Nat.mod_lt _ (Nat.two_pow_pos b)

/-- Each element of a predicated result is the operation's where its governing bit is 1 and the old one elsewhere, and its
flags are those of the governed elements. -/
theorem lanes_spec (b n m old : Nat) (f : Nat → Nat × Nat) (h : b * n ≤ 2048) :
    (∀ i, i < n → elem b (lanes b n m old f).1.toNat i = if m.testBit (i / (n / 64)) then (f i).1 % 2 ^ b else elem b old i) ∧
    (∀ j, (lanes b n m old f).2.testBit j = true ↔
      ∃ i, i < n ∧ m.testBit (i / (n / 64)) = true ∧ (f i).2.testBit j = true) := by
  constructor
  · intro i hi
    have hl := ofElems_lt b (((List.range n).map
      (fun i => if m.testBit (i / (n / 64)) then f i else (elem b old i, 0))).map (·.1))
    simp only [List.length_map, List.length_range] at hl
    have hlt := Nat.lt_of_lt_of_le hl (Nat.pow_le_pow_right (by decide : 0 < 2) h)
    simp only [lanes, BitVec.toNat_ofNat, Nat.mod_eq_of_lt hlt]
    rw [elem_ofElems _ _ _ (by simpa using hi)]
    simp only [List.getElem_map, List.getElem_range]
    split
    · rfl
    · exact Nat.mod_eq_of_lt (elem_lt b old i)
  · intro j
    simp only [lanes, testBit_gather]
    simp only [Nat.zero_testBit, Bool.false_or, List.any_eq_true, List.mem_map, List.mem_range]
    constructor
    · rintro ⟨p, ⟨i, hi, rfl⟩, hp⟩
      by_cases hm : m.testBit (i / (n / 64)) = true
      · exact ⟨i, hi, hm, by simpa [hm] using hp⟩
      · simp [hm] at hp
    · rintro ⟨i, hi, hm, hp⟩
      exact ⟨_, ⟨i, hi, rfl⟩, by simpa [hm] using hp⟩

end Sys2Proof.Machine
end

