-- ==== Sys2Proof/Machine/Assemble.lean ====
section
/-!
DEFINITION. The assembler (R410 to R421): expressions, slot placement, sections, data, launch records and shot lists. A
source line is a syntax tree; an expression may also be read from its text. No step of the machine uses this file.
-/
namespace Sys2Proof.Machine.Asm
open Sys2Proof Sys2Proof.Machine

/-! ### Expressions (R3, R10, R410) -/

/-- The binary operators of R410. -/
inductive BinOp where
  | mul | div | mod | add | sub | shl | shr | and | xor | or
  deriving DecidableEq, Repr

/-- The level at which an operator binds; 1 is the tightest, of unary operators. -/
def BinOp.level : BinOp → Nat
  | .mul | .div | .mod => 2
  | .add | .sub => 3
  | .shl | .shr => 4
  | .and => 5
  | .xor => 6
  | .or => 7

/-- An expression. -/
inductive Expr where
  | num (n : Nat)
  | sym (name : String)
  | neg (e : Expr)
  | comp (e : Expr)
  | bin (op : BinOp) (a b : Expr)
  deriving DecidableEq, Repr

/-- `~` on a two's-complement value. -/
def compl (x : Int) : Int := -x - 1

/-- `&` on two's-complement values of unbounded width. -/
def bitAnd : Int → Int → Int
  | .ofNat a, .ofNat b => ((a &&& b : Nat) : Int)
  | .ofNat a, .negSucc b => ((a ^^^ (a &&& b) : Nat) : Int)
  | .negSucc a, .ofNat b => ((b ^^^ (b &&& a) : Nat) : Int)
  | .negSucc a, .negSucc b => .negSucc (a ||| b)

/-- `|` on two's-complement values. -/
def bitOr (x y : Int) : Int := compl (bitAnd (compl x) (compl y))

/-- An operator on exact integers (R10): `div` truncates toward zero, `mod` takes the sign of the divisor, `>>` rounds
toward minus infinity. A division by zero and a negative shift have no value. -/
def BinOp.apply (op : BinOp) (x y : Int) : Option Int :=
  match op with
  | .mul => some (x * y)
  | .div => if y = 0 then none else some (x.tdiv y)
  | .mod => if y = 0 then none else some (x.fmod y)
  | .add => some (x + y)
  | .sub => some (x - y)
  | .shl => if y < 0 then none else some (x * ((2 ^ y.toNat : Nat) : Int))
  | .shr => if y < 0 then none else some (x.fdiv ((2 ^ y.toNat : Nat) : Int))
  | .and => some (bitAnd x y)
  | .xor => some (bitOr x y - bitAnd x y)
  | .or => some (bitOr x y)

/-- The values of symbols. -/
abbrev Env := List (String × Int)

/-- The value of an expression; none where a symbol is not defined or an operator has no value. -/
def Expr.eval (env : Env) : Expr → Option Int
  | .num n => some n
  | .sym x => (env.find? (fun p => p.1 == x)).map (·.2)
  | .neg e => (e.eval env).map (fun x => -x)
  | .comp e => (e.eval env).map compl
  | .bin op a b => (a.eval env).bind (fun x => (b.eval env).bind (fun y => op.apply x y))

/-- Tokens of an expression. -/
inductive Tok where
  | num (n : Nat)
  | sym (name : String)
  | op (o : BinOp)
  | tilde | lpar | rpar
  deriving DecidableEq, Repr

/-- The value of a digit. -/
def digit (c : Char) : Nat :=
  if c.isDigit then c.toNat - '0'.toNat
  else if 'a' ≤ c && c ≤ 'z' then c.toNat - 'a'.toNat + 10
  else if 'A' ≤ c && c ≤ 'Z' then c.toNat - 'A'.toNat + 10
  else 99

/-- Digits of a base, with `_` between any two of them (R410); `last` says that a digit came last. -/
def digits (base : Nat) : List Char → Bool → Nat → Option Nat
  | [], last, n => if last then some n else none
  | c :: r, last, n =>
    if c = '_' then (if last then digits base r false n else none)
    else if digit c < base then digits base r true (base * n + digit c) else none

/-- A number (R3). -/
def number : List Char → Option Nat
  | '0' :: 'x' :: r => digits 16 r false 0
  | '0' :: 'b' :: r => digits 2 r false 0
  | r => digits 10 r false 0

/-- A character that may stand in a symbol after its first. -/
def symChar (c : Char) : Bool := c.isAlpha || c.isDigit || c == '_' || c == '.'

/-- The names that R410 keeps from symbols: registers (R413) and slots. -/
def reservedNames : List String :=
  (List.range 64).map (fun n => "s" ++ toString n) ++ (List.range 64).map (fun n => "v" ++ toString n)
    ++ (List.range 8).map (fun n => "q" ++ toString n) ++ (List.range 16).map (fun n => "sc" ++ toString n)
    ++ ["S0", "S1", "V0", "V1", "V2", "X", "M0", "M1"]

/-- The mnemonics of the scalar class and of every slot. -/
def scalarNames : List String :=
  ["idle", "rep", "kmark", "hint", "add", "sub", "and", "or", "xor", "andn", "sll", "srl", "sra", "rol", "min", "max",
   "minn", "maxn", "cmp", "cmov", "mul", "mulh", "mulhn", "div", "divn", "rem", "remn", "clz", "ctz", "popc", "bfx",
   "bins", "brev", "addi", "andi", "ori", "xori", "slli", "srli", "srai", "slti", "sltni", "seqi", "movl", "movh", "ldl",
   "br", "loop", "call", "jr", "exit", "yield", "trap", "uret", "srd", "swr", "scopew", "winw", "winr", "inval"]

/-- The mnemonics of the vector class. -/
def vectorNames : List String :=
  ["vadd", "vsub", "vmul", "vfma", "vfms", "vmin", "vmax", "vabs", "vneg", "vadds", "vsubs", "vaddsn", "vand", "vor",
   "vxor", "vshl", "vshr", "vsra", "vshli", "vcmp", "vcvt", "vcvts", "vsel", "vmov", "vbcast", "vperm", "vtrans", "vrsum",
   "vcsum", "vrmax", "vcmax", "vrmin", "vcmin", "vshp", "vmovz", "vpfx", "qand", "qor", "qxor", "qnot", "vdq", "vmac",
   "vrot", "vsplat"]

/-- The mnemonics of the X and M classes, without their suffixes. -/
def engineNames : List String :=
  ["xexp2", "xlog2", "xrcp", "xrsqrt", "xsqrt", "xsin", "xcos", "xtanh", "xsigm", "xgelu", "xdiv", "mm", "mmacro", "accz",
   "rqr", "rap", "rrd", "rcl", "rang", "cp", "cpadv", "wmwait", "cpreset", "ld", "st", "ldt", "stt", "ldsc", "ldbf",
   "amo", "ldg", "stg", "ldff", "amog", "rst", "rld", "rred", "rfaa", "rmc", "clap", "fence", "bar", "fbar", "guard",
   "rmg", "tagw"]

/-- The formats of R240, in the order of their codes. -/
def fmtNames : List String := ["f32", "bf16", "f16", "e4m3", "e5m2", "i32", "i16", "i8", "n32", "n16", "n8"]

/-- A name begins with x, as those of the special functions do. -/
def startsX (m : String) : Bool := m.toList.head? == some 'x'

/-- The parts of a name between its dots; `part` holds the characters since the last one, newest first. -/
def dotParts : List Char → List Char → List String
  | [], part => [String.ofList part.reverse]
  | '.' :: r, part => String.ofList part.reverse :: dotParts r []
  | c :: r, part => dotParts r (c :: part)

/-- The suffixes that an operation outside format V takes (R299, R305, R349, R352): for each, the words that can stand there. -/
def suffixes (m : String) : List (List String) :=
  if m = "cmp" then [["eq", "ne", "lt", "ge", "ltn", "gen"]]
  else if m = "br" then [["z", "nz", "lt", "ge"]]
  else if m = "vcmp" then [["eq", "lt", "le", "ne", "ltn"], fmtNames.take 8]
  else if m = "vcvt" || m = "vcvts" then [fmtNames.take 8, fmtNames, ["rne", "rtz", "up", "down", "sr"]]
  else if m = "amo" || m = "amog" then [["add", "and", "or", "xor", "min", "max", "swap", "cas", "fadd", "cadd"]]
  else if m = "ldg" || m = "stg" then [["row", "word"]]
  else if m = "rred" then [fmtNames.take 6, ["tree", "arr"]]
  else if m = "rfaa" then [["i64", "i32"]]
  else if m = "bar" then [["init", "arr", "wait", "sync", "dep", "end"]]
  else if m = "guard" then [["set", "clr"]]
  else if m = "tagw" then [["full", "empty"]]
  else if m = "rqr" || m = "rap" then [["d"]]
  else if m = "rrd" || m = "rang" then []
  else if vectorNames.contains m || startsX m && engineNames.contains m then [fmtNames.take 8]
  else []

/-- The operations of format V, which also take .p and .l (R343). -/
def formatV (m : String) : Bool :=
  vectorNames.contains m || m == "rrd" || m == "rang" || startsX m && engineNames.contains m

/-- The suffixes written after a mnemonic are a beginning of those that it takes, with .p and .l at their end. -/
def suffixesOk (v : Bool) : List (List String) → List String → Bool
  | _, [] => true
  | ws, p :: r =>
    (match ws with
      | w :: t => w.contains p && suffixesOk v t r
      | [] => false)
    || (v && (p :: r == ["p"] || p :: r == ["l"] || p :: r == ["p", "l"]))

/-- Whether a name spells a mnemonic, alone or with suffixes that it takes. -/
def spellsMnemonic (x : String) : Bool :=
  match dotParts x.toList [] with
  | m :: r => (scalarNames ++ vectorNames ++ engineNames).contains m && suffixesOk (formatV m) (suffixes m) r
  | [] => false

/-- A name that a program may define (R410). -/
def symbolOk (x : String) : Bool :=
  (match x.toList with
    | [] => false
    | c :: r => (c.isAlpha || c == '_') && r.all symChar)
    && !reservedNames.contains x
    && !spellsMnemonic x

/-- The tokens of a text; a comment ends it (R410). `fuel` bounds their number. -/
def lex : Nat → List Char → Option (List Tok)
  | _, [] => some []
  | 0, _ => none
  | n + 1, c :: r =>
    let one (t : Tok) (r : List Char) : Option (List Tok) := (lex n r).map (fun l => t :: l)
    if c = ' ' || c = '\t' then lex n r
    else if c = ';' || (c = '/' && r.head? == some '/') then some []
    else if c.isDigit then
      let w := (c :: r).takeWhile (fun x => x.isAlpha || x.isDigit || x == '_')
      (number w).bind (fun v => one (.num v) ((c :: r).drop w.length))
    else if c.isAlpha || c = '_' then
      let w := (c :: r).takeWhile symChar
      let x := String.ofList w
      one (if x = "div" then .op .div else if x = "mod" then .op .mod else .sym x) ((c :: r).drop w.length)
    else if c = '<' && r.head? == some '<' then one (.op .shl) r.tail
    else if c = '>' && r.head? == some '>' then one (.op .shr) r.tail
    else if c = '+' then one (.op .add) r
    else if c = '-' then one (.op .sub) r
    else if c = '*' then one (.op .mul) r
    else if c = '&' then one (.op .and) r
    else if c = '^' then one (.op .xor) r
    else if c = '|' then one (.op .or) r
    else if c = '~' then one .tilde r
    else if c = '(' then one .lpar r
    else if c = ')' then one .rpar r
    else none

/-- An expression whose operators bind at `level` or tighter, read after `left` where that is given; binary operators of one
level associate to the left (R410). -/
def parse : Nat → Nat → Option Expr → List Tok → Option (Expr × List Tok)
  | 0, _, _, _ => none
  | n + 1, level, some e, ts =>
    match ts with
    | .op o :: r =>
      if o.level = level then (parse n (level - 1) none r).bind (fun p => parse n level (some (.bin o e p.1)) p.2)
      else some (e, ts)
    | _ => some (e, ts)
  | n + 1, level, none, ts =>
    if 1 < level then (parse n (level - 1) none ts).bind (fun p => parse n level (some p.1) p.2)
    else match ts with
      | .num v :: r => some (.num v, r)
      | .sym x :: r => some (.sym x, r)
      | .op .sub :: r => (parse n 1 none r).map (fun p => (.neg p.1, p.2))
      | .tilde :: r => (parse n 1 none r).map (fun p => (.comp p.1, p.2))
      | .lpar :: r => match parse n 7 none r with
        | some (e, .rpar :: r) => some (e, r)
        | _ => none
      | _ => none

/-- The expression that a text spells. -/
def readExpr (text : String) : Option Expr :=
  (lex (text.length + 1) text.toList).bind (fun ts =>
    match parse (8 * ts.length + 16) 7 none ts with
    | some (e, []) => some e
    | _ => none)

/-! ### Operations (R413 to R416) -/

/-- A field that an expression fills: its place, whether it is signed, what is added to the value, and whether the value is
relative to the bundle's own index (R414). -/
structure ImmField where
  lo : Nat
  width : Nat
  signed : Bool := false
  bias : Int := 0
  relative : Bool := false
  deriving DecidableEq, Repr

/-- The immediates of an operation's form, in written order (R298, R300, R304, R413, R414, R416). -/
def immFields : Instr → List ImmField
  | .rep .. => [{ lo := 18, width := 4, bias := -1 }, { lo := 16, width := 2 }, { lo := 14, width := 2 },
      { lo := 12, width := 2 }]
  | .hint .. => [{ lo := 0, width := 25 }]
  | .addi _ | .andi _ | .ori _ | .xori _ | .slti _ | .sltni _ | .seqi _ => [{ lo := 0, width := 12, signed := true }]
  | .slli _ | .srli _ | .srai _ => [{ lo := 0, width := 6 }]
  | .movl _ => [{ lo := 0, width := 19, signed := true }]
  | .movh _ => [{ lo := 0, width := 19 }]
  | .ldl .. => [{ lo := 0, width := 14 }]
  | .brCc .. | .loop .. => [{ lo := 0, width := 15, signed := true, relative := true }]
  | .call .. => [{ lo := 5, width := 14 }]
  | .trap _ | .srd .. | .swr .. => [{ lo := 0, width := 12 }]
  | .bfx .. | .bins .. => [{ lo := 0, width := 5, bias := -1 }]
  | .scopew .. => [{ lo := 19, width := 5 }]
  | .winw .. => [{ lo := 19, width := 4 }]
  | .winr .. => [{ lo := 0, width := 4 }, { lo := 4, width := 1 }]
  | .vshli _ | .vbcast _ | .vrot _ => [{ lo := 0, width := 7 }]
  | .vdq _ => [{ lo := 4, width := 3 }, { lo := 0, width := 4 }]
  | .vshp .. => [{ lo := 0, width := 3 }]
  | .accz _ => [{ lo := 8, width := 5 }]
  | .rang .. => [{ lo := 0, width := 1 }]
  | .ld _ | .st _ | .ldt _ | .stt _ | .ldsc .. => [{ lo := 0, width := 9 }]
  | .ldbf .. => [{ lo := 6, width := 3 }, { lo := 0, width := 6 }]
  | .rred .. => [{ lo := 4, width := 2 }]
  | .fence .. | .fbar .. => [{ lo := 19, width := 5 }]
  | .barInit .. | .barArr .. | .barWait .. | .barSync .. | .barDep .. | .barEnd .. => [{ lo := 19, width := 6 }]
  | _ => []

/-- The operations that take `due` (R302, R303). -/
def takesDue : Instr → Bool
  | .mm .. | .mmacro .. | .rqr .. | .rap .. | .rcl .. | .cp .. | .cpadv .. => true
  | _ => false

/-- R415: the smallest DE for which DM = ceil(D / 4^DE) is at most 255; none for a D of 0 or above 16,320. -/
def dueOffset (d : Nat) : Option Due :=
  if d = 0 || 16320 < d then none
  else ((List.range 4).find? (fun e => ceilDiv d (4 ^ e) ≤ 255)).map
    (fun e => ⟨BitVec.ofNat 2 e, BitVec.ofNat 8 (ceilDiv d (4 ^ e))⟩)

/-- The effective offset of a due field (R302). -/
def effectiveDue (d : Due) : Nat := d.dm.toNat * 4 ^ d.de.toNat

/-- A value in a field of some width; none where it does not fit (R410: nothing is truncated). -/
def fit (width : Nat) (sgn : Bool) (x : Int) : Option Nat :=
  let lo : Int := if sgn then -((2 ^ (width - 1) : Nat) : Int) else 0
  let hi : Int := if sgn then ((2 ^ (width - 1) : Nat) : Int) else ((2 ^ width : Nat) : Int)
  if lo ≤ x && x < hi then some (wrap width x) else none

/-- An operation as written: its slot prefix; the operation, whose own slot says only its class; the expressions of its
immediates, all of them or none, which stand in place of those fields of the operation; and its due offset, of which the
operation's own due field says nothing. -/
structure Op where
  slot : Option Slot
  i : Instr
  imm : List Expr := []
  due : Option Expr := none
  deriving DecidableEq, Repr

/-- A word with its immediates replaced by the values of expressions, one for each; none is an error. -/
def putImms (env : Env) (index : Nat) : List ImmField → List Expr → Nat → Option Nat
  | [], [], w => some w
  | f :: fs, e :: es, w => (e.eval env).bind (fun x =>
      (fit f.width f.signed (x + f.bias - if f.relative then (index : Int) else 0)).bind
        (fun v => putImms env index fs es (setField w (f.lo + f.width - 1) f.lo v)))
  | _, _, _ => none

/-- An operation that R295 refuses with H = 1 although its word decodes: a hint, which is written with H = 0 (R413). -/
def holdsHint : Instr → Bool
  | .hint _ h _ => h
  | _ => false

/-- The word of an operation in the bundle at an index; none is an error. Without `due`, DM and DE are 0 (R415). -/
def Op.word (env : Env) (index : Nat) (o : Op) : Option SlotWord :=
  if holdsHint o.i then none else
  (Encode.word o.i).bind (fun p =>
    let withImm : Option Nat := if o.imm.isEmpty then some p.2 else putImms env index (immFields o.i) o.imm p.2
    let withDue : Option Nat := match o.due with
      | none => withImm.map (fun w => if takesDue o.i then setField w 24 15 0 else w)
      | some e => if !takesDue o.i then none else withImm.bind (fun w => (e.eval env).bind (fun d =>
          if d < 0 then none else (dueOffset d.toNat).map
            (fun u => setField (setField w 24 23 u.de.toNat) 22 15 u.dm.toNat)))
    withDue.map (BitVec.ofNat 32))

/-- The slots of a class, lowest first (R288). -/
def classOf : Slot → List Slot
  | .s0 | .s1 => [.s0, .s1]
  | .v0 | .v1 | .v2 => [.v0, .v1, .v2]
  | .x => [.x]
  | .m0 | .m1 => [.m0, .m1]

/-- The slots that may issue a word of an operation (R288, R299, R305). -/
def Op.slots (o : Op) (w : SlotWord) : List Slot :=
  match o.i with
  | .rep .. | .kmark _ => Slot.all
  | .idle _ => []
  | i => ((i.slot?.map classOf).getD []).filter (fun k => match decodeSlot k w with | .ok _ => true | .bad _ => false)

/-- Whether an operation is a kmark. -/
def Op.isKmark (o : Op) : Bool := match o.i with | .kmark _ => true | _ => false
/-- Whether an operation is a rep. -/
def Op.isRep (o : Op) : Bool := match o.i with | .rep .. => true | _ => false

/-! ### Slot placement (R412) -/

/-- The words placed so far. -/
abbrev Placed := List (Slot × SlotWord)

/-- A word in a slot; none where the slot is taken. -/
def put (b : Placed) (k : Slot) (w : SlotWord) : Option Placed := if b.any (fun p => p.1 == k) then none else some ((k, w) :: b)

/-- A word in the first free slot of a list. -/
def putFirst (b : Placed) (ks : List Slot) (w : SlotWord) : Option Placed :=
  (ks.find? (fun k => !b.any (fun p => p.1 == k))).bind (fun k => put b k w)

/-- One pass of R412 over the operations of a bundle in written order. -/
def pass (f : Placed → Op × SlotWord → Option Placed) (b : Placed) (l : List (Op × SlotWord)) : Option Placed :=
  l.foldl (fun b p => b.bind (fun b => f b p)) (some b)

/-- Step 1: an operation with a prefix takes its slot, which must be able to issue it. -/
def placePrefixed (b : Placed) (p : Op × SlotWord) : Option Placed :=
  match p.1.slot with
  | some k => if (p.1.slots p.2).contains k then put b k p.2 else none
  | none => if p.1.isRep then none else some b

/-- Step 2: an operation that only slot 0, or only slot 7, may issue. -/
def placeOnly (b : Placed) (p : Op × SlotWord) : Option Placed :=
  match p.1.slot, p.1.slots p.2 with
  | none, [k] => if k = .x then some b else put b k p.2
  | _, _ => some b

/-- Step 3: any other operation takes the lowest free slot of its class. -/
def placeRest (b : Placed) (p : Op × SlotWord) : Option Placed :=
  match p.1.slot, p.1.slots p.2 with
  | some _, _ => some b
  | none, [k] => if k = .x then put b k p.2 else some b
  | none, ks => if p.1.isKmark then some b else putFirst b ks p.2

/-- Step 4: a kmark takes the highest free slot. -/
def placeKmark (b : Placed) (p : Op × SlotWord) : Option Placed :=
  match p.1.slot with
  | some _ => some b
  | none => if p.1.isKmark then putFirst b Slot.all.reverse p.2 else some b

/-- The bundle of a text line at an index (R411, R412): a slot that nothing takes holds the idle word. -/
def bundle (env : Env) (index : Nat) (ops : List Op) : Option Bundle :=
  let words := ops.map (fun o => (o.word env index).map (fun w => (o, w)))
  if words.any Option.isNone then none else
  let l := words.filterMap id
  ((((pass placePrefixed [] l).bind (fun b => pass placeOnly b l)).bind (fun b => pass placeRest b l)).bind
    (fun b => pass placeKmark b l)).map (fun b => b.foldl (fun x p => x ||| Bundle.single p.1 p.2) 0)

/-! ### Source lines (R417 to R420) -/

/-- A value of a floating data directive: a decimal value as a quotient of naturals with its sign. -/
inductive Decimal where
  | nan
  | inf (neg : Bool)
  | val (neg : Bool) (num den : Nat)
  deriving DecidableEq, Repr

/-- A line of a launch record (R419). `place` holds the cores and ranges of its list, a core as a range of one. -/
inductive RecLine where
  | field (name : String) (e : Expr)
  | level (l domain : Nat) (scope group : Expr)
  | dim (d : Nat) (first count stride : Expr)
  | dep (k : Nat) (queue lid : Expr)
  | place (ranges : List (Nat × Nat))
  deriving DecidableEq, Repr

/-- A line of a shot list (R420): its label; a kind with its fields, or a follow-on descriptor. `side` writes SRC or DST as
local(buf, offset). -/
inductive ShotField where
  | field (name : String) (e : Expr)
  | side (dst : Bool) (buf : Buf) (offset : Expr)
  deriving DecidableEq, Repr

/-- An entry of a shot list. -/
inductive ShotEntry where
  | kind (k : Nat) (fields : List ShotField)
  | followon (md0 md1 : Expr)
  deriving DecidableEq, Repr

/-- The sections (R417). -/
inductive Sect where
  | text | lit | data
  deriving DecidableEq, Repr

/-- What a source line holds after its label. -/
inductive Line where
  | none
  | bundle (ops : List Op)
  | idle (n : Expr)
  | sect (x : Sect)
  | imgbase (n : Expr)
  | litbase (n : Expr)
  | database (n : Expr)
  | equ (name : String) (e : Expr)
  | entry (label : String)
  | align (n : Expr)
  | image
  | litimage
  | ints (bytes : Nat) (values : List Expr)
  | floats (fmt : Nat) (values : List Decimal)
  | zero (n : Expr)
  | codebook (values : List Decimal)
  | codebookE2m1
  | sparse (n mrow : Expr)
  | dense
  | record (fields : List RecLine)
  | shot (entries : List (Option String × ShotEntry))
  | shotref (list : String)
  | preset (kind : Nat) (core : Option Expr) (index count : Expr)
  deriving DecidableEq, Repr

/-- A source line. -/
structure SrcLine where
  label : Option String
  line : Line
  deriving DecidableEq, Repr

/-! ### Data values (R418) -/

/-- The exact value of a decimal to far below every format's quantum, with a last bit that stands for what is left. -/
def Decimal.value (neg : Bool) (num den : Nat) : Val :=
  if num = 0 then .zero neg
  else .fin neg (2 * (num * 2 ^ 400 / den) + b2n (num * 2 ^ 400 % den != 0)) (-401)

/-- The code of a value in a floating format; none is an error. -/
def Decimal.code (f : Nat) : Decimal → Option Nat
  | .nan => some (qnan f)
  | .inf neg => if f = 3 then none else some (withSign f neg (infCode f))
  | .val neg num den =>
    if den = 0 then none
    else
      let (c, flags) := rne f (Decimal.value neg num den)
      if flags.testBit 2 then none else some c

/-- An integer of some bytes, little-endian: a natural or a two's-complement value that fits. -/
def intBytes (bytes : Nat) (x : Int) : Option (List Byte) :=
  (if 0 ≤ x then fit (8 * bytes) false x else fit (8 * bytes) true x).map (bytesOf bytes)

/-- All values of a list, or none where one is an error. -/
def all {α : Type} (l : List (Option α)) : Option (List α) :=
  l.foldr (fun x r => x.bind (fun x => r.map (fun r => x :: r))) (some [])

/-- The table of R254. -/
def e2m1 : List Nat :=
  [0x0000, 0x3F00, 0x3F80, 0x3FC0, 0x4000, 0x4040, 0x4080, 0x40C0,
   0x8000, 0xBF00, 0xBF80, 0xBFC0, 0xC000, 0xC040, 0xC080, 0xC0C0]

/-- A sparsity word (R267, R418). -/
def sparseWord (n mrow : Int) : Option Nat :=
  (fit 14 false mrow).bind (fun m =>
    if n = 0 then (if m = 0 then some 0 else none)
    else if n = 6 then some (4 * m + 1)
    else if n = 8 then some (4 * m + 2)
    else if n = 12 then some (4 * m + 3)
    else none)

/-! ### Launch records (R149, R419) -/

/-- What a record takes from the rest of the source. -/
structure Extent where
  imgBase : Nat
  imgLen : Nat
  entry : Option Int
  litBase : Nat
  litLen : Nat
  deriving DecidableEq, Repr

/-- The single fields of R149: name, word, bits. -/
def recordFields : List (String × Nat × Nat × Nat) :=
  [("FORMAT", 0, 7, 0), ("PRIO", 0, 10, 8), ("STANDING", 0, 11, 11), ("COMM", 0, 12, 12), ("REPRO", 0, 13, 13),
   ("NOPREEMPT", 0, 14, 14), ("FAULTPOL", 0, 15, 15), ("PENDCHK", 0, 16, 16), ("GUARDCHK", 0, 17, 17),
   ("DEPSTRICT", 0, 18, 18), ("DIST", 0, 19, 19), ("CTXPER", 0, 22, 20), ("NLEV", 0, 27, 24), ("NDIM", 0, 30, 28),
   ("MAXSLOT", 0, 44, 32), ("PCOUNT", 0, 53, 48), ("IMAGE", 1, 63, 0), ("IMGLEN", 2, 14, 0), ("IMGBASE", 2, 29, 16),
   ("ENTRY", 2, 45, 32), ("LITERAL", 3, 63, 0), ("LITLEN", 4, 14, 0), ("LITBASE", 4, 29, 16), ("SHOTBASE", 4, 41, 32),
   ("SHOTTAB", 5, 63, 0), ("PRESET", 6, 63, 0), ("NPRESET", 7, 15, 0), ("CHMASK", 7, 31, 16), ("SEED", 7, 63, 32),
   ("SAVE", 8, 63, 0), ("SCOPEIMG", 9, 63, 0), ("STEPADDR", 10, 63, 0), ("COVF", 48, 8, 0), ("PATTERN", 48, 12, 9),
   ("FMIN", 48, 21, 13), ("FMAX", 48, 30, 22), ("COVSTEP", 48, 39, 31), ("CI", 48, 42, 40), ("CJ", 48, 45, 43),
   ("CK", 48, 48, 46), ("UPD", 49, 15, 0), ("AUDIT", 49, 23, 16), ("ERRTGT", 49, 63, 32), ("OUTDESC", 50, 63, 0)]

/-- Fields set so far: the place of each, from bit 0 of word 0 up, and its value. -/
abbrev Sets := List ((Nat × Nat) × Nat)

/-- A field set once (R419: a field set twice is an error). -/
def setOnce (l : Sets) (word hi lo v : Nat) : Option Sets :=
  if l.any (fun p => p.1 == (64 * word + hi, 64 * word + lo)) then none
  else some (((64 * word + hi, 64 * word + lo), v) :: l)

/-- A field set to a value that fits it. -/
def setFit (l : Sets) (word hi lo : Nat) (sgn : Bool) (x : Option Int) : Option Sets :=
  x.bind (fun x => (fit (hi + 1 - lo) sgn x).bind (fun v => setOnce l word hi lo v))

/-- A field that takes a default where no line sets it; a default that does not fit it is an error. -/
def setDefault (l : Sets) (word hi lo : Nat) (v : Int) : Option Sets :=
  if l.any (fun p => p.1 == (64 * word + hi, 64 * word + lo)) then some l else setFit l word hi lo false (some v)

/-- What R149 asks of a field's value beyond its width, where no check of R150 or R172 does so in every record. -/
def rangeOk (name : String) (x : Int) : Bool :=
  if name = "COVF" then x ≤ 256 else if name = "OUTDESC" then x.fmod 64 == 0 else true

/-- One line of a record. -/
def recordLine (env : Env) (l : Sets) : RecLine → Option Sets
  | .field name e =>
    (recordFields.find? (fun p => p.1 == name)).bind (fun p => (e.eval env).bind (fun x =>
      if rangeOk name x then setFit l p.2.1 p.2.2.1 p.2.2.2 false (some x) else none))
  | .level k d sc g =>
    if 7 < k || 7 < d then none
    else ((setOnce l (16 + 2 * k) 3 0 d).bind (fun l => setFit l (16 + 2 * k) 8 4 false (sc.eval env))).bind
      (fun l => setFit l (16 + 2 * k) 20 9 false (g.eval env))
  | .dim d b c st =>
    if 5 < d then none
    else ((setFit l (32 + 2 * d) 63 0 true (b.eval env)).bind (fun l => setFit l (33 + 2 * d) 31 0 false (c.eval env))).bind
      (fun l => setFit l (33 + 2 * d) 63 32 true (st.eval env))
  | .dep k q lid =>
    if 3 < k then none
    else ((setFit l (11 + k) 31 0 false (lid.eval env)).bind (fun l => setFit l (11 + k) 36 32 false (q.eval env))).bind
      (fun l => setOnce l (11 + k) 37 37 1)
  | .place rs =>
    if rs.any (fun r => r.2 < r.1 || 319 < r.2) then none
    else (setOnce l 56 319 0 0).map (fun l => ((List.range 320).filter (fun c => rs.any (fun r => r.1 ≤ c && c ≤ r.2))).map
      (fun c => ((64 * 56 + c, 64 * 56 + c), 1)) ++ l)

/-- The number of `level` or `dim` lines. -/
def countLines (levels : Bool) (fields : List RecLine) : Nat :=
  fields.countP (fun f => match f with | .level .. => levels | .dim .. => !levels | _ => false)

/-- The lines of a block taken in order by f; a line that is an error is reported with its index (R421). -/
def lines {α β : Type} (f : β → α → Option β) : Nat → List α → β → Except (Option Nat) β
  | _, [], b => .ok b
  | k, a :: r, b => match f b a with
    | some b => lines f (k + 1) r b
    | none => .error (some k)

/-- The defaults of R419: word, bits and value. -/
def recordDefaults (x : Extent) (fields : List RecLine) : List (Nat × Nat × Nat × Int) :=
  [(0, 7, 0, 1), (0, 27, 24, countLines true fields), (0, 30, 28, countLines false fields), (2, 29, 16, x.imgBase),
   (2, 14, 0, x.imgLen), (2, 45, 32, (x.entry.map (fun (e : Int) => e - (x.imgBase : Int))).getD 0), (4, 29, 16, x.litBase),
   (4, 14, 0, x.litLen)]

/-- The fields of a record, the defaults among them. -/
def recordSets (env : Env) (x : Extent) (fields : List RecLine) : Except (Option Nat) Sets :=
  match lines (recordLine env) 0 fields [] with
  | .error k => .error k
  | .ok l => match (recordDefaults x fields).foldl (fun l d => l.bind (fun l => setDefault l d.1 d.2.1 d.2.2.1 d.2.2.2)) (some l) with
    | some l => .ok l
    | none => .error none

/-- The words of fields set to values. -/
def setWords (n : Nat) (l : Sets) : List Word :=
  (List.range n).map (fun k => BitVec.ofNat 64 ((l.filter (fun p => p.1.2 / 64 == k && p.1.1 / 64 == k)).foldl
    (fun w p => setField w (p.1.1 % 64) (p.1.2 % 64) p.2) 0))

/-- The checks of R150 and R172 that a record alone decides: every word, with the largest PADMAX that PCOUNT can hold. -/
def recordOk (ws : List Word) : Bool :=
  ((Launch.ofRecord 0 0 0 true ws 0 0 0 0).badWord 63 (List.range 64)).isNone

/-- The 512 bytes of a record, or the index of its line in error; none is an error of the record as a whole. -/
def recordBytes (env : Env) (x : Extent) (fields : List RecLine) : Except (Option Nat) (List Byte) :=
  match recordSets env x fields with
  | .error k => .error k
  | .ok l =>
    let ws := setWords 64 l
    if recordOk ws then .ok ((ws.map (fun w => bytesOf 8 w.toNat)).flatten) else .error none

/-! ### Shot lists, shot references and presets (R280, R420) -/

/-- The fields of R280: name, word, bits. -/
def shotFields : List (String × Nat × Nat × Nat) :=
  [("CH", 0, 7, 4), ("SLOC", 0, 8, 8), ("DLOC", 0, 9, 9), ("TAGFILL", 0, 10, 10), ("FOLLOW", 0, 11, 11),
   ("ISIDE", 0, 12, 12), ("STAGE", 0, 31, 16), ("SRC", 1, 63, 0), ("DST", 2, 63, 0), ("ROWS", 3, 15, 0),
   ("N1", 3, 31, 16), ("N2", 3, 47, 32), ("SS1", 4, 31, 0), ("DS1", 4, 63, 32), ("SS2", 5, 31, 0), ("DS2", 5, 63, 32),
   ("TABLE", 6, 56, 0), ("PADVAL", 7, 31, 0), ("FANSET", 7, 43, 32), ("MCAST", 7, 44, 44), ("TPP", 7, 63, 48)]

/-- One field of an entry of a kind: strides are signed, but for SS1 and SS2 of kind 5 (R280). -/
def shotFieldLine (env : Env) (kind : Nat) (l : Sets) : ShotField → Option Sets
  | .field name e =>
    let sgn := ["DS1", "DS2"].contains name || (["SS1", "SS2"].contains name && kind != 5)
    (shotFields.find? (fun p => p.1 == name)).bind (fun p => setFit l p.2.1 p.2.2.1 p.2.2.2 sgn (e.eval env))
  | .side dst b off =>
    (off.eval env).bind (fun o => (fit 22 false o).bind (fun o =>
      (setOnce l (1 + b2n dst) 63 0 (Encode.buf b * 2 ^ 22 + o)).bind (fun l => setOnce l 0 (8 + b2n dst) (8 + b2n dst) 1)))

/-- The 64 bytes of an entry. -/
def shotEntry (env : Env) : ShotEntry → Option (List Byte)
  | .kind k fields =>
    if 6 < k then none
    else (fields.foldl (fun l f => l.bind (fun l => shotFieldLine env k l f)) (setOnce [] 0 3 0 k)).map
      (fun l => ((setWords 8 l).map (fun w => bytesOf 8 w.toNat)).flatten)
  | .followon a b => (a.eval env).bind (fun a => (b.eval env).bind (fun b =>
      (intBytes 8 a).bind (fun a => (intBytes 8 b).map (fun b => bytesOf 8 15 ++ a ++ b ++ bytesOf 40 0))))

/-- The first entry with FOLLOW = 1 that no follow-on line follows, if any. -/
def unfollowed (env : Env) : Nat → List ShotEntry → Option Nat
  | _, [] => none
  | k, e :: r =>
    let follow := match e with
      | .kind _ fields => fields.any (fun f => match f with
        | .field name x => name == "FOLLOW" && x.eval env != some 0
        | .side .. => false)
      | .followon .. => false
    let next := match r with
      | .followon .. :: _ => true
      | _ => false
    if follow && !next then some k else unfollowed env (k + 1) r

/-- The bytes of a shot list, or the index of its line in error. -/
def shotBytes (env : Env) (l : List ShotEntry) : Except (Option Nat) (List Byte) :=
  match unfollowed env 0 l with
  | some k => .error (some k)
  | none => lines (fun b e => (shotEntry env e).map (fun x => b ++ x)) 0 l []

/-- The 16 bytes of a shot-table entry (R156): the list's address and its COUNT. -/
def shotrefBytes (address count : Int) : Option (List Byte) :=
  (fit 64 false address).bind (fun a => (fit 11 false count).map (fun c => bytesOf 8 a ++ bytesOf 8 c))

/-- The 8 bytes of a preset (R157): tagempty 0, tagfull 1 or barrier 2; without a core, every core. -/
def presetBytes (kind : Nat) (core : Option Int) (index count : Int) : Option (List Byte) :=
  if 2 < kind then none
  else (fit 9 false (core.getD 511)).bind (fun c => (fit 13 false index).bind (fun i => (fit 12 false count).map (fun n =>
    bytesOf 8 (kind + c * 2 ^ 3 + i * 2 ^ 12 + n * 2 ^ 25))))

/-! ### Layout: sections, location counters and symbols (R410, R417) -/

/-- What has been laid out: the current section, the location counters, the bases, the marks and the symbols. `lists` holds
the COUNT of each labelled shot list. `strict` is false while the lengths of the sections are only a guess: an expression
without a value then counts as 0, and no size is refused. -/
structure Layout where
  sect : Sect
  textBase : Nat
  litBase : Nat
  text : Nat
  lit : Nat
  loc : Nat
  textBased : Bool
  litBased : Bool
  imaged : Bool
  litimaged : Bool
  entry : Option String
  env : Env
  lists : List (String × Nat)
  strict : Bool
  deriving DecidableEq, Repr

/-- Before the first line; the text section is current. -/
def Layout.start (strict : Bool) (defs : Env) : Layout :=
  ⟨.text, 0, 0, 0, 0, 0, false, false, false, false, none, defs, [], strict⟩

/-- The location counter of the current section. -/
def Layout.here (y : Layout) : Nat :=
  match y.sect with
  | .text => y.textBase + y.text
  | .lit => y.litBase + y.lit
  | .data => y.loc

/-- The current section takes n units. -/
def Layout.advance (y : Layout) (n : Nat) : Layout :=
  match y.sect with
  | .text => { y with text := y.text + n }
  | .lit => { y with lit := y.lit + n }
  | .data => { y with loc := y.loc + n }

/-- A symbol defined (R410). -/
def Layout.define (y : Layout) (name : String) (x : Int) : Option Layout :=
  if symbolOk name && !y.env.any (fun p => p.1 == name) then some { y with env := (name, x) :: y.env } else none

/-- A value of an expression over the symbols defined so far. -/
def Layout.int (y : Layout) (e : Expr) : Option Int := (e.eval y.env).or (if y.strict then none else some 0)
/-- A natural value of an expression. -/
def Layout.nat (y : Layout) (e : Expr) : Option Nat :=
  (y.int e).bind (fun x => if x < 0 && y.strict then none else some x.toNat)

/-- Whether the current section takes a line (R417, R418). -/
def Line.allowed (l : Line) (x : Sect) : Bool :=
  match l with
  | .bundle _ | .idle _ => x == .text
  | .ints bytes _ => x == .data || (x == .lit && bytes == 4)
  | .floats f _ => x == .data || (x == .lit && f == 0)
  | .zero _ => x != .text
  | .sparse _ _ | .dense => x == .lit
  | .image | .litimage | .codebook _ | .codebookE2m1 | .record _ | .shot _ | .shotref _ | .preset .. => x == .data
  | _ => true

/-- The units to which a line aligns (R417, R419, R420). -/
def Layout.alignment (y : Layout) : Line → Option Nat
  | .align n => (y.nat n).bind (fun n => if n < 64 then some (2 ^ n) else if y.strict then none else some 1)
  | .image => some 32
  | .litimage => some 4
  | .record _ => some 256
  | .shot _ => some 64
  | _ => some 1

/-- The units that a line takes after its padding; t and n are the lengths of the text and of the literal section. -/
def Layout.units (y : Layout) (t n : Nat) : Line → Option Nat
  | .bundle _ => some 1
  | .idle e => (y.nat e).bind (fun k => if !y.strict || 1 ≤ k && k ≤ 16384 then some k else none)
  | .image => some (32 * t)
  | .litimage => some (4 * n)
  | .ints bytes l => some (if y.sect = .lit then l.length else bytes * l.length)
  | .floats f l => some (if y.sect = .lit then l.length else fmtBits f / 8 * l.length)
  | .zero e => y.nat e
  | .codebook l => if l.length = 16 then some 32 else none
  | .codebookE2m1 => some 32
  | .sparse _ _ | .dense => some 1
  | .record _ => some 512
  | .shot l => some (64 * l.length)
  | .shotref _ => some 16
  | .preset .. => some 8
  | _ => some 0

/-- What a directive does besides taking units. -/
def Layout.direct (y : Layout) : Line → Option Layout
  | .sect x => some { y with sect := x }
  | .imgbase e => if y.textBased || y.text != 0 then none else (y.nat e).map (fun b => { y with textBase := b, textBased := true })
  | .litbase e => if y.litBased || y.lit != 0 then none else (y.nat e).map (fun b => { y with litBase := b, litBased := true })
  | .database e => (y.nat e).map (fun b => { y with loc := b })
  | .equ name e => (y.int e).bind (fun x => y.define name x)
  | .entry x => if y.entry.isSome then none else some { y with entry := some x }
  | .image => if y.imaged then none else some { y with imaged := true }
  | .litimage => if y.litimaged then none else some { y with litimaged := true }
  | _ => some y

/-- The labels on the entries of a shot list defined, or the index of the line in error (R420). -/
def Layout.entries (y : Layout) : Line → Except (Option Nat) Layout
  | .shot l => lines (fun (y : Layout) p => match p.2.1 with
      | some x => y.define x p.1
      | none => some y) 0 ((List.range l.length).zip l) y
  | _ => .ok y

/-- The text and the literal section end within their memories (R417). -/
def Layout.inside (y : Layout) : Bool :=
  !y.strict || (y.textBase + y.text ≤ 16384 && y.litBase + y.lit ≤ 16384)

/-- The padding units before a line. -/
def Layout.padding (y : Layout) (a : Nat) : Nat := (a - y.here % a) % a

/-- A line's padding, label and directive; none is an error. -/
def Layout.enter (y : Layout) (s : SrcLine) : Option Layout :=
  if !s.line.allowed y.sect then none else
  (y.alignment s.line).bind (fun a =>
    let y := y.advance (y.padding a)
    let labelled : Option Layout := match s.label with
      | some x => (y.define x y.here).map (fun (y : Layout) => match s.line with
        | .shot l => { y with lists := (x, l.length) :: y.lists }
        | _ => y)
      | none => some y
    labelled.bind (fun y => y.direct s.line))

/-- One line laid out, or the index of the line of its block that is an error, none where it has no block. -/
def Layout.line (y : Layout) (t n : Nat) (s : SrcLine) : Except (Option Nat) Layout :=
  match y.enter s with
  | none => .error none
  | some y => match y.entries s.line with
    | .error j => .error j
    | .ok y => match (y.units t n s.line).map y.advance with
      | none => .error none
      | some y => if y.inside then .ok y else .error none

/-- An error and its line (R421): the index of the source line, and in a record or a shot list the index of the line of the
block. -/
structure SrcError where
  line : Nat
  inner : Option Nat
  deriving DecidableEq, Repr

/-- All lines laid out, or the first that is an error. -/
def layout (t n : Nat) : Nat → List SrcLine → Layout → Except SrcError Layout
  | _, [], y => .ok y
  | k, s :: r, y => match y.line t n s with
    | .ok y => layout t n (k + 1) r y
    | .error j => .error ⟨k, j⟩

/-! ### Output (R421) -/

/-- What assembly produces: the three sections with their bases; the data as runs of bytes at addresses. -/
structure Output where
  imgBase : Nat
  text : List Bundle
  litBase : Nat
  lits : List (BitVec 32)
  data : List (Nat × List Byte)
  deriving DecidableEq, Repr

/-- The bytes of a text section (R287): bundle j at byte 32j. -/
def imageBytes (l : List Bundle) : List Byte := (l.map (fun b => bytesOf 32 b.toNat)).flatten

/-- What a line puts into its section once every symbol is known: bundles, literal words or bytes as naturals of one unit
each. `final` is the layout of the whole source. -/
def emitLine (final y : Layout) (text : List Nat) (lits : List Nat) (l : Line) : Option (List Nat) :=
  let env := final.env
  let bytes (b : Option (List Byte)) : Option (List Nat) := b.map (fun b => b.map BitVec.toNat)
  match l with
  | .bundle ops => (bundle env y.here ops).map (fun b => [b.toNat])
  | .idle e => (y.nat e).map (fun n => List.replicate n 0)
  | .image => bytes (some ((text.map (bytesOf 32)).flatten))
  | .litimage => bytes (some ((lits.map (bytesOf 4)).flatten))
  | .ints n vs =>
    let vals := all (vs.map (fun e => (e.eval env).bind (intBytes n)))
    if y.sect = .lit then vals.map (fun l => l.map ofBytes) else bytes (vals.map List.flatten)
  | .floats f vs =>
    let vals := all (vs.map (Decimal.code f))
    if y.sect = .lit then vals else bytes (vals.map (fun l => (l.map (bytesOf (fmtBits f / 8))).flatten))
  | .zero e => (y.nat e).map (fun n => List.replicate n 0)
  | .codebook vs => bytes ((all (vs.map (Decimal.code 1))).map (fun l => (l.map (bytesOf 2)).flatten))
  | .codebookE2m1 => bytes (some ((e2m1.map (bytesOf 2)).flatten))
  | .sparse n m => (n.eval env).bind (fun n => (m.eval env).bind (fun m => (sparseWord n m).map (fun w => [w])))
  | .dense => some [0]
  | .entry x => ((Expr.sym x).eval env).map (fun _ => [])
  | .shotref x => ((final.lists.find? (fun p => p.1 == x)).bind (fun p => ((Expr.sym x).eval env).bind (fun a =>
      bytes (shotrefBytes a p.2))))
  | .preset k c i n => (i.eval env).bind (fun i => (n.eval env).bind (fun n => match c with
      | none => bytes (presetBytes k none i n)
      | some c => (c.eval env).bind (fun c => bytes (presetBytes k (some c) i n))))
  | _ => some []

/-- What a line puts into its section, or the index of the line of its block that is an error. -/
def emit (final y : Layout) (text : List Nat) (lits : List Nat) (l : Line) : Except (Option Nat) (List Nat) :=
  let env := final.env
  let bytes (b : Except (Option Nat) (List Byte)) : Except (Option Nat) (List Nat) := b.map (fun b => b.map BitVec.toNat)
  match l with
  | .record fields =>
    let entry := final.entry.bind (fun x => (Expr.sym x).eval env)
    bytes (recordBytes env ⟨final.textBase, final.text, entry, final.litBase, final.lit⟩ fields)
  | .shot l => bytes (shotBytes env (l.map (·.2)))
  | l => match emitLine final y text lits l with
    | some l => .ok l
    | none => .error none

/-- The units that the lines put into one section, each with its place, or the number of the first line in error. Padding is
idle bundles, zero words or zero bytes. -/
def contents (final : Layout) (x : Sect) (text lits : List Nat) :
    Nat → List SrcLine → Layout → Except SrcError (List (Nat × List Nat))
  | _, [], _ => .ok []
  | k, s :: r, y =>
    match y.line final.text final.lit s with
    | .error j => .error ⟨k, j⟩
    | .ok y' =>
      let rest := contents final x text lits (k + 1) r y'
      if y.sect = x then
        let pad := y.padding ((y.alignment s.line).getD 1)
        match emit final (y.advance pad) text lits s.line with
        | .error j => .error ⟨k, j⟩
        | .ok l =>
          let l := List.replicate pad 0 ++ l
          match rest with
          | .ok r => .ok (if l.isEmpty then r else (y.here, l) :: r)
          | .error e => .error e
      else rest

/-- The lengths of the text and of the literal section, which `.image` and `.litimage` need, found from a guess: layouts that
refuse no size, each with the lengths of the one before, until a length repeats or `fuel` ends. -/
def lengths (defs : Env) (src : List SrcLine) : Nat → Nat × Nat → Except SrcError (Nat × Nat)
  | 0, g => .ok g
  | fuel + 1, g => match layout g.1 g.2 0 src (Layout.start false defs) with
    | .error e => .error e
    | .ok y => if (y.text, y.lit) = g then .ok g else lengths defs src fuel (y.text, y.lit)

/-- R421: all three sections, or an error with its line. The symbols in `defs` are given from outside. Lengths that fit no
guess, since a section's length rests on its own image, are an error of the line of that image. -/
def assemble (defs : Env) (src : List SrcLine) : Except SrcError Output :=
  match lengths defs src (src.length + 2) (0, 0) with
  | .error e => .error e
  | .ok g =>
    match layout g.1 g.2 0 src (Layout.start true defs) with
    | .error e => .error e
    | .ok final =>
      if (final.text, final.lit) ≠ g then
        .error ⟨src.findIdx (fun s => s.line == .image || s.line == .litimage), none⟩
      else
        match contents final .text [] [] 0 src (Layout.start true defs) with
        | .error e => .error e
        | .ok text =>
          match contents final .lit [] [] 0 src (Layout.start true defs) with
          | .error e => .error e
          | .ok lits =>
            let t := (text.map (·.2)).flatten
            let n := (lits.map (·.2)).flatten
            match contents final .data t n 0 src (Layout.start true defs) with
            | .error e => .error e
            | .ok data => .ok ⟨final.textBase, t.map (BitVec.ofNat 256), final.litBase, n.map (BitVec.ofNat 32),
                data.map (fun p => (p.1, p.2.map (BitVec.ofNat 8)))⟩

/-- A data section as it lies in memory: address and byte pairs. -/
def Output.bytes (o : Output) : List (Nat × Byte) :=
  (o.data.map (fun p => ((List.range p.2.length).map (fun i => p.1 + i)).zip p.2)).flatten

end Sys2Proof.Machine.Asm
end

