-- ==== Sys2Proof/Machine/Reads.lean ====
section
/-!
DEFINITION. What a read of the management block returns (R8, R118). Such a read changes nothing but for the registers with
rc fields, whose reads are steps of their own (D2DSTAT_READ, FPSTAT_READ, MIGSTAT_READ, ECCCNT_READ); so it is a function of
the state and not a step.
-/
namespace Sys2Proof.Machine
open Sys2Proof

/-- Word w of a register of several words. -/
def word64 (x w : Nat) : Nat := field x (64 * w + 63) (64 * w)

/-- One bit at a place. -/
def bitAt (b : Bool) (i : Nat) : Nat := b2n b * 2 ^ i

/-! ### Firmware, power, links -/

/-- FWSTAT (R145). -/
def Firmware.statReg (f : Firmware) : Nat := bitAt f.err 4 + bitAt f.fallback 3 + f.active * 2 ^ 2 + f.run
/-- FWINFO (R145). -/
def Firmware.infoReg (f : Firmware) : Nat := f.version 1 * 2 ^ 32 + f.version 0
/-- PERMITCFG from the reserved counts by class (R25). -/
def permitReg (l : List Nat) : Nat := ofElems 8 l
/-- PERMITCFG of a link (R25). -/
def State.permitcfg (s : State) (link : Nat) : Nat :=
  if link < 240 then permitReg (s.mod link).permits
  else if 256 ≤ link ∧ link < 384 then permitReg (s.port (link - 256)).permits
  else 0
/-- FABCFG (R57). -/
def State.fabcfg (s : State) : Nat := s.mcwait * 2 ^ 40 + bitAt s.fab.enable 13 + s.pkgId

/-- The mailbox (R35): the request buffer, the response buffer and MBOXCTL. -/
def Mailbox.word (m : Mailbox) (o : Nat) : Nat :=
  if o < 0x100 then word64 m.req.toNat (o / 8)
  else if o < 0x200 then word64 m.rsp.toNat ((o - 0x100) / 8)
  else if o = 0x200 then m.ctl
  else 0

/-! ### Memory and translation -/

/-- MAPCTL (R91); ADVANCE reads 0, since an advance is accepted or refused at once. -/
def MemSys.mapctl (m : MemSys) : Nat := m.errEnt * 2 ^ 12 + bitAt m.err 7 + bitAt m.draining 4 + m.old * 2 ^ 2 + m.cur
/-- MIGCTL (R93); GO reads 0. -/
def MemSys.migctl (m : MemSys) : Nat := bitAt m.migErr 7 + bitAt m.migResume 6 + bitAt m.migActive 5 + m.migSel
/-- MIGSTAT (R93). -/
def MemSys.migstat (m : MemSys) : Nat := m.cursor * 2 ^ 32 + m.late * 2 ^ 16 + m.early
/-- ECCCNT of a unit (R99). -/
def MemSys.ecccnt (m : MemSys) (u : Nat) : Nat :=
  let (c, n) := Assoc.get m.ecc u (0, 0)
  c * 2 ^ 32 + n * 2 ^ 16
/-- INVCTL (R109); GO reads 0, since a request is queued at once. -/
def MemSys.invctl (m : MemSys) : Nat := (m.invCtl &&& 0xFFFF00FFFFFFFF08#64).toNat + bitAt m.invDone 1
/-- KEYCTL (R101); GO reads 0, since an operation is one step. -/
def MemSys.keyctl (m : MemSys) : Nat := m.keySrc * 2 ^ 12 + m.keySlotSel * 2 ^ 4 + bitAt m.keyErr 3 + m.keyOp * 2
/-- KEYSTAT (R101): bit 0 always reads 1. -/
def MemSys.keystat (m : MemSys) : Nat :=
  1 + (m.keys.map (fun p => if p.1 ≠ 0 ∧ p.2.enabled then 2 ^ p.1 else 0)).foldl (· + ·) 0

/-! ### Queues, apertures, scheduler -/

/-- SCHEDCFG (R170). -/
def Sched.cfg (c : Sched) : Nat := c.padLo * 2 ^ 32 + c.padHi * 2 ^ 24 + c.padMax * 2 ^ 16 + c.padMin * 2 ^ 8
/-- SCHEDSTAT (R170). -/
def State.schedstat (s : State) : Nat := s.waitComm * 2 ^ 32 + s.launches.length * 2 ^ 16 + s.sched.padN

/-! ### Fabric tables and MSI-X -/

/-- A register of the route table (R56): the staging copy at +0 to +16, the published LEN at +24. -/
def State.routeReg (s : State) (o : Nat) : Nat :=
  let k := o / 32
  if o % 32 = 24 then field (Assoc.get s.fab.routes k 0).toNat 194 192
  else word64 (Assoc.get s.fab.staging k 0).toNat (o % 32 / 8)

/-- A register of the group table (R65, R66): the control block and the input map. -/
def State.groupReg (s : State) (o : Nat) : Nat :=
  let h := s.half (o / 2048) (decide (1024 ≤ o % 2048))
  let a := o % 1024
  if a < 64 then word64 h.ctl.toNat (a / 8)
  else if a < 576 then
    ofElems 16 ((List.range 4).map (fun i => (Assoc.get h.map (4 * ((a - 64) / 8) + i) 0).toNat))
  else 0

/-- RINGCFG (R84) with FULLCNT as it stands. -/
def State.ringReg (s : State) (r : Nat) : Nat := setField (s.ringCfg r) 15 8 (s.ringFull r)

/-- The pending-bit array of the physical function (R126). -/
def Mgmt.pendingBits (m : Mgmt) : Nat := ((List.range 64).map (fun v => bitAt (m.vector 0 v).pending v)).foldl (· + ·) 0

/-! ### The whole map (R118) -/

/-- Offsets below 0x0007_0000. -/
def State.readLow (s : State) (o : Nat) : Nat :=
  if o = 0 then bitAt s.mgmt.clamp 1 + bitAt s.mgmt.cfgErr 0
  else if o = 8 then bitAt s.mgmt.smbWrite 0
  else if o = 0x100 then s.fw.op * 2 + b2n s.fw.work.isSome
  else if o = 0x108 then s.fw.src * 2 ^ 12
  else if o = 0x110 then s.fw.statReg
  else if o = 0x118 then s.fw.infoReg
  else if 0x10000 ≤ o && o < 0x10000 + 8 * 240 then (s.mod ((o - 0x10000) / 8)).stat
  else if 0x20000 ≤ o && o < 0x20000 + 8 * 384 then s.permitcfg ((o - 0x20000) / 8)
  else if o = 0x30000 then s.power.stretch
  else if o = 0x30008 then s.power.limit
  else if 0x40000 ≤ o && o < 0x40300 then s.mbox.word (o - 0x40000)
  else if 0x50000 ≤ o && o < 0x50000 + 8 * 5 then word64 s.coresAvail.toNat ((o - 0x50000) / 8)
  else if 0x60000 ≤ o && o < 0x60000 + 8 * 128 then s.fpstat ((o - 0x60000) / 8)
  else if o = 0x60800 then s.fabcfg
  else 0

/-- Offsets from 0x0007_0000 to 0x000F_FFFF. -/
def State.readMid (s : State) (o : Nat) : Nat :=
  if o < 0x70800 then word64 (Assoc.get s.mem.regions ((o - 0x70000) / 32) 0).toNat (o % 32 / 8)
  else if o = 0x71000 then s.mem.mapctl
  else if o = 0x71008 then s.mem.migctl
  else if o = 0x71010 then s.mem.migstat
  else if o = 0x71018 then s.mem.asidBase
  else if 0x72000 ≤ o && o < 0x72000 + 8 * 20 then s.mem.ecccnt ((o - 0x72000) / 8)
  else if o = 0x72100 then s.mem.scrub
  else if o = 0x78000 then s.mem.invAddr
  else if o = 0x78008 then s.mem.invctl
  else if o = 0x79000 then s.mem.keyctl
  else if 0x79020 ≤ o && o < 0x79040 then word64 s.mem.keystat ((o - 0x79020) / 8)
  else if 0x80000 ≤ o && o < 0x80000 + 64 * 32 then
    let q := s.queue ((o - 0x80000) / 64)
    if o % 64 = 0 then q.ctl else if o % 64 = 8 then q.base else 0
  else if 0x90000 ≤ o && o < 0x90000 + 16 * 64 then word64 (s.aperctl ((o - 0x90000) / 16)) (o % 16 / 8)
  else if o = 0xA0000 then s.sched.cfg
  else if o = 0xA0008 then s.schedstat
  else 0

/-- Offsets from 0x0100_0000. -/
def State.readHigh (s : State) (o : Nat) : Nat :=
  if o < 0x1000000 + 128 * 8192 then s.routeReg (o - 0x1000000)
  else if 0x1100000 ≤ o && o < 0x1100000 + 64 * 4096 then word64 (s.fanSet ((o - 0x1100000) / 64)) (o % 64 / 8)
  else if 0x1400000 ≤ o && o < 0x1400000 + 2048 * 4096 then s.groupReg (o - 0x1400000)
  else if 0x1C00000 ≤ o && o < 0x1C00000 + 8 * 16 then s.ringReg ((o - 0x1C00000) / 8)
  else if 0x1F00000 ≤ o && o < 0x1F00000 + 16 * 64 then
    let x := s.mgmt.vector 0 ((o - 0x1F00000) / 16)
    if o % 16 = 0 then x.addr.toNat else x.data.toNat
  else if o = 0x1F80000 then s.mgmt.pendingBits
  else 0

/-- The value that a 64-bit read of the management block at an offset returns; offsets not listed read as zero (R118). -/
def State.mgmtRead (s : State) (o : Nat) : Word :=
  BitVec.ofNat 64 (
    if o % 8 ≠ 0 then 0
    else if o < 0x70000 then s.readLow o
    else if o < 0x100000 then s.readMid o
    else if o < 0x1000000 then 0
    else if o < 0x2000000 then s.readHigh o
    else 0)

end Sys2Proof.Machine
end

