-- ==== Sys2Proof/Tests/Assembly.lean ====
section
/-!
SUPPORT. Tests of the assembler: the examples and tables of R254, R410, R412, R415, R418, R421 and R447.
-/
namespace Sys2Proof.Tests
open Sys2Proof Sys2Proof.Machine Sys2Proof.Machine.Asm
set_option Elab.async false

/-- A line without a label. -/
def ln (l : Line) : SrcLine := ⟨none, l⟩
/-- A line with a label. -/
def lb (x : String) (l : Line) : SrcLine := ⟨some x, l⟩
/-- An operation without prefix or expressions. -/
def op (i : Instr) : Op := { slot := none, i := i }
/-- A number. -/
def nm (n : Nat) : Expr := .num n

/-- The value of an expression's text. -/
def value (text : String) : Option Int := (readExpr text).bind (fun e => e.eval [("x", 5), ("start", 64)])

/-- Operators by level, from the left within one level, on exact integers; `_` between digits; comments (R410). -/
theorem test_asm_expressions : [value "10 - 3 - 2", value "2 + 3 * 4", value "-7 div 2", value "-7 mod 3", value "~x & 0xFF",
    value "1 << 2 + 1", value "6 ^ 3 | 8", value "(1 + 2) * x // three", value "0b101 ; five", value "0x4000_0000",
    value "-9 >> 1", value "start.x", value "1_", value "3 +"]
    = [some 5, some 14, some (-3), some 2, some 0xFA, some 8, some 13, some 15, some 5, some 0x40000000,
       some (-5), none, none, none] := by
  decide +kernel

/-- Names that a program may and may not define (R410). -/
theorem test_asm_symbols : ["start", "_a.b2", "s63", "add", "vadd.f32", "M1", "9x", "", "mm.loop", "bar.sync"].map symbolOk
    = [true, true, false, false, false, false, false, false, true, false] := by
  decide +kernel

/-- The table of R415, with 0 and 16,321, which are errors. -/
theorem test_asm_due : [24, 257, 400, 1168, 16320, 0, 16321].map
      (fun d => (dueOffset d).map (fun u => (u.de.toNat, u.dm.toNat, effectiveDue u)))
    = [some (0, 24, 24), some (1, 65, 260), some (1, 100, 400), some (2, 73, 1168), some (3, 255, 16320), none, none] := by
  decide +kernel

/-- Bundle 64 of the example of R421. -/
def line64 : List Op :=
  [{ slot := none, i := .movl ⟨.s0, false, 10, 0⟩, imm := [nm 3] }, op (.kmark .s0)]
/-- Bundle 65. -/
def line65 : List Op :=
  [{ slot := none, i := .addi ⟨.s0, false, 3, .reg 1, 0⟩, imm := [.neg (nm 4)] },
   op (.vfma ⟨.v0, true, .f32, false, false, 8, .reg 16, .reg 32⟩),
   { slot := none, i := .ld ⟨.m0, .a, 1, .reg 2, 0⟩, imm := [nm 3] }]
/-- Bundle 66: `rep 3, 0, 1, 1` with or without a prefix. -/
def line66 (k : Option Slot) : List Op := [{ slot := k, i := .rep .v0 0 0 1 1, imm := [nm 3, nm 0, nm 1, nm 1] }]

/-- The source of the example. -/
def example421 : List SrcLine :=
  [ln (.imgbase (nm 64)), ln (.sect .text), ln (.entry "start"), lb "start" (.bundle line64), ln (.bundle line65),
   ln (.bundle (line66 (some .v0))), ln (.bundle [op .exit]), ln (.sect .data), ln (.database (nm 0x40000000)),
   lb "img" .image,
   lb "rec" (.record [.field "PRIO" (nm 3), .field "CTXPER" (nm 1), .field "IMAGE" (.sym "img"),
     .level 0 2 (nm 0) (nm 0), .dim 0 (nm 0) (nm 2) (nm 1), .place [(40, 40)]])]

/-- What it assembles to. -/
def out421 : Option Output := match assemble [] example421 with
  | .ok o => some o
  | .error _ => none

/-- The words of its text section (R421). -/
theorem test_asm_text : out421.map (fun o => (o.imgBase, o.text.map (fun b => Slot.all.map (fun k => (b.word k).toNat))))
    = some (64, [[0x54500003, 0, 0, 0, 0, 0, 0, 0x00800000], [0x40181FFC, 0, 0x88020820, 0, 0, 0, 0x02010403, 0],
        [0, 0, 0x00485000, 0, 0, 0, 0, 0], [0x68000000, 0, 0, 0, 0, 0, 0, 0]]) := by
  decide +kernel

/-- The image lies at 0x4000_0000 and the record, after padding to 256, at 0x4000_0100: its words 0, 1, 2, 4, 16, 32, 33 and
56 (R149, R419, R421). -/
theorem test_asm_record : out421.map (fun o => (o.data.map (fun r => (r.1, r.2.length)),
      [0, 1, 2, 4, 16, 32, 33, 56].map (fun k => ofBytes ((((o.bytes.map (·.2)).drop (256 + 8 * k)).take 8)))))
    = some ([(0x40000000, 128), (0x40000080, 128 + 512)],
        [0x11100301, 0x40000000, 64 * 2 ^ 16 + 4, 0, 2, 0, 2 ^ 32 + 2, 2 ^ 40]) := by
  decide +kernel

/-- The first and last rows of the table of R421: a rep without a prefix, ldsc in M1, the second vector operation in V1, and
`due 257`. -/
theorem test_asm_placement :
    ((bundle [] 66 (line66 none)).isSome,
     (bundle [] 65 (line65 ++ [op (.ldsc .a 0 (.reg 2) 0)])).map (fun b => (b.word .m1).toNat / 2 ^ 25),
     (bundle [] 65 (line65 ++ [op (.vadd ⟨.v0, false, .f32, true, false, 3, .reg 4, .reg 5⟩)])).map
       (fun b => (b.word .v1).toNat / 2 ^ 25),
     (bundle [] 0 [{ slot := none, i := .mm ⟨0, 0⟩ (.reg 10) (.reg 11), due := some (nm 257) }]).map
       (fun b => ((b.word .x).toNat / 2 ^ 23 % 4, (b.word .x).toNat / 2 ^ 15 % 256)))
    = (false, some 5, some 1, some (1, 65)) := by
  decide +kernel

/-- A branch is relative to its own bundle and a call is absolute (R414); a value that does not fit is an error (R410). -/
theorem test_asm_targets :
    ((bundle [("t", 60)] 64 [{ slot := none, i := .brCc .always .zero 0, imm := [.sym "t"] }]).map
       (fun b => (b.word .s0).toNat % 2 ^ 15),
     (bundle [("t", 60)] 64 [{ slot := none, i := .call 1 0, imm := [.sym "t"] }]).map
       (fun b => (b.word .s0).toNat / 2 ^ 5 % 2 ^ 14),
     (bundle [] 64 [{ slot := none, i := .movl ⟨.s0, false, 1, 0⟩, imm := [nm 262144] }]).isSome)
    = (some (2 ^ 15 - 4), some 60, false) := by
  decide +kernel

/-- `.sparse 8, 40` (R418), and its errors. -/
theorem test_asm_sparse : [sparseWord 8 40, sparseWord 0 0, sparseWord 0 1, sparseWord 7 1] = [some 0xA2, some 0, none, none] := by
  decide +kernel

/-- Decimal values: 0.1, 65520 past f16, 464 and 465 at the end of e4m3, nan, and inf under e4m3 (R418). -/
theorem test_asm_decimals : [Decimal.code 0 (.val false 1 10), Decimal.code 1 (.val true 3 2), Decimal.code 2 (.val false 65520 1),
    Decimal.code 3 (.val false 464 1), Decimal.code 3 (.val false 465 1), Decimal.code 3 .nan, Decimal.code 3 (.inf false),
    Decimal.code 4 (.inf true)]
    = [some 0x3DCCCCCD, some 0xBFC0, none, some 0x7E, none, some 0x7F, none, some 0xFC] := by
  decide +kernel

/-- The data section of R447 from wdat on, with its shot list and shot reference: 19 bundles and one literal stand for the
text. -/
def example447 : List SrcLine :=
  [ln (.sect .text), ln (.idle (nm 19)), ln (.sect .lit), ln (.sparse (nm 8) (nm 4)), ln (.sect .data),
   ln (.database (nm 0x44000000)), lb "img" .image, lb "lits" .litimage, ln (.align (nm 8)), lb "wdat" (.zero (nm 2048)),
   lb "list" (.shot [(none, .kind 0 [.field "CH" (nm 2), .field "SRC" (.sym "wdat"), .side true .w (nm 0), .field "ROWS" (nm 8),
       .field "N1" (nm 1), .field "N2" (nm 1), .field "FOLLOW" (nm 1), .field "STAGE" (nm 1)]),
     (none, .followon (nm 0x0102D000C0000000) (nm 0xE018))]),
   lb "tab" (.shotref "list"), ln (.align (nm 8)), lb "res" (.zero (nm 256)), lb "rec" (.record
     [.field "CTXPER" (nm 1), .field "IMAGE" (.sym "img"), .field "LITERAL" (.sym "lits"), .field "SHOTTAB" (.sym "tab"),
      .field "CHMASK" (nm 4), .level 0 2 (nm 0) (nm 0), .dim 0 (.sym "res") (nm 1) (nm 0), .place [(9, 9)]])]

/-- The addresses of R447. -/
theorem test_asm_labels :
    (match layout 19 1 0 example447 (Layout.start true []) with
      | .ok y => ["lits", "wdat", "list", "tab", "res", "rec"].map (fun x => (Expr.sym x).eval y.env)
      | .error _ => [])
    = [0x44000260, 0x44000300, 0x44000B00, 0x44000B80, 0x44000C00, 0x44000D00].map some := by
  decide +kernel

/-- The shot list and the shot reference of R447: words 0 to 3 of the entry, words 0 to 2 of the follow-on, and the address
and COUNT. -/
theorem test_asm_shots :
    (match assemble [] example447 with
      | .ok o => ([0, 1, 2, 3, 8, 9, 10, 16, 17].map (fun k => ofBytes (((o.bytes.map (·.2)).drop (0xB00 + 8 * k)).take 8)))
      | .error _ => [])
    = [0x00010A20, 0x44000300, 0x00400000, 2 ^ 32 + 2 ^ 16 + 8, 15, 0x0102D000C0000000, 0xE018, 0x44000B00, 2] := by
  decide +kernel

/-- A preset for every core, and one of a kind that does not exist (R157, R420). -/
theorem test_asm_preset : (presetBytes 2 none 5 3).map ofBytes = some (2 + 511 * 8 + 5 * 4096 + 3 * 2 ^ 25)
    ∧ presetBytes 3 none 0 0 = none := by
  decide +kernel

/-- The line of the error, if there is one, with the line of its block. -/
def errorOf (src : List SrcLine) : Option (Nat × Option Nat) := match assemble [] src with
  | .ok _ => none
  | .error e => some (e.line, e.inner)

/-- Errors name the line (R421): a base after units, a second image, a shot entry without its follow-on. -/
theorem test_asm_errors :
    (errorOf [ln (.bundle []), ln (.imgbase (nm 4))], errorOf [ln (.sect .data), ln .image, ln .image],
     (errorOf [ln (.sect .data), ln (.shot [(none, .kind 0 [.field "FOLLOW" (nm 1)])])]).map (·.1))
    = (some (1, none), some (2, none), some 1) := by
  decide +kernel

end Sys2Proof.Tests
end

