-- ==== Sys2Proof/Tests/Slice0.lean ====
section
/-!
SUPPORT. Tests of the model: ill-formed terms that WellFormed refuses, words of every slot operation written out from the
spec's formats, and single operations and steps whose results the spec states.
-/
namespace Sys2Proof.Tests
open Sys2Proof Sys2Proof.Machine
set_option Elab.async false

/-! ### States for tests -/

/-- Context 0 of core 0 about to issue a bundle, changed by f. -/
def at0 (f : Context → Context) : State :=
  { (State.reset.withFetchWord 0 0).modCtx 0 0 f with issue := IssueRec.reset }

/-- The same with scalar registers set. -/
def withS (l : List (Nat × Word)) : State := at0 (fun t => { t with s := l.foldl (fun v p => vset v p.1 p.2) t.s })

/-- The same with vector registers set. -/
def withV (l : List (Nat × Row)) : State := at0 (fun t => { t with v := l.foldl (fun v p => vset v p.1 p.2) t.v })

/-- The state that an operation leaves. -/
def after (o : Res) : State :=
  match o with
  | .next t => t
  | _ => State.reset

/-- The result that an operation has sent: its destination, its latency after cycle 0 and its value. -/
def sent (o : Res) : Option (Dest × Nat × Row) := ((after o).cx.inflight.head?).map (fun r => (r.dest, r.lands, r.value))

/-- Element i, b bits wide, of the row that an operation has sent. -/
def lane (o : Res) (b i : Nat) : Option Nat := (sent o).map (fun r => elem b r.2.2.toNat i)

/-! ### WellFormed refuses -/

/-- Every term of a list is ill formed. -/
def refused (l : List Instr) : Bool := l.all (fun i => !i.wf)

/-- Scalar and system words in a slot that may not issue them, with H beside a latch or pop, or outside a limit. -/
theorem test_wf_scalar : refused [
    .add ⟨.v0, false, 1, .reg 2, .reg 3⟩, .add ⟨.s0, true, 1, .latch 2, .reg 3⟩, .cmpCc ⟨.x, false, 1, .reg 2, .reg 3⟩ .eq,
    .bfx ⟨.s1, true, 1, .reg 2, .pop⟩ 3, .clz ⟨.m0, false, 1, .reg 2⟩, .clz ⟨.s0, true, 1, .pop⟩,
    .addi ⟨.v2, false, 1, .reg 2, 3⟩, .addi ⟨.s0, true, 1, .latch 0, 3⟩, .slli ⟨.m1, false, 1, .reg 2, 3⟩,
    .slli ⟨.s1, true, 1, .pop, 3⟩, .movl ⟨.v0, false, 1, 2⟩, .ldl .x false 1 2, .hint .m0 false 0, .winr .v1 1 2 false,
    .brCc .always (.reg 1) 0, .trap 0x20, .srd .v0 1 0x001, .srd .s0 1 0x009, .swr (.reg 1) 0x005] = true := by
  decide +kernel

/-- Vector words outside V0 to V2, with H beside a latch or pop, or with a format or immediate outside its row. -/
theorem test_wf_vector : refused [
    .vadd ⟨.x, false, .f32, false, false, 1, .reg 2, .reg 3⟩, .vadd ⟨.v0, true, .f32, false, false, 1, .pop, .reg 3⟩,
    .vfma ⟨.v0, false, .i32, false, false, 1, .reg 2, .reg 3⟩, .vsel ⟨.v0, false, .f32, false, false, 1, .reg 2, .reg 3⟩,
    .vadds ⟨.v0, false, .f32, false, false, 1, .reg 2, .reg 3⟩, .vand ⟨.v0, false, .i16, false, false, 1, .reg 2, .reg 3⟩,
    .vabs ⟨.m0, false, .f32, false, false, 1, .reg 2⟩, .vmov ⟨.v0, true, .f32, false, false, 1, .latch 2⟩,
    .vshli ⟨.v0, false, .i32, false, false, 1, .reg 2, 32⟩, .vshli ⟨.v0, false, .f32, false, false, 1, .reg 2, 3⟩,
    .vbcast ⟨.v0, false, .f32, false, false, 1, .reg 2, 64⟩, .vrot ⟨.v0, false, .i8, false, false, 1, .reg 2, 64⟩,
    .vdq ⟨.v0, false, .f16, false, false, 1, .reg 2, 3⟩, .vcmpEq ⟨.s0, false, .f32, false, false, 1, .reg 2, .reg 3⟩,
    .vcmpLtn ⟨.v0, false, .f32, false, false, 1, .reg 2, .reg 3⟩, .vcvt ⟨.v0, false, .f32, false, false, 1, .reg 2, 11, .rne⟩,
    .vcvt ⟨.x, false, .f32, false, false, 1, .reg 2, 1, .rne⟩, .vshp .v0 false 7, .vshp .x false 2,
    .vpfx .v0 true false false 1 .pop, .vpfx .m0 false false false 1 (.reg 2), .qand ⟨.s0, false, false, 1, 2, 3⟩,
    .qnot .x false false 1 2] = true := by
  decide +kernel

/-- X and M words outside their slots or limits. -/
theorem test_wf_engine : refused [
    .xexp2 ⟨.v0, false, .f32, false, false, 1, .reg 2⟩, .xexp2 ⟨.x, false, .e4m3, false, false, 1, .reg 2⟩,
    .xexp2 ⟨.x, true, .f32, false, false, 1, .pop⟩, .xdiv ⟨.x, false, .i32, false, false, 1, .reg 2, .reg 3⟩,
    .mm ⟨1, 0⟩ (.reg 1) (.reg 2), .mmacro ⟨0, 1⟩ 63 (.reg 2), .rap ⟨0, 1⟩ false 63 (.reg 2), .rcl ⟨2, 0⟩, .cp ⟨3, 0⟩ (.reg 1),
    .rrd true false false 1 .pop, .rang true false false 1 (.latch 3) false, .ld ⟨.s0, .a, 1, .reg 2, 3⟩,
    .st ⟨.x, .a, .reg 1, .reg 2, 3⟩, .amoOp .v0 .add 1 (.reg 2) (.reg 3), .clap .s0, .barArr .x 1,
    .rred .m0 1 (.reg 2) 6 false 0, .rred .m0 62 (.reg 2) 0 false 2, .rred .v0 1 (.reg 2) 0 false 0] = true := by
  decide +kernel

/-! ### Decoding -/

/-- Every word of a list decodes in its slot to its operation. -/
def decodes (l : List (Slot × SlotWord × Instr)) : Bool := l.all (fun p => decodeSlot p.1 p.2.1 == .ok p.2.2)

/-- Words of the scalar words (R299), written out field by field. -/
theorem test_decode_scalar_1 : decodes [
    (.s0, 0x022C9900, .add ⟨.s0, false, 5, .zero, .pop⟩),
    (.s1, 0x0480A1C0, .sub ⟨.s1, false, 16, (.reg 10), (.reg 14)⟩),
    (.s0, 0x86D91360, .and ⟨.s0, true, 27, (.reg 17), (.reg 27)⟩),
    (.s1, 0x89349500, .or ⟨.s1, true, 38, .zero, (.reg 40)⟩),
    (.s0, 0x0B89F900, .xor ⟨.s0, false, 49, (.reg 31), .pop⟩),
    (.s1, 0x0DE26040, .andn ⟨.s1, false, 60, (.reg 38), (.reg 2)⟩),
    (.s0, 0x8E3C91E0, .sll ⟨.s0, true, 7, .zero, (.reg 15)⟩),
    (.s1, 0x90934380, .srl ⟨.s1, true, 18, (.reg 52), (.reg 28)⟩),
    (.s0, 0x12EBB900, .sra ⟨.s0, false, 29, (.reg 59), .pop⟩),
    (.s1, 0x154496C0, .rol ⟨.s1, false, 40, .zero, (.reg 54)⟩),
    (.s0, 0x97989060, .min ⟨.s0, true, 51, (.reg 9), (.reg 3)⟩),
    (.s1, 0x99F10200, .max ⟨.s1, true, 62, (.reg 16), (.reg 16)⟩),
    (.s0, 0x1A4C9900, .minn ⟨.s0, false, 9, .zero, .pop⟩),
    (.s1, 0x1CA1E540, .maxn ⟨.s1, false, 20, (.reg 30), (.reg 42)⟩),
    (.s1, 0x1FE42120, .cmpCc ⟨.s1, false, 60, (.latch 2), (.reg 9)⟩ .eq),
    (.s1, 0x1FDC2121, .cmpCc ⟨.s1, false, 59, (.latch 2), (.reg 9)⟩ .ne),
    (.s1, 0x1FD42122, .cmpCc ⟨.s1, false, 58, (.latch 2), (.reg 9)⟩ .lt),
    (.s1, 0x1FCC2123, .cmpCc ⟨.s1, false, 57, (.latch 2), (.reg 9)⟩ .ge),
    (.s1, 0x1FC42124, .cmpCc ⟨.s1, false, 56, (.latch 2), (.reg 9)⟩ .ltn),
    (.s1, 0x1FBC2125, .cmpCc ⟨.s1, false, 55, (.latch 2), (.reg 9)⟩ .gen),
    (.s0, 0x2122E240, .cmov ⟨.s0, false, 36, (.reg 46), (.reg 18)⟩),
    (.s0, 0xA32AF260, .mul ⟨.s0, true, 37, (.reg 47), (.reg 19)⟩),
    (.s0, 0x25330280, .mulh ⟨.s0, false, 38, (.reg 48), (.reg 20)⟩),
    (.s0, 0xA73B12A0, .mulhn ⟨.s0, true, 39, (.reg 49), (.reg 21)⟩)] = true := by
  decide +kernel

/-- Words of the scalar words (R299), written out field by field. -/
theorem test_decode_scalar_2 : decodes [
    (.s0, 0x294322C0, .div ⟨.s0, false, 40, (.reg 50), (.reg 22)⟩),
    (.s0, 0xAB4B32E0, .divn ⟨.s0, true, 41, (.reg 51), (.reg 23)⟩),
    (.s0, 0x2D534300, .rem ⟨.s0, false, 42, (.reg 52), (.reg 24)⟩),
    (.s0, 0xAF5B5320, .remn ⟨.s0, true, 43, (.reg 53), (.reg 25)⟩),
    (.s1, 0x30C47920, .clz ⟨.s1, false, 24, (.latch 7)⟩),
    (.s1, 0x32CC7920, .ctz ⟨.s1, false, 25, (.latch 7)⟩),
    (.s1, 0x34D47920, .popc ⟨.s1, false, 26, (.latch 7)⟩),
    (.s1, 0x3AEC7920, .brev ⟨.s1, false, 29, (.latch 7)⟩),
    (.s0, 0x36D860FF, .bfx ⟨.s0, false, 27, (.reg 6), (.reg 7)⟩ 31),
    (.s0, 0x38E060FF, .bins ⟨.s0, false, 28, (.reg 6), (.reg 7)⟩ 31),
    (.s0, 0x41001FFC, .addi ⟨.s0, false, 32, (.reg 1), 0xFFC⟩),
    (.s0, 0x43081FFC, .andi ⟨.s0, false, 33, (.reg 1), 0xFFC⟩),
    (.s0, 0x45101FFC, .ori ⟨.s0, false, 34, (.reg 1), 0xFFC⟩),
    (.s0, 0x47181FFC, .xori ⟨.s0, false, 35, (.reg 1), 0xFFC⟩),
    (.s0, 0x4F381FFC, .slti ⟨.s0, false, 39, (.reg 1), 0xFFC⟩),
    (.s0, 0x51401FFC, .sltni ⟨.s0, false, 40, (.reg 1), 0xFFC⟩),
    (.s0, 0x53481FFC, .seqi ⟨.s0, false, 41, (.reg 1), 0xFFC⟩),
    (.s1, 0xC923F03F, .slli ⟨.s1, true, 36, (.reg 63), 63⟩),
    (.s1, 0xCB2BF03F, .srli ⟨.s1, true, 37, (.reg 63), 63⟩),
    (.s1, 0xCD33F03F, .srai ⟨.s1, true, 38, (.reg 63), 63⟩),
    (.s0, 0x54540001, .movl ⟨.s0, false, 10, 0x40001⟩),
    (.s0, 0x56540001, .movh ⟨.s0, false, 10, 0x40001⟩),
    (.s1, 0xD9082001, .ldl .s1 true 33 0x2001)] = true := by
  decide +kernel

/-- Words of control, system and no-operation words (R293, R299), written out field by field. -/
theorem test_decode_control : decodes [
    (.s0, 0x6024C003, .brCc .always .zero 0x4003),
    (.s0, 0x604AC003, .brCc .z (.reg 21) 0x4003),
    (.s0, 0x608B4003, .brCc .nz (.reg 22) 0x4003),
    (.s0, 0x60CBC003, .brCc .lt (.reg 23) 0x4003),
    (.s0, 0x610C4003, .brCc .ge (.reg 24) 0x4003),
    (.s0, 0x62057FFF, .loop 10 0x7FFF),
    (.s0, 0x65FC2200, .call 63 0x2110),
    (.s0, 0x66048920, .jr .pop),
    (.s0, 0x68000000, .exit),
    (.s0, 0x6A000000, .yield),
    (.s0, 0x6C049075, .trap 0x75),
    (.s0, 0x6E000000, .uret),
    (.s1, 0x70AC908F, .srd .s1 21 0x8F),
    (.s0, 0x72011050, .swr (.reg 17) 0x50),
    (.s0, 0x74FA8920, .scopew 31 (.reg 40)),
    (.s0, 0x76782060, .winw 15 (.reg 2) (.reg 3)),
    (.s1, 0x79649939, .winr .s1 44 9 true),
    (.s0, 0x7A002920, .inval (.reg 2) .zero),
    (.s1, 0xFD555555, .hint .s1 true 0x1555555),
    (.m1, 0x00000000, .idle .m1),
    (.x, 0x00800000, .kmark .x),
    (.v0, 0x00485000, .rep .v0 2 0 1 1),
    (.m0, 0x007F9000, .rep .m0 15 3 2 1)] = true := by
  decide +kernel

/-- Words of the vector words (R301), written out field by field. -/
theorem test_decode_vector_1 : decodes [
    (.v0, 0x03CFCF48, .vadd ⟨.v0, false, .i8, false, false, 63, (.reg 30), .pop⟩),
    (.v1, 0x844F8F83, .vsub ⟨.v1, true, .bf16, false, false, 62, (.reg 31), (.reg 3)⟩),
    (.v2, 0x06AF5049, .vmul ⟨.v2, false, .f16, true, false, 61, (.reg 32), .zero⟩),
    (.v0, 0x892F1089, .vfma ⟨.v0, true, .e5m2, true, false, 60, (.reg 33), (.reg 9)⟩),
    (.v1, 0x0ADED141, .vfms ⟨.v1, false, .e4m3, false, true, 59, (.reg 34), (.latch 1)⟩),
    (.v2, 0x8D9E918F, .vmin ⟨.v2, true, .i16, false, true, 58, (.reg 35), (.reg 15)⟩),
    (.v0, 0x0E3E5248, .vmax ⟨.v0, false, .f32, true, true, 57, (.reg 36), .pop⟩),
    (.v1, 0x957E1295, .vadds ⟨.v1, true, .i32, true, true, 56, (.reg 37), (.reg 21)⟩),
    (.v2, 0x178DD349, .vsubs ⟨.v2, false, .i16, false, false, 55, (.reg 38), .zero⟩),
    (.v0, 0x99CD939B, .vaddsn ⟨.v0, true, .i8, false, false, 54, (.reg 39), (.reg 27)⟩),
    (.v1, 0x1B6D5441, .vand ⟨.v1, false, .i32, true, false, 53, (.reg 40), (.latch 1)⟩),
    (.v2, 0x9D6D14A1, .vor ⟨.v2, true, .i32, true, false, 52, (.reg 41), (.reg 33)⟩),
    (.v0, 0x1F5CD548, .vxor ⟨.v0, false, .i32, false, true, 51, (.reg 42), .pop⟩),
    (.v1, 0xA15C95A7, .vshl ⟨.v1, true, .i32, false, true, 50, (.reg 43), (.reg 39)⟩),
    (.v2, 0x23BC5649, .vshr ⟨.v2, false, .i16, true, true, 49, (.reg 44), .zero⟩),
    (.v0, 0xA5FC16AD, .vsra ⟨.v0, true, .i8, true, true, 48, (.reg 45), (.reg 45)⟩),
    (.v1, 0x366BD741, .vsel ⟨.v1, false, .bf16, true, false, 47, (.reg 46), (.latch 1)⟩),
    (.v2, 0xBDCB97B3, .vperm ⟨.v2, true, .i8, false, false, 46, (.reg 47), (.reg 51)⟩),
    (.v0, 0x61AB5848, .vmac ⟨.v0, false, .i16, true, false, 45, (.reg 48), .pop⟩),
    (.v0, 0x91C510C9, .vabs ⟨.v0, true, .i8, false, false, 20, (.reg 33)⟩),
    (.v1, 0x12455149, .vneg ⟨.v1, false, .bf16, false, false, 21, (.reg 34)⟩),
    (.v2, 0xB8A591C9, .vmov ⟨.v2, true, .f16, true, false, 22, (.reg 35)⟩),
    (.v0, 0x3EE5D249, .vtrans ⟨.v0, false, .e4m3, true, false, 23, (.reg 36)⟩),
    (.v1, 0xC11612C9, .vrsum ⟨.v1, true, .e5m2, false, true, 24, (.reg 37)⟩)] = true := by
  decide +kernel

/-- Words of the vector words (R301), written out field by field. -/
theorem test_decode_vector_2 : decodes [
    (.v2, 0x43565349, .vcsum ⟨.v2, false, .i32, false, true, 25, (.reg 38)⟩),
    (.v0, 0xC5B693C9, .vrmax ⟨.v0, true, .i16, true, true, 26, (.reg 39)⟩),
    (.v1, 0x47F6D449, .vcmax ⟨.v1, false, .i8, true, true, 27, (.reg 40)⟩),
    (.v2, 0xC80714C9, .vrmin ⟨.v2, true, .f32, false, false, 28, (.reg 41)⟩),
    (.v0, 0x4A475549, .vcmin ⟨.v0, false, .bf16, false, false, 29, (.reg 42)⟩),
    (.v1, 0xCEA795C9, .vmovz ⟨.v1, true, .f16, true, false, 30, (.reg 43)⟩),
    (.v2, 0x65A7D649, .vsplat ⟨.v2, false, .i16, true, false, 31, (.reg 44)⟩),
    (.v0, 0xA792591F, .vshli ⟨.v0, true, .i16, false, true, 9, (.reg 50), 31⟩),
    (.v1, 0xBBF299FF, .vbcast ⟨.v1, true, .i8, true, true, 10, (.reg 51), 127⟩),
    (.v2, 0xE3D2DA3F, .vrot ⟨.v2, true, .i8, false, true, 11, (.reg 52), 63⟩),
    (.v0, 0xDA731AFF, .vdq ⟨.v0, true, .bf16, true, true, 12, (.reg 53), 127⟩),
    (.v0, 0x2821C205, .vcmpEq ⟨.v0, false, .f32, true, false, 7, (.reg 4), (.reg 5)⟩),
    (.v1, 0x2A718205, .vcmpLt ⟨.v1, false, .bf16, true, true, 6, (.reg 4), (.reg 5)⟩),
    (.v2, 0x2DE14205, .vcmpLe ⟨.v2, false, .i8, true, false, 5, (.reg 4), (.reg 5)⟩),
    (.v0, 0x2EF10205, .vcmpNe ⟨.v0, false, .e4m3, true, true, 4, (.reg 4), (.reg 5)⟩),
    (.v1, 0x3160C205, .vcmpLtn ⟨.v1, false, .i32, true, false, 3, (.reg 4), (.reg 5)⟩),
    (.v2, 0x321A00D0, .vcvt ⟨.v2, false, .f32, false, true, 40, (.reg 1), 10, .rne⟩),
    (.v2, 0x325A4149, .vcvt ⟨.v2, false, .bf16, false, true, 41, (.reg 2), 9, .rtz⟩),
    (.v2, 0x329A81C2, .vcvt ⟨.v2, false, .f16, false, true, 42, (.reg 3), 8, .up⟩),
    (.v2, 0x32DAC23B, .vcvt ⟨.v2, false, .e4m3, false, true, 43, (.reg 4), 7, .down⟩),
    (.v2, 0x331B02B4, .vcvt ⟨.v2, false, .e5m2, false, true, 44, (.reg 5), 6, .sr⟩),
    (.v2, 0x345A00D0, .vcvts ⟨.v2, false, .bf16, false, true, 40, (.reg 1), 10, .rne⟩),
    (.v2, 0x349A4149, .vcvts ⟨.v2, false, .f16, false, true, 41, (.reg 2), 9, .rtz⟩),
    (.v2, 0x34DA81C2, .vcvts ⟨.v2, false, .e4m3, false, true, 42, (.reg 3), 8, .up⟩)] = true := by
  decide +kernel

/-- Words of the vector words (R301), written out field by field. -/
theorem test_decode_vector_3 : decodes [
    (.v2, 0x351AC23B, .vcvts ⟨.v2, false, .e5m2, false, true, 43, (.reg 4), 7, .down⟩),
    (.v2, 0x355B02B4, .vcvts ⟨.v2, false, .i32, false, true, 44, (.reg 5), 6, .sr⟩),
    (.v0, 0x4C002486, .vshp .v0 false 6),
    (.v1, 0xD0315FC9, .vpfx .v1 true true true 5 (.reg 63)),
    (.v1, 0xD211C305, .qand ⟨.v1, true, true, 7, 6, 5⟩),
    (.v1, 0xD411C305, .qor ⟨.v1, true, true, 7, 6, 5⟩),
    (.v1, 0xD611C305, .qxor ⟨.v1, true, true, 7, 6, 5⟩),
    (.v2, 0x581083C9, .qnot .v2 false true 2 7)] = true := by
  decide +kernel

/-- Words of the special functions (R303), written out field by field. -/
theorem test_decode_special : decodes [
    (.x, 0x02078049, .xexp2 ⟨.x, false, .f32, false, false, 30, (.reg 0)⟩),
    (.x, 0x8447C1C9, .xlog2 ⟨.x, true, .bf16, false, false, 31, (.reg 3)⟩),
    (.x, 0x06A80349, .xrcp ⟨.x, false, .f16, true, false, 32, (.reg 6)⟩),
    (.x, 0x883844C9, .xrsqrt ⟨.x, true, .f32, true, true, 33, (.reg 9)⟩),
    (.x, 0x0A588649, .xsqrt ⟨.x, false, .bf16, false, true, 34, (.reg 12)⟩),
    (.x, 0x8C98C7C9, .xsin ⟨.x, true, .f16, false, true, 35, (.reg 15)⟩),
    (.x, 0x0E290949, .xcos ⟨.x, false, .f32, true, false, 36, (.reg 18)⟩),
    (.x, 0x90694AC9, .xtanh ⟨.x, true, .bf16, true, false, 37, (.reg 21)⟩),
    (.x, 0x12898C49, .xsigm ⟨.x, false, .f16, false, false, 38, (.reg 24)⟩),
    (.x, 0x9419CDC9, .xgelu ⟨.x, true, .f32, false, true, 39, (.reg 27)⟩),
    (.x, 0x16AFE440, .xdiv ⟨.x, false, .f16, true, false, 63, .pop, (.latch 0)⟩)] = true := by
  decide +kernel

/-- Words of the engine commands (R303, R391), written out field by field. -/
theorem test_decode_engine : decodes [
    (.x, 0x20B20A16, .mm ⟨1, 100⟩ (.reg 10) (.reg 11)),
    (.x, 0x23248C1C, .mmacro ⟨2, 73⟩ 12 (.reg 14)),
    (.x, 0x24001F92, .accz 31),
    (.x, 0x27FF8291, .rqr ⟨3, 255⟩ true (.reg 2) .pop),
    (.x, 0x2804BE15, .rap ⟨0, 9⟩ true 62 (.reg 10)),
    (.x, 0xAA350349, .rrd true true true 20 (.reg 6)),
    (.x, 0x2C004992, .rcl ⟨0, 0⟩),
    (.x, 0x2E154381, .rang false false true 21 (.reg 7) true),
    (.x, 0x30001492, .cp ⟨0, 0⟩ (.reg 20)),
    (.x, 0x3280C992, .cpadv ⟨1, 1⟩),
    (.x, 0x34000308, .wmwait (.reg 3) (.reg 4)),
    (.x, 0x36000392, .cpreset (.reg 3))] = true := by
  decide +kernel

/-- Words of the M words (R305), written out field by field. -/
theorem test_decode_memory_1 : decodes [
    (.m0, 0x02BF91FF, .ld ⟨.m0, .w, 63, .pop, 0x1FF⟩),
    (.m1, 0x05090802, .st ⟨.m1, .c, (.reg 9), (.reg 4), 2⟩),
    (.m1, 0x06010403, .ldt ⟨.m1, .a, 1, (.reg 2), 3⟩),
    (.m0, 0x08490B00, .stt ⟨.m0, .a, .zero, (.reg 5), 256⟩),
    (.m1, 0x0A8F0D55, .ldsc .w 15 (.reg 6) 0x155),
    (.m1, 0x0D3C0F61, .ldbf .c 60 (.reg 7) 5 33),
    (.m0, 0x0EC80140, .amoOp .m0 .add 50 (.reg 0) (.reg 20)),
    (.m1, 0x26163C90, .amogOp .m1 .add (.reg 5) (.latch 7) .zero),
    (.m1, 0x0ECC0951, .amoOp .m1 .and 51 (.reg 1) (.reg 21)),
    (.m0, 0x261A3C91, .amogOp .m0 .and (.reg 6) (.latch 7) .zero),
    (.m0, 0x0ED01162, .amoOp .m0 .or 52 (.reg 2) (.reg 22)),
    (.m1, 0x261E3C92, .amogOp .m1 .or (.reg 7) (.latch 7) .zero),
    (.m1, 0x0ED41973, .amoOp .m1 .xor 53 (.reg 3) (.reg 23)),
    (.m0, 0x26223C93, .amogOp .m0 .xor (.reg 8) (.latch 7) .zero),
    (.m0, 0x0ED82184, .amoOp .m0 .min 54 (.reg 4) (.reg 24)),
    (.m1, 0x26263C94, .amogOp .m1 .min (.reg 9) (.latch 7) .zero),
    (.m1, 0x0EDC2995, .amoOp .m1 .max 55 (.reg 5) (.reg 25)),
    (.m0, 0x262A3C95, .amogOp .m0 .max (.reg 10) (.latch 7) .zero),
    (.m0, 0x0EE031A6, .amoOp .m0 .swap 56 (.reg 6) (.reg 26)),
    (.m1, 0x262E3C96, .amogOp .m1 .swap (.reg 11) (.latch 7) .zero),
    (.m1, 0x0EE439B7, .amoOp .m1 .cas 57 (.reg 7) (.reg 27)),
    (.m0, 0x26323C97, .amogOp .m0 .cas (.reg 12) (.latch 7) .zero),
    (.m0, 0x0EE841C8, .amoOp .m0 .fadd 58 (.reg 8) (.reg 28)),
    (.m1, 0x26363C98, .amogOp .m1 .fadd (.reg 13) (.latch 7) .zero)] = true := by
  decide +kernel

/-- Words of the M words (R305), written out field by field. -/
theorem test_decode_memory_2 : decodes [
    (.m1, 0x0EEC49D9, .amoOp .m1 .cadd 59 (.reg 9) (.reg 29)),
    (.m0, 0x263A3C99, .amogOp .m0 .cadd (.reg 14) (.latch 7) .zero),
    (.m0, 0x212460D0, .ldgRow .m0 (.reg 12) (.reg 13)),
    (.m1, 0x22387C80, .stgRow .m1 (.reg 14) (.reg 15) .pop),
    (.m0, 0x212460D1, .ldgWord .m0 (.reg 12) (.reg 13)),
    (.m1, 0x22387C81, .stgWord .m1 (.reg 14) (.reg 15) .pop),
    (.m0, 0x25240827, .ldff .m0 (.reg 1) (.reg 2) 7),
    (.m1, 0x280C2490, .rst .m1 (.reg 3) (.reg 4)),
    (.m0, 0x2B242C90, .rld .m0 (.reg 5)),
    (.m1, 0x2CF042F0, .rred .m1 60 (.reg 8) 5 true 3),
    (.m0, 0x2F240850, .rfaaI64 .m0 (.reg 1) (.reg 5)),
    (.m0, 0x2F240851, .rfaaI32 .m0 (.reg 1) (.reg 5)),
    (.m1, 0x302450B0, .rmc .m1 (.reg 9) (.reg 10) (.reg 11)),
    (.m0, 0x32000000, .clap .m0),
    (.m1, 0x34FC9920, .fence .m1 31),
    (.m0, 0x37F82920, .barInit .m0 63 (.reg 2)),
    (.m1, 0x362C9921, .barArr .m1 5),
    (.m1, 0x36349922, .barWait .m1 6),
    (.m1, 0x363C9923, .barSync .m1 7),
    (.m1, 0x36449924, .barDep .m1 8),
    (.m1, 0x364C9925, .barEnd .m1 9),
    (.m1, 0x38886920, .fbar .m1 17 (.reg 6)),
    (.m0, 0x3B243880, .guardSet .m0 (.reg 7) (.reg 8)),
    (.m0, 0x3B243881, .guardClr .m0 (.reg 7) (.reg 8))] = true := by
  decide +kernel

/-- Words of the M words (R305), written out field by field. -/
theorem test_decode_memory_3 : decodes [
    (.m1, 0x3C0C5FC8, .rmg .m1 1 34 63 .pop),
    (.m0, 0x3E009920, .tagwFull .m0 (.reg 9)),
    (.m0, 0x3E009921, .tagwEmpty .m0 (.reg 9))] = true := by
  decide +kernel
/-- The faults of R306: an unassigned opcode, a reserved selector, a nonzero fn, an operation outside its slots, an idle
pattern other than the idle word, an immediate shift by 64, H on an M word. -/
theorem test_decode_faults :
    [(Slot.s0, 0x7E000000#32), (.v0, 0x5C000000#32), (.x, 0x38000000#32), (.m0, 0x40000000#32)].all
      (fun p => decodeSlot p.1 p.2 == .bad 0xA1) = true ∧
    decodeSlot .s1 0x0204A060#32 = .bad 0xA2 ∧ decodeSlot .s0 0x02000001#32 = .bad 0xA1 ∧
    decodeSlot .s1 0x68000000#32 = .bad 0xA4 ∧ decodeSlot .m0 0x0A010203#32 = .bad 0xA4 ∧
    decodeSlot .s0 0x00000001#32 = .bad 0xA1 ∧ decodeSlot .s0 0x48000040#32 = .bad 0xA1 ∧
    decodeSlot .m0 0x82010403#32 = .bad 0xA1 := by
  decide +kernel

/-- The encoder gives the words of the R324 and R391 examples. -/
theorem test_encode_words :
    encodeWord (.movl ⟨.s0, false, 10, 3⟩) = 0x54500003#32 ∧ encodeWord (.call 63 0x0110) = 0x65F82200#32 ∧
    encodeWord (.mm ⟨1, 100⟩ (.reg 10) (.reg 11)) = 0x20B20A16#32 ∧ encodeWord (.barSync .m0 5) = 0x362C9923#32 ∧
    encodeWord (.rep .v0 2 0 1 1) = 0x00485000#32 := by
  decide +kernel

/-! ### Results that the spec states -/

/-- R313: sll by 65 shifts by 1. -/
theorem test_sll_by_65 : sent (exec (.sll ⟨.s0, false, 3, .reg 4, .reg 5⟩) (withS [(4, 3), (5, 65)])) = some (.s 3, 1, 6) := by
  decide +kernel

/-- R314: sltni with imm = -1 compares against 2^64 - 1. -/
theorem test_sltni_minus_one : sent (exec (.sltni ⟨.s1, false, 3, .reg 4, 0xFFF⟩) (withS [(4, 5)])) = some (.s 3, 1, 1) := by
  decide +kernel

/-- R317: 7 / 0 is 2^64 - 1, with 0x66 instead when INTDZ is 1. -/
theorem test_div_by_zero :
    sent (exec (.div ⟨.s0, false, 3, .reg 4, .zero⟩) (withS [(4, 7)])) = some (.s 3, 12, 0xFFFFFFFFFFFFFFFF) ∧
    (after (exec (.div ⟨.s0, false, 3, .reg 4, .zero⟩) (at0 (fun t => { t with fpflags := 2 ^ 45 })))).issue.faults =
      [(0, 0x66)] := by
  decide +kernel

/-- R317: -7 / 2 is -3 and leaves -1; -2^63 / -1 wraps. -/
theorem test_rem_signs :
    sent (exec (.rem ⟨.s0, false, 3, .reg 4, .reg 5⟩) (withS [(4, -7), (5, 2)])) = some (.s 3, 12, 0xFFFFFFFFFFFFFFFF) ∧
    sent (exec (.div ⟨.s0, false, 3, .reg 4, .reg 5⟩) (withS [(4, -7), (5, 2)])) = some (.s 3, 12, 0xFFFFFFFFFFFFFFFD) ∧
    sent (exec (.div ⟨.s0, false, 3, .reg 4, .reg 5⟩) (withS [(4, 2 ^ 63), (5, -1)])) = some (.s 3, 12, 0x8000000000000000) := by
  decide +kernel

/-- R317: the high halves of (2^64 - 1)^2, unsigned, and of (-1)^2, signed. -/
theorem test_high_products :
    sent (exec (.mulhn ⟨.s0, false, 3, .reg 4, .reg 4⟩) (withS [(4, -1)])) = some (.s 3, 3, 0xFFFFFFFFFFFFFFFE) ∧
    sent (exec (.mulh ⟨.s0, false, 3, .reg 4, .reg 4⟩) (withS [(4, -1)])) = some (.s 3, 3, 0) := by
  decide +kernel

/-- R318: the bfx and bins examples. -/
theorem test_bit_fields :
    sent (exec (.bfx ⟨.s0, false, 3, .reg 4, .reg 5⟩ 7) (withS [(4, 0xF000000000000000), (5, 60)])) = some (.s 3, 1, 0x0F) ∧
    sent (exec (.bins ⟨.s0, false, 3, .reg 4, .reg 5⟩ 7) (withS [(4, 0xAB), (5, 60)])) = some (.s 3, 1, 0xB000000000000000) := by
  decide +kernel

/-- R297: 2.0 × 0.5 + 1.0 is 2.0, with latency 4. -/
theorem test_vfma_f32 :
    lane (exec (.vfma ⟨.v0, false, .f32, false, false, 8, .reg 16, .reg 32⟩)
      (withV [(8, 0x3F800000), (16, 0x40000000), (32, 0x3F000000)])) 32 0 = some 0x40000000 := by
  decide +kernel

/-- R351: the bf16 compare of the example sets bit 1 and clears bit 0, and the select takes both elements of a lane alike. -/
theorem test_compare_and_select :
    ((sent (exec (.vcmpLt ⟨.v1, false, .bf16, false, false, 1, .reg 4, .reg 5⟩)
      (withV [(4, 0x3F803F8040403F80), (5, 0x4000400040004000)]))).map (fun r => (r.1, r.2.1, r.2.2.toNat % 4))) =
      some (.q 1, 2, 2) ∧
    lane (exec (.vsel ⟨.v1, false, .bf16, true, false, 6, .reg 4, .reg 5⟩)
      (at0 (fun t => { t with
        v := vset (vset t.v 4 0x3F803F8040403F80) 5 0x4000400040004000
        q := vset t.q 1 2 }))) 64 0 = some 0x3F803F8040004000 := by
  decide +kernel

/-- R353: the vdq example: 1.5 × 2 = 3.0, -2.0 × 2 = -4.0, and 6.0 / 2 = 3.0 in lane 32. -/
theorem test_vdq_f32 :
    let o := exec (.vdq ⟨.v0, false, .f32, false, false, 5, .reg 4, 2⟩)
      (at0 (fun t => { t with
        v := vset t.v 4 (0xC3 + 7 * 2 ^ 128)
        sc := vset (vset t.sc 2 128) 3 126 }))
    lane o 32 0 = some 0x40400000 ∧ lane o 32 1 = some 0xC0800000 ∧ lane o 32 32 = some 0x40400000 := by
  decide +kernel

/-- R356: with lane 3 off, 2^24 + 1 + 1 by pairs is 2^24; with it on, the four sum to 1.0. -/
theorem test_vrsum_order :
    let row : Row := 0xCB8000003F8000003F8000004B800000 + 0x41200000 * 2 ^ 1000
    let s (m : Word) := at0 (fun t => { t with
      v := vset (vset t.v 8 row) 9 (0x41200000 * 2 ^ 96), q := vset t.q 0 m, shp := 2 })
    let o (m : Word) := exec (.vrsum ⟨.v0, false, .f32, true, false, 9, .reg 8⟩) (s m)
    lane (o (~~~ 8)) 32 0 = some 0x4B800000 ∧ lane (o (~~~ 8)) 32 3 = some 0x41200000 ∧
    lane (o (BitVec.allOnes 64)) 32 3 = some 0x3F800000 := by
  decide +kernel

/-- R358: 2^0 is 1.0, log2 of 0 raises DZ, and 1 / 0 is infinite. -/
theorem test_special_functions :
    lane (exec (.xexp2 ⟨.x, false, .f32, false, false, 3, .zero⟩) (withV [])) 32 5 = some 0x3F800000 ∧
    lane (exec (.xrcp ⟨.x, false, .f32, false, false, 3, .zero⟩) (withV [])) 32 5 = some 0x7F800000 ∧
    (after (exec (.xlog2 ⟨.x, false, .f32, false, false, 3, .zero⟩) (withV []))).issue.flags = [(5, 8)] := by
  decide +kernel

/-- R221, R363: a store takes effect three context cycles after its bundle, and a load then reads the stored row. -/
theorem test_store_then_load :
    let s := after (exec (.st ⟨.m0, .c, .reg 9, .reg 4, 2⟩) (at0 (fun t => { t with
      v := vset t.v 9 0x1234, s := vset t.s 4 256 })))
    (s.ck.performDue 0 2).row .c 3 = 0 ∧ (s.ck.performDue 0 3).row .c 3 = 0x1234 := by
  decide +kernel

/-- R367: an atomic add leaves the sum in its word and returns the old word ten cycles after its issue. -/
theorem test_amo_add :
    let s := after (exec (.amoOp .m1 .add 7 (.reg 4) (.reg 5)) (withS [(4, 16), (5, 3)]))
    let k := (s.ck.setRow .a 0 (5 * 2 ^ 128)).performDue 0 3
    k.row .a 0 = 8 * 2 ^ 128 ∧ (k.ctx 0).inflight.map (fun r => (r.dest, r.lands, r.value)) = [(.s 7, 10, 5)] := by
  decide +kernel

/-! ### Steps -/

/-- R324: the bundle 0x0100 of the example issues: movl s10, 3 and movl s11, 0, and the next bundle follows. -/
theorem test_step_movl :
    let t := after (step (State.reset.withFetchWord 64 0x5458000054500003))
    (t.ctxOf 0 0).inflight.map (fun r => (r.dest, r.lands, r.value)) = [(.s 10, 1, 3), (.s 11, 1, 0)] ∧
      (t.ctxOf 0 0).pc = 1 ∧ (t.ctxOf 0 0).cc = 1 := by
  decide +kernel

/-- R197, R306, R208: a bundle whose slot 1 holds a reserved selector kills its context with 0xA2. -/
theorem test_step_fault :
    let t := after (step (State.reset.withFetchWord 64 (0x0204A060 * 2 ^ 32)))
    (t.ctxOf 0 0).mode = .killed ∧ (t.launch? (some 0)).map (fun l => (l.fcode, l.fcore, l.killed)) = some (0xA2, 0, 1) := by
  decide +kernel

/-- R29: with power removed by a trip, an event of the schedule is lost, while a mailbox request over SMBus is still served. -/
theorem test_power_off :
    let off := { Power.reset with off := true }
    (after (step { State.reset with power := off, agenda := [.wakeStepReady []] })).wake.step = State.reset.wake.step ∧
    (after (step { State.reset with power := off, mbox := { State.reset.mbox with go := true, len := 4, req := 9 } })).mbox.status
      = 1 := by
  decide +kernel

/-- R86, R217: the machine after reset has its memories in canonical form. -/
theorem test_reset_memory : State.reset.memoryWf = true := by
  decide +kernel

/-- What a read of the management block returns at reset, from the Reset columns of R119, R145, R25, R30, R57, R91, R99, R101,
R127, R120, R170, R45 (DOWN), R55 (NEXT) and R65 (TOUT and RWAIT), and the mask bit of an MSI-X vector. -/
theorem test_management_reset :
    [0x0, 0x8, 0x110, 0x20000, 0x30000, 0x30008, 0x60000, 0x60800, 0x71000, 0x72100].map State.reset.mgmtRead
      = [0, 1, 0, 0x202020202020, 0, 3200, 1, 0x140000000000, 0, 24] ∧
    [0x79020, 0x80000, 0x90008, 0x90018, 0xA0000, 0x1100038, 0x1400000, 0x1400400, 0x1F00008, 0x1F00010].map State.reset.mgmtRead
      = [1, 0x400000040, 64, 0, 0x04080000, 0xFFF, 0x2900, 0x2900, 0x100000000, 0] := by
  decide +kernel

/-- R91, R109: an accepted write of INVADDR and of INVCTL without GO reads back without its reserved bits. -/
theorem test_management_readback :
    let s := after (execMgmtRegisterWrite 0x78000 (BitVec.allOnes 64) (after (execMgmtRegisterWrite 0x78008 0xFFFFFFFFFFFFFFFE State.reset)))
    s.mgmtRead 0x78000 = 0x01FFFFFFFFFFF000 ∧ s.mgmtRead 0x78008 = 0xFFFF00FFFFFFFF08 := by
  decide +kernel

end Sys2Proof.Tests
end

