-- ==== Sys2Proof/Tests/Witnesses.lean ====
section
/-!
SUPPORT. For every statement with hypotheses, a concrete state and operands that meet them, clause by clause.
-/
namespace Sys2Proof.Tests
open Sys2Proof Sys2Proof.Machine
set_option Elab.async false

/-! ### The machine as a whole -/

/-- WhatOneStepIs: a head of the agenda, power removed with an event that reaches the package and with one that does not, with a
mailbox request and without one, an internal event that is due, a bundle to issue, and neither. -/
theorem witness_WhatOneStepIs :
    (let s : State := { State.reset with agenda := [.wakeStepTimeout] }; s.agenda = .wakeStepTimeout :: [] ∧ s.power.off = false) ∧
    (let s : State := { State.reset with power := { Power.reset with off := true } }
     s.power.off = true ∧ s.agenda = [] ∧ s.dueMail.isNone = true ∧ reachesManaged .powerOnReset = true ∧
       reachesManaged (.wakeStepReady []) = false ∧
       ({ s with mbox := { s.mbox with go := true } } : State).dueMail.isSome = true) ∧
    (let s : State := { State.reset with outReqs := [⟨.none, 0, 8, some [], false, 0⟩] }
     s.agenda = [] ∧ s.power.off = false ∧ s.nextDue.isSome = true) ∧
    (let s := State.reset.withFetchWord 32 0
     s.agenda = [] ∧ s.power.off = false ∧ s.nextDue.isNone = true ∧ s.nextIssue = some (0, 0)) ∧
    (State.reset.nextDue.isNone = true ∧ State.reset.nextIssue = none) := by
  decide +kernel

/-- StepRunsTheDecodedOperation: the bundle of s10 := 3 is about to issue. -/
theorem witness_StepRunsTheDecodedOperation :
    let i : Instr := .movl ⟨.s0, false, 10, 3⟩
    let s := State.reset.withFetchWord 32 (encodeWord i).toNat
    let s1 := s.modCore 0 (fun k => (k.landDue 0 (k.ctx 0).cc).performDue 0 (k.ctx 0).cc)
    let u := s1.ctxOf 0 0
    i.wf = true ∧ i.slot? = some .s0 ∧ s.agenda = [] ∧ s.power.off = false ∧ s.nextDue.isNone = true ∧
      s.nextIssue = some (0, 0) ∧ u.ahead.isNone = true ∧
      (s1.launch? u.launch).map (fun l => l.inImage u.pc) = some true ∧ (s1.core 0).badImem.contains u.pc = false ∧
      (s1.core 0).bundle u.pc = encode i := by
  decide +kernel

/-- WordsOfTheSpecDecode: words of the three refused kinds. -/
theorem witness_WordsOfTheSpecDecode :
    Decode.fld (0x7E000000#32).toNat 25 6 = 0x3F ∧
    (0x30 ≤ Decode.fld (0x60000000#32).toNat 25 6 ∧ Decode.fld (0x6E000000#32).toNat 25 6 ≤ 0x37) ∧
    (let w := 0x0204A060#32
     Slot.s1.isS = true ∧ Decode.fld w.toNat 25 6 = 0x01 ∧ Decode.fld w.toNat 0 5 = 0 ∧ w.msb = false ∧
       74 ≤ Decode.fld w.toNat 12 7) := by
  decide +kernel

/-- DecodeOfEncodeIsTheOperation and EncodeOfDecodeIsTheWord: an operation with operands at the ends of their ranges. -/
theorem witness_DecodeOfEncodeIsTheOperation :
    let i : Instr := .rred .m1 60 .zero 5 true 3
    i.wf = true ∧ i.slot? = some .m1 ∧ decodeSlot .m1 (encodeWord i) = .ok i := by
  decide +kernel

/-- EveryStepKeepsTheMemoriesCanonical: a state with memory in canonical form from which a step is taken. -/
theorem witness_EveryStepKeepsTheMemoriesCanonical :
    let s : State := { State.reset.withFetchWord 32 0 with mem := { MemSys.reset with mem := [(3, 1), (9, 255)] } }
    s.memoryWf = true ∧ (match step s with
      | .next _ => true
      | _ => false) = true := by
  decide +kernel

/-- CanonicalMemoriesThatReadAlikeAreEqual: a memory with two bytes. -/
theorem witness_CanonicalMemoriesThatReadAlikeAreEqual : Memory.wf [(3, 1), (9, 255)] = true := by decide +kernel

/-- A load-queue entry for witnesses. -/
def entry (seq missing : Nat) (popped : Bool) (fault : Option Nat) : LoadEntry :=
  ⟨seq, seq, .global, [], popped, true, missing, none, 77, fault⟩

/-- WhatOperandsRead: the pending check off and on, handlers, valid and invalid latches, and the kinds of queue entry. -/
theorem witness_WhatOperandsRead :
    (State.reset.cx.pendChk = false ∧ State.reset.cx.inh = false ∧ 8 ≤ (63 : BitVec 6).toNat) ∧
    ((at0 (fun t => { t with inh := true })).cx.inh = true ∧ (7 : BitVec 6).toNat < 8) ∧
    (let s := at0 (fun t => { t with pendChk := true, inflight := [⟨.v0, .v 5, 0, 4, 1⟩] })
     s.cx.pendChk = true ∧ s.cx.pending (.v 5) = true) ∧
    ((State.reset.modCk (fun k => k.setLatch 3 9)).ck.latch 3).valid = true ∧ (State.reset.ck.latch 3).valid = false ∧
    ((at0 (fun t => { t with lq := [entry 1 0 true none] })).cx.lq.all (·.popped) = true) ∧
    ((at0 (fun t => { t with lq := [entry 1 0 true none, entry 2 3 false none] })).cx.lq =
      [entry 1 0 true none] ++ entry 2 3 false none :: [] ∧ (entry 2 3 false none).missing ≠ 0) ∧
    (entry 2 0 false (some 0x2E)).fault = some 0x2E ∧ (entry 2 0 false none).fault = none := by
  decide +kernel

/-- ABundleCommitsAsAWhole: two faulting slots, a blocking slot, neither, and
the faults that show at the end of the bundle. -/
theorem witness_ABundleCommitsAsAWhole :
    (let s := (State.reset.fail .v0 0x23).fail .s1 0x76
     s.issue.misses = [] ∧ s.issue.reads = [] ∧ s.issue.faults = [(2, 0x23)] ++ (1, 0x76) :: [] ∧ (∀ p ∈ [(2, 0x23)], 1 < p.1) ∧ 0x76 < 0x100) ∧
    (let s := State.reset.blockOn 4 (.tag 7 true)
     s.issue.misses = [] ∧ s.issue.reads = [] ∧ s.issue.faults = [] ∧ (s.ctxOf 0 0).pendingFault = none ∧ (s.ctxOf 0 0).due = [] ∧ s.issue.latch = none ∧ s.issue.handler = false ∧
       s.issue.block = some 4 ∧ s.issue.blockOn = some (.tag 7 true)) ∧
    State.reset.issue.block = none ∧
    (let s := (at0 (fun t => { t with localWrites := [⟨.m0, .a, 8191, 0, 3, 0, 0, .store 5 false⟩] })).note
       (fun r => { r with macroRows := [(.a, 8190)] })
     groupRows .a = 2048 ∧ s.lateFaults 0 0 (State.reset.ctxOf 0 0) = [(5, 0x21)]) ∧
    (let t : Context := { State.reset.ctxOf 0 0 with latched := [0] }
     let s := State.reset.note (fun r => { r with latch := some 2 })
     s.lateFaults 0 0 t = [(2, 0x42)] ∧ s.issue.faults ++ [(2, 0x42)] = [] ++ (2, 0x42) :: []) := by
  decide +kernel

/-- TakingAFaultKillsTheContext: a running launch with a context, under either policy, with and without an earlier fault. -/
theorem witness_TakingAFaultKillsTheContext :
    let s := State.reset.withFetchWord 0 0
    let u : State := { s with launches := [(0, { fetchLaunch with recd := fetchLaunch.recd.set 0 0x11108001, fcode := 0x22 })] }
    ((s.ctxOf 0 0).launch = some 0 ∧ (s.launch? (some 0)).map (fun l => (l.fcode, l.faultPol, l.state)) = some (0, 0, .running)) ∧
    ((u.ctxOf 0 0).launch = some 0 ∧ (u.launch? (some 0)).map (fun l => (l.fcode, l.faultPol)) = some (0x22, 1)) := by
  decide +kernel

/-- The frames: an operation of each kind that answers a next state. -/
theorem witness_Frames :
    (Instr.slot? (.st ⟨.m0, .c, .reg 9, .reg 4, 2⟩)).isSome = true ∧
    registerOnly (.add ⟨.s0, false, 3, .reg 4, .reg 5⟩) = true ∧ registerOnly (.srd .s0 1 0x001) = true ∧
    storesNothing (.nop 0) = true ∧ (readsMemory (.wait 0) = true ∧ State.reset.mem.migActive = false) ∧ leavesCores (.nop 0) = true ∧ ownCore (.macroStep 7) = some 7 ∧
    [exec (.st ⟨.m0, .c, .reg 9, .reg 4, 2⟩) (withS []), exec (.add ⟨.s0, false, 3, .reg 4, .reg 5⟩) (withS []),
      exec (.nop 0) State.reset, exec (.macroStep 7) State.reset].all (fun o => match o with
      | .next _ => true
      | _ => false) = true := by
  decide +kernel

/-! ### Scalar, control and system operations -/

/-- The scalar result statements: operands from a register, a latch, a pop and zero; quotients by zero in both settings and
at the overflow. -/
theorem witness_Scalar :
    ((withS [(4, 7), (5, 8)]).opS .s0 (.reg 4)).1 = some 7 ∧
    ((withS [(4, 7), (5, 8)]).opS .s0 (.reg 5)).1 = some 8 ∧
    ((withS [(4, 7)]).opS .s1 .zero).1 = some 0 ∧ ((withS [(4, 7)]).srcS .s0 4).1 = some 7 ∧
    ((at0 (fun t => { t with lq := [entry 2 0 false none] })).opS .s0 .pop).1 = some 77 ∧
    ((at0 (fun t => { t with fpflags := 2 ^ 45 })).cx.fpflags.getLsbD 45 = true) ∧
    ((withS []).cx.fpflags.getLsbD 45 = false) ∧
    ((2 ^ 63 : Word).toInt = -2 ^ 63 ∧ (-1 : Word).toInt = -1) := by
  decide +kernel

/-- The words that the scalar statements refuse: fn 1 with add, fn 6 with cmp, a shift immediate of 64, fn 1 with cmov, mul
and div, b = 72 with clz, and imm[18:14] = 1 with ldl. -/
theorem witness_ScalarRefusals :
    let f (w lo n : Nat) := Decode.fld ((BitVec.ofNat 32 w : SlotWord).toNat) lo n
    Slot.s0.isS = true ∧ (1 ≤ f 0x02000001 25 6 ∧ f 0x1C000001 25 6 ≤ 0x0E ∧ f 0x02000001 0 5 ≠ 0) ∧
    (0x24 ≤ f 0x48000040 25 6 ∧ f 0x4C000040 25 6 ≤ 0x26 ∧ 64 ≤ f 0x48000040 0 12) ∧
    (f 0x1E000006 25 6 = 0x0F ∧ 6 ≤ f 0x1E000006 0 5) ∧ (f 0x20000001 25 6 = 0x10 ∧ f 0x20000001 0 5 ≠ 0) ∧
    (0x11 ≤ f 0x22000001 25 6 ∧ f 0x26000001 25 6 ≤ 0x13 ∧ f 0x22000001 0 5 ≠ 0) ∧
    (0x14 ≤ f 0x28000001 25 6 ∧ f 0x2E000001 25 6 ≤ 0x17 ∧ f 0x28000001 0 5 ≠ 0) ∧
    (f 0x30000900 25 6 ∈ [0x18, 0x19, 0x1A, 0x1D] ∧ f 0x30000900 5 7 ≠ 73) ∧
    (f 0x58004000 25 6 = 0x2C ∧ f 0x58004000 14 5 ≠ 0) := by
  decide +kernel

/-- A launch with sixteen literal words from index 4 for witnesses. -/
def litLaunch : Launch := { fetchLaunch with recd := fetchLaunch.recd.set 4 (BitVec.ofNat 64 (4 * 2 ^ 16 + 16)) }

/-- ConstantsAndLiterals: an index at the start of the literal range, and one below it. -/
theorem witness_ConstantsAndLiterals :
    let s : State := { withS [] with launches := [(0, litLaunch)] }
    s.cl = some litLaunch ∧ litLaunch.litBase ≤ (4 : BitVec 14).toNat ∧
      (4 : BitVec 14).toNat < litLaunch.litBase + litLaunch.litLen ∧ s.ck.badLmem.contains 4 = false ∧
      ¬ (litLaunch.litBase ≤ (3 : BitVec 14).toNat) ∧ ¬ ((20 : BitVec 14).toNat < litLaunch.litBase + litLaunch.litLen) := by
  decide +kernel

/-- ConstantsAndLiterals: values that movl and movh give, with bit 18 set and clear, and the register that movh reads. -/
theorem witness_MovlThenMovh :
    (let v : Word := 0xFFFFFFFFFFFC0000
     ∀ i, i < 64 → 19 ≤ i → i ≤ 44 → v.getLsbD i = v.getLsbD 18) ∧
    (let v : Word := 0x123400000003FFFF
     ∀ i, i < 64 → 19 ≤ i → i ≤ 44 → v.getLsbD i = v.getLsbD 18) ∧
    ((withS [(9, 0x3FFFF)]).srcS .s0 9).1 = some 0x3FFFF := by
  decide +kernel

/-- TransfersOfControl: a branch operand read, a loop counter at 1 and above, and a context without and with a redirect. -/
theorem witness_TransfersOfControl :
    ((withS [(4, 1)]).opS .s0 (.reg 4)).1 = some 1 ∧ ((withS [(4, 1)]).srcS .s0 4).1 = some 1 ∧
    ((withS [(4, 2)]).srcS .s0 4).1 = some 2 ∧ Context.reset.redirect = none := by
  decide +kernel

/-- ExitEndsTheIteration: a context with a next iteration, one whose launch has none left, one that the walker gives a point at
once, and one for which it has none yet. -/
theorem witness_ExitEndsTheIteration :
    let s := State.reset.withFetchWord 0 0
    let i : Iteration := ⟨1, 0, 0, [5]⟩
    let t := s.modCtx 0 0 (fun t => { t with nextIteration := some i, iteration := some (0, 0), patient := true })
    (t.ctxOf 0 0).launch = some 0 ∧ ((t.countExit 0 0 0).launch? (some 0)).isSome = true ∧
      (t.ctxOf 0 0).nextIteration = some i ∧ (s.ctxOf 0 0).nextIteration = none ∧
      (let u : State := { s with launches := [(0, { fetchLaunch with enumerated := true })] }
       (u.ctxOf 0 0).launch = some 0 ∧ ((u.countExit 0 0 0).launch? (some 0)).any (fun l => l.noneLeft 0) = true) ∧
      [[(0, 0)], []].all (fun steps =>
        let w : State := { s with launches := [(0, { fetchLaunch with enumerated := false, stepSlots := steps })] }
        let u := ((w.countExit 0 0 0).modCtx 0 0 (fun t => { t.endIteration with freeAt := w.cycle })).modCtx 0 0
          (fun t => { t with mode := .free })
        ((w.countExit 0 0 0).launch? (some 0)).any (fun l => !l.noneLeft 0) && (w.ctxOf 0 0).nextIteration.isNone &&
          (u.launchContexts 0).all (fun p => !p.2.2.idle || (p.1 == 0 && p.2.1 == 0)) &&
          (u.walk1 0 true).any (fun u => (u.ctxOf 0 0).mode == .ready) == !steps.isEmpty) = true := by
  decide +kernel

/-- A held add of slot S1 for witnesses: add s3, s4, s5. -/
def heldAdd : SlotWord := 0x82184 * 4096 + 0x0A0

/-- RepChains: no hold record, one whose instances decode, a compare whose destination would pass q7, and an instance that is due. -/
theorem witness_RepChains :
    vget (withS []).cx.holds Slot.s1.num = none ∧
    (let s := at0 (fun t => { t with holds := vset t.holds 1 (some ⟨heldAdd, 1, false⟩) })
     vget s.cx.holds Slot.s1.num = some ⟨heldAdd, 1, false⟩ ∧ (repWords .s1 1 1 1 4 heldAdd).map (·.length) = some 4 ∧
       repWords .v0 1 0 0 1 (0x14 * 2 ^ 25 + 7 * 2 ^ 14 + 0x205) = none) ∧
    (let p : Pending := ⟨.s1, heldAdd, 0, 0, 0⟩
     let s := at0 (fun t => { t with chain := [p] })
     (s.ctxOf 0 0).dueInstance = some p ∧ (s.core 0).cur = some 0) := by
  decide +kernel

/-- ScopesAndWindows: a malformed and an empty scope image, and a window with LOG2SIZE 12 and one with 11. -/
theorem witness_ScopesAndWindows :
    ((withV [(4, 0)]).opV .s0 (.reg 4)).1 = some 0 ∧ scopeOk 0 = true ∧ scopeOk (2 ^ 511) = false ∧
    winOk (12 * 2 ^ 4) = true ∧ winOk (11 * 2 ^ 4) = false := by
  decide +kernel

/-! ### Vector operations and special functions -/

/-- Three rows for witnesses: v4, v5 and the old v6. -/
def rows3 : State := withV [(4, 0x3F800000), (5, 0x40000000), (6, 9)]

/-- The element results: two rows read without and with predicate and old destination, in a floating and an integer
format. -/
theorem witness_reads2 :
    rows3.reads2 ⟨.v0, false, .f32, false, false, 6, .reg 4, .reg 5⟩ false 0x3F800000 0x40000000 (BitVec.allOnes 64) 0 rows3 ∧
    rows3.reads2 ⟨.v1, false, .i32, true, false, 6, .reg 4, .zero⟩ false 0x3F800000 0 (BitVec.allOnes 64) 9 rows3 ∧
    rows3.reads2 ⟨.v2, false, .i16, false, false, 6, .reg 4, .reg 5⟩ true 0x3F800000 0x40000000 (BitVec.allOnes 64) 9 rows3 ∧
    Fmt.isFloat .i32 = false ∧ Fmt.isFloat .i8 = false := by
  refine ⟨⟨rows3, rows3, rows3, ?_, ?_, ?_, ?_⟩, ⟨rows3, rows3, rows3, ?_, ?_, ?_, ?_⟩, ⟨rows3, rows3, rows3, ?_, ?_, ?_, ?_⟩,
    ?_, ?_⟩ <;> decide +kernel

/-- The one-source statements: a row read with and without predicate, and the shape codes at both ends. -/
theorem witness_reads1 :
    rows3.reads1 .v0 (.reg 4) false 6 0x3F800000 (BitVec.allOnes 64) 0 rows3 ∧
    rows3.reads1 .x (.reg 4) true 6 0x3F800000 (BitVec.allOnes 64) 9 rows3 ∧
    rows3.cx.shp.toNat ≤ 6 ∧ (at0 (fun t => { t with shp := 0 })).cx.shp.toNat ≤ 6 := by
  refine ⟨⟨rows3, rows3, ?_, ?_, ?_⟩, ⟨rows3, rows3, ?_, ?_, ?_⟩, ?_, ?_⟩ <;> decide +kernel

/-- LaneMovesShapeAndTranspose and RowAndColumnReductions: the operands read one by one. -/
theorem witness_LaneMoves :
    (rows3.opV .v0 (.reg 4)).1 = some 0x3F800000 ∧ (rows3.opS .v0 .zero).1 = some 0 ∧
    (rows3.govern .v0 true).1 = some (BitVec.allOnes 64) ∧ (rows3.govern .v0 false).1 = some (BitVec.allOnes 64) ∧
    (rows3.readReg .v0 .v 6).1 = some 9 := by
  decide +kernel

/-- ComparesAndPredicates: two rows, a governing predicate, the old destination predicate, and the sources of the logic. -/
theorem witness_ComparesAndPredicates :
    (rows3.opV .v1 (.reg 4)).1 = some 0x3F800000 ∧ (rows3.opV .v1 (.reg 5)).1 = some 0x40000000 ∧
    (rows3.govern .v1 true).1 = some (BitVec.allOnes 64) ∧ (rows3.readQ .v1 7).1 = some (BitVec.allOnes 64) ∧
    ((withS [(4, 65)]).opS .v1 (.reg 4)).1 = some 65 ∧ Fmt.isFloat .i16 = false := by
  decide +kernel

/-- ConversionsAndDequantisation: a rounding mode other than sr, the last target, and both formats of vdq. -/
theorem witness_Conversions :
    Rm.down ≠ Rm.sr ∧ (10 : BitVec 4).toNat ≤ 10 ∧ Fmt.code .f32 ≤ 1 ∧ Fmt.code .bf16 ≤ 1 := by
  decide +kernel

/-- ConversionsAndDequantisation, ShapeAndTranspose: the pending check with a scale register and with the shape in flight, and with
neither. -/
theorem witness_PendingOperands :
    (let s := at0 (fun t => { t with pendChk := true, inflight := [⟨.v0, .shp, 0, 4, 1⟩, ⟨.m0, .sc 3, 0, 4, 1⟩] })
     s.cx.pendChk = true ∧ s.cx.pending .shp = true ∧ s.cx.scalePending 3 2 = true ∧
       (s.cx.pendChk && s.cx.scalePending 1 2) = false) ∧
    (rows3.cx.pendChk && rows3.cx.pending .shp) = false ∧ (rows3.cx.pendChk && rows3.cx.scalePending 3 2) = false := by
  decide +kernel

/-- SpecialFunctionCorners: a quiet NaN, the ends of the ranges, and a finite dividend. -/
theorem witness_SpecialFunctionCorners :
    (0x7FC00000 < 2 ^ 32 ∧ isNan 0 0x7FC00000 = true ∧ isNan 0 0x7F800001 = true) ∧
    (0x80000001 ≤ 0xFF7FFFFF ∧ 0x43000000 ≤ 0x7F7FFFFF ∧ 0xC3160000 ≤ 0xFF7FFFFF) ∧
    (0x80000001 < 2 ^ 32 ∧ 0x80000001 % 2 ^ 31 ≠ 0 ∧ 0x80000001 % 2 ^ 31 < 0x7F800000) := by
  decide +kernel

/-- The boundary values of SpecialFunctionCorners hold of the functions. -/
theorem test_special_corners :
    sfExp2 0x43000000 = (0x7F800000, 5) ∧ sfExp2 0xC3160000 = (0, 3) ∧ sfLog2 0x80000001 = (0x7FC00000, 16) ∧
    sfSqrt 0xFF7FFFFF = (0x7FC00000, 16) ∧ sfDiv 0x80000001 0 = (0xFF800000, 8) ∧ sfDiv 0x3F800000 0x80000000 = (0xFF800000, 8) ∧
    sfRcp 0x7F800001 = (0x7FC00000, 16) ∧ sfTanh 0x7FC00000 = (0x7FC00000, 0) := by
  decide +kernel

/-! ### Engine commands -/

/-- The context of a launch with literal words, about to issue, with scalar registers set and its core changed. -/
def engineState (l : List (Nat × Word)) (f : Core → Core) : State :=
  { (at0 (fun t => { t with lpc := 4, s := l.foldl (fun v p => vset v p.1 p.2) t.s })).modCk f with
    launches := [(0, litLaunch)] }

/-- MD0 of an mm of 24 steps. -/
def mdSteps : Word := BitVec.ofNat 64 (24 * 2 ^ 27)

/-- A macro word of two steps with DC = 1. -/
def macroWord : Word := BitVec.ofNat 64 (1 + 2 ^ 39)

/-- An array command that streams until cycle 9. -/
def arrayCmd (n : Nat) : ArrayCmd :=
  ⟨n, 0, 0, .accz 0, [], 0, 5, 9, [], [], 12, false, [], [], none⟩

/-- MatrixCommandsAreEnqueued: an mm of 24 steps with a literal word, with the queue empty and with four entries held. -/
theorem witness_MatrixCommandsEnterTheArray :
    (let s := engineState [(10, mdSteps)] id
     let d := shapeOf (24 * 2 ^ 27) 0 0
     (s.opS .x (.reg 10)).1 = some mdSteps ∧ (s.opS .x .zero).1 = some 0 ∧ (s.dueFull ⟨1, 100⟩).isNone = true ∧
       (s.literal s.cx.lpc.toNat).toOption = some 0 ∧ d.ok = true ∧ s.ck.writeInFlight (d.aRun ++ d.wRun) = false ∧
       (s.watermark (d.aRun ++ d.wRun)).isNone = true ∧ s.ck.arrayHeld s.cycle < 4) ∧
    (let s := engineState [(10, mdSteps)] (fun k => { k with array := (List.range 4).map arrayCmd })
     4 ≤ s.ck.arrayHeld s.cycle ∧ (s.opS .x (.reg 10)).1 = some mdSteps) := by
  decide +kernel

/-- A macro in the sequencer for witnesses. -/
def macroOf (n : Nat) : MacroRun := ⟨n, 0, 0, 0, mdSteps, 0, 0, 0, 1, 2, 0, [0, 0], e2m1, e2m1, false, none⟩

/-- MatrixCommandsAreEnqueued: a macro word with a reserved bit, one of two legal steps, and a full sequencer. -/
theorem witness_MacrosEnterTheSequencer :
    (2 ^ 44 ≤ (0x100000000000 : Word).toNat) ∧
    (let s := engineState [(12, mdSteps), (14, macroWord)] id
     (s.srcS .x 12).1 = some mdSteps ∧ (s.srcS .x 13).1 = some 0 ∧ (s.opS .x (.reg 14)).1 = some macroWord ∧
       (s.dueFull ⟨0, 0⟩).isNone = true ∧ (s.macroChecks mdSteps 0 0 0 1 2 0).toOption = some [0, 0] ∧
       s.ck.writeInFlight (macroOf 0).rows = false ∧ (s.watermark (macroOf 0).rows).isNone = true ∧ s.ck.macros.length < 2) ∧
    2 ≤ (engineState [] (fun k => { k with macros := [macroOf 0, macroOf 1] })).ck.macros.length := by
  decide +kernel

/-- RotatorCommandsAndReads: widths 0, 1, 32 and 33, a free and a full queue, legal and illegal rap operands, and indices at
and beyond 464. -/
theorem witness_RotatorCommands :
    (let s := engineState [(5, 32)] id
     (s.opV .x (.reg 2)).1 = some 0 ∧ (s.opS .x (.reg 5)).1 = some 32 ∧ (s.dueFull ⟨0, 24⟩).isNone = true ∧
       s.rotOwned.isNone = true ∧ s.ck.rotHeld s.cycle < 8 ∧ (s.readReg .x .v 8).1 = some 0 ∧
       (s.readReg .x .v 9).1 = some 0) ∧
    (8 ≤ (engineState [] (fun k => { k with
      rot := (List.range 8).map (fun n => ⟨n, 0, 0, 0, .rcl, 1, 9, false, 0⟩) })).ck.rotHeld 0) ∧
    ((0 : Word).toNat < 1 ∧ 32 < (33 : Word).toNat ∧ 1 ≤ (1 : Word).toNat ∧ (32 : Word).toNat ≤ 32) ∧
    ((464 : Word).toNat < 2 ^ 11 ∧ (464 : Word).toNat % 2 ^ 10 ≤ 464 ∧ ∀ k, k < 32 → elem 64 (0 : Row).toNat k < 2 ^ 34) ∧
    ¬ ((465 : Word).toNat % 2 ^ 10 ≤ 464) ∧ 464 < (465 : Word).toNat := by
  decide +kernel

/-- RotatorCommandsAndReads: a rotator that the launch owns, with room and with eight entries held, one that nobody owns, and one
of another launch. -/
theorem witness_RclOwners :
    (let s := engineState [] (fun k => { k with rotOwner := some 0 })
     s.dueFull ⟨0, 24⟩ = none ∧ s.ck.rotOwner ≠ none ∧ s.rotOwned.isNone = true ∧ s.ck.rotHeld s.cycle < 8) ∧
    (let s := engineState [] (fun k => { k with
       rotOwner := some 0, rot := (List.range 8).map (fun n => ⟨n, 0, 0, 0, .rcl, 1, 9, false, 0⟩) })
     s.rotOwned.isNone = true ∧ 8 ≤ s.ck.rotHeld s.cycle) ∧
    (engineState [] id).ck.rotOwner = none ∧
    (let s := engineState [] (fun k => { k with rotOwner := some 5 })
     s.ck.rotOwner = some 5 ∧ s.cx.launch ≠ some 5) := by
  decide +kernel

/-- A shot-list entry for witnesses: one row of A copied to row 4 of A on channel 3, in stage 1. -/
def copyShot : BitVec 512 := BitVec.ofNat 512 (3 * 2 ^ 4 + 2 ^ 8 + 2 ^ 9 + 2 ^ 16 + 1024 * 2 ^ 128 + 2 ^ 192 + 2 ^ 208 + 2 ^ 224)

/-- A launch with that entry at index 0, an unused one at index 1, and channels 0 to 7. -/
def copyLaunch : Launch :=
  { litLaunch with recd := litLaunch.recd.set 7 0xFF0000, shotCounts := [(0, 2)] }

/-- Its context about to issue. -/
def copyState (l : List (Nat × Word)) : State :=
  { engineState l (fun k => { k with shots := [(0, copyShot), (1, 15)] }) with launches := [(0, copyLaunch)] }

/-- CopyCommands: an index beyond the shot list, an unused entry, an entry whose channel and checks pass alone and as stage
1, and one whose channel is outside the mask. -/
theorem witness_CopyCommandsEnterTheirChannels :
    (let s := copyState [(20, 0)]
     (s.opS .x (.reg 20)).1 = some 0 ∧ s.shotRange = (0, 2) ∧ (s.dueFull ⟨0, 0⟩).isNone = true ∧
       shotKind (Assoc.get s.ck.shots 0 0).toNat = 0 ∧ shotKind (Assoc.get s.ck.shots 1 0).toNat = 15 ∧
       s.chmask.testBit (shotCh (Assoc.get s.ck.shots 0 0).toNat) = true ∧
       (s.candidates [0] s.cx.lpc.toNat).toOption.map (·.length) = some 1 ∧
       ((s.candidates [0] s.cx.lpc.toNat).toOption.map (fun l => (s.channelsStop l).isNone)) = some true ∧
       shotStage copyShot.toNat = ((s.ck.slate s.cx.launch).toNat + 1) % 2 ^ 16) ∧
    (copyState []).chmask.testBit (shotCh (8 * 2 ^ 4)) = false := by
  decide +kernel

/-- CopyCommands: the channels at 15 and beyond, inside and outside the mask, idle and active below a count. -/
theorem witness_WatermarkWaitAndChannelReset :
    ((15 : Word).toNat ≤ 15 ∧ 15 < (16 : Word).toNat) ∧
    (let s := copyState [(3, 7), (4, 2)]
     (s.opS .x (.reg 3)).1 = some 7 ∧ (s.opS .x (.reg 4)).1 = some 2 ∧ s.chmask.testBit 7 = true ∧
       s.chmask.testBit 8 = false ∧ (s.ck.chan 7).err = false ∧ (s.ck.chan 7).activeAt s.cycle = false) ∧
    (let s := (copyState []).modCk (fun k => k.modChan 7 (fun c => { c with active := true, landed := 1 }))
     (s.ck.chan 7).activeAt s.cycle = true ∧ (s.ck.chan 7).landedAt s.cycle < (2 : Word).toNat) := by
  decide +kernel

/-! ### Local memory -/

/-- The same context with its core changed. -/
def withK (l : List (Nat × Word)) (f : Core → Core) : State := (withS l).modCk f

/-- LocalLoadsAndTagOperations, LocalStoresAreSentToTheirPoint: the last row of A, one beyond it, tags full and empty, an
uncorrectable row and a live barrier row. -/
theorem witness_LocalLoadsAndStores :
    (let s := withS [(3, 0x1FFF00)]
     (s.rawOperand .m0 .s (.reg 3)).1 = some 0x1FFF00 ∧ mrRow .a 0x1FFF00 0 = some 8191 ∧ mrRow .a 0x1FFF00 1 = none ∧
       s.rowStop false (s.selPending .s (.reg 3) || s.rowPend .a 8191) .a 8191 = none ∧
       s.ck.badRows.contains (rowKey .a 8191) = false ∧ s.ck.tags.contains 8191 = false ∧ s.ck.fillPending 8191 = false ∧
       (s.rawOperand .m0 .v (.reg 2)).1 = some 0 ∧ (s.opS .m0 (.reg 3)).1 = some 0x1FFF00 ∧
       s.rowStop true (s.selPending .v (.reg 2) || s.selPending .s (.reg 3)) .a 8191 = none) ∧
    (withK [] (fun k => { k with tags := [8191] })).ck.tags.contains 8191 = true ∧
    (withK [] (fun k => { k with tags := [8191], tagUsed := [8191] })).ck.tagUsed.contains 8191 = true ∧
    (withK [] (fun k => { k with badRows := [rowKey .a 8191] })).ck.badRows.contains (rowKey .a 8191) = true ∧
    (let s := withK [] (fun k => k.setBarrier 0 { (k.barrier 0) with live := true })
     s.ck.liveRow .a 8190 = true ∧ s.ck.streamed s.cycle .a (8190 / groupRows .a) = false) := by
  decide +kernel

/-- LocalStoreWritesItsRowAlone, LocalAtomics: a store and an atomic at their point, beside no live barrier, and an atomic's
operands on the last word of A. -/
theorem witness_LocalWrites :
    Core.reset.liveRow .a 8191 = false ∧
    (let s := withS [(3, 0x1FFFF8), (4, 9)]
     (s.rawOperand .m0 .s (.reg 3)).1 = some 0x1FFFF8 ∧ (s.rawOperand .m0 .s (.reg 4)).1 = some 9 ∧
       mgOffset 0x1FFFF8 = some (.a, 0x1FFFF8) ∧
       s.rowStop true (s.selPending .s (.reg 3) || s.selPending .s (.reg 4) || s.rowPend .a 8191) .a 8191 = none ∧
       s.ck.badRows.contains (rowKey .a 8191) = false) := by
  decide +kernel

/-- ScalesFieldsMergesAndGuards: a row of W, a legal and an illegal pattern, operands read, and a guard range at and beyond
the buffer's end. -/
theorem witness_ScalesFieldsMergesAndGuards :
    (let s := withS [(3, 0x100), (4, 1)]
     (s.rawOperand .m1 .s (.reg 3)).1 = some 0x100 ∧ mrRow .w 0x100 0 = some 1 ∧
       s.rowStop false (s.selPending .s (.reg 3) || s.rowPend .w 1) .w 1 = none ∧
       s.ck.badRows.contains (rowKey .w 1) = false ∧ (patternOf (vget s.cx.xp 0)).ok = true ∧ (patternOf (3 * 2 ^ 39)).ok = false ∧
       (s.readReg .m1 .v 1).1 = some 0 ∧ (s.opS .m1 (.reg 3)).1 = some 0x100 ∧ (s.opS .m1 (.reg 4)).1 = some 1) ∧
    mgOffset (2 ^ 40) = none ∧ (mgOffset 0x1FFF00).map (·.2 / 256) = some 8191 ∧ 8191 + 1 ≤ bufRows .a ∧
    bufRows .a < 8191 + (2 : Word).toNat := by
  decide +kernel

/-- LocalStoreWritesItsRowAlone, LocalAtomics: a store, a tag store at its point with its tag full and with it empty, a row with a
live barrier, and an atomic whose trap is enabled and one whose traps are off. -/
theorem witness_LocalPoints :
    (let w : LocalWrite := ⟨.m0, .a, 8191, 0, 3, 0, 0, .store 5 true⟩
     let k (f : Core → Core) := ((withK [] f).core 0).setCtx 0 { Context.reset with localWrites := [w] }
     w.eff = .store 5 true ∧ ((k id).ctx 0).localWrites = [w] ∧ w.point ≤ 3 ∧ (k id).tags.contains w.row = false ∧
       (k (fun k => { k with tags := [8191] })).tags.contains w.row = true ∧ (k id).liveRow .a 8191 = false ∧
       (k (fun k => k.setBarrier 0 { (k.barrier 0) with live := true })).liveRow .a 8190 = true) ∧
    (let w (traps : Nat) : LocalWrite := ⟨.m0, .a, 0, 0, 3, 0, 0, .atomic .fadd 31 (0x7F8000007F800000) 0 (.s 4) traps⟩
     let old : Nat := 0xFF800000
     (w 0).eff = .atomic .fadd 31 (0x7F8000007F800000) 0 (.s 4) 0 ∧ 31 < 32 ∧
       trapIn 0 (f32add old 0x7F800000).2 = none ∧ (trapIn 31 (f32add old 0x7F800000).2).isSome = true) := by
  decide +kernel
/-! ### Global and remote accesses -/

/-- A region of near memory and one of outbound space. -/
def regionTable : Assoc (BitVec 256) :=
  [(0, BitVec.ofNat 256 (1 + 2 + 2 ^ 8 + 2 ^ 40 * 2 ^ 128)),
    (1, BitVec.ofNat 256 (1 + 3 * 2 + 2 ^ 8 + 2 ^ 40 * 2 ^ 64 + 2 ^ 41 * 2 ^ 128))]

/-- A core that holds the translations of three pages: near memory, outbound space and no region. -/
def globalState (l : List (Nat × Word)) (f : Context → Context) : State :=
  let s := (engineState l (fun k => { k with
    tlb := [⟨0, 0x10000, 0x1000, 0x3000, true, true, true, 0⟩, ⟨0, 0x20000, 0x1000, 2 ^ 40, true, true, true, 0⟩,
      ⟨0, 0x30000, 0x1000, 2 ^ 45, true, true, true, 0⟩] })).modCtx 0 0 f
  { s with mem := { s.mem with regions := regionTable } }

/-- A valid window of 4 KiB at 0x40000 that grants loads and stores. -/
def winAll : BitVec 128 := BitVec.ofNat 128 (7 + 12 * 2 ^ 4 + 0x40 * 2 ^ 12 + 5 * 2 ^ 80)

/-- The same window for loads alone. -/
def winRead : BitVec 128 := BitVec.ofNat 128 (3 + 12 * 2 ^ 4 + 0x40 * 2 ^ 12 + 5 * 2 ^ 80)

/-- A load-queue entry that awaits nothing. -/
def oldEntry : LoadEntry := entry 0 0 false none

/-- A store-queue entry with a status. -/
def storeEntry (x : StoreStatus) : StoreEntry := ⟨0, 0, .global 8, x, 0x10000, 0, none, none, 0, none⟩

/-- GlobalLoadsEnterTheQueue: a place in memory, outside the address space, in no region, in a window, and a full queue; a
predicate of zero and of ones. -/
theorem witness_GlobalLoads :
    (let s := globalState [(3, 0x10080), (4, 0x41)] id
     (s.opS .m0 (.reg 3)).1 = some 0x10080 ∧ (s.opS .m0 (.reg 4)).1 = some 0x41 ∧
       (s.loadAccess 0x10000 256).toOption = some (.memory 0x3000 0 0 0x3000) ∧
       (s.loadAccess 0x100C0 8).toOption = some (.memory 0x30C0 0 0 0x30C0) ∧ s.cx.lq.length < 32 ∧
       (match s.loadAccess (2 ^ 57) 256 with
        | .error c => c == 0x10
        | .ok _ => false) = true ∧
       (match s.loadAccess 0x30000 8 with
        | .error c => c == 0x17
        | .ok _ => false) = true ∧
       (s.readQ .m0 1).1 = some (BitVec.allOnes 64) ∧ 0x10 ∈ probeFaults ∧ 0x93 ∉ probeFaults ∧
       (match s.loadAccess 0x20000 256 with
        | .error c => c == 0x93
        | .ok _ => false) = true) ∧
    (let s := globalState [] (fun t => { t with w := vset t.w 0 winAll, q := vset t.q 1 0 })
     (s.loadAccess 0x40100 256).toOption = some (.window (some (0, 0)) (5 * 2 ^ 16 + 0x100)) ∧
       (s.loadAccess 0x40108 8).toOption.isSome = true ∧ (s.readQ .m0 1).1 = some 0) ∧
    32 ≤ (globalState [] (fun t => { t with lq := List.replicate 32 oldEntry })).cx.lq.length := by
  decide +kernel

/-- GlobalStoresAndAtomicsEnterTheQueues, FullStoreQueue: addresses outside windows, in a window that grants stores and in
one that does not, and a full queue. -/
theorem witness_GlobalStores :
    (let s := globalState [(3, 0x10080), (4, 0x41)] id
     (s.opV .m0 (.reg 2)).1 = some 0 ∧ (s.opS .m0 (.reg 3)).1 = some 0x10080 ∧ (s.opS .m0 (.reg 4)).1 = some 0x41 ∧
       s.cx.sq.length < 64 ∧ s.cx.lq.length < 32 ∧ s.cx.windowOf 0x10000 = none ∧ s.cx.windowOf 0x100C0 = none ∧
       s.cx.windowOf 0x10080 = none) ∧
    (let s := globalState [] (fun t => { t with w := vset t.w 0 winAll })
     s.cx.windowOf 0x40000 = some (0, winAll.toNat) ∧
       (windowAccess 0 winAll.toNat 0x40000 256 .store).toOption.isSome = true ∧
       (windowAccess 0 winAll.toNat 0x40008 8 .store).toOption.isSome = true ∧
       (windowAccess 0 winAll.toNat 0x40008 8 .atomic).toOption.isSome = true) ∧
    (match windowAccess 0 winRead.toNat 0x40000 256 .store with
      | .error c => c == 0x16
      | .ok _ => false) = true ∧
    (let s := globalState [] (fun t => { t with sq := List.replicate 64 (storeEntry .held) })
     s.cx.sq.length = 64 ∧ s.cx.sq.all (fun e => e.status == .held) = true ∧ s.cx.windowOf 0x10000 = none) ∧
    (globalState [] (fun t => { t with sq := List.replicate 64 (storeEntry .committed) })).cx.sq.any
      (fun e => e.status != .held) = true := by
  decide +kernel

/-- GlobalLoadsEnterTheQueue, FullStoreQueue: a row and a word of outbound space, a page that is not translated, a full load queue,
and a full store queue with and without a window. -/
theorem witness_OutboundAndFullQueues :
    (let s : State := { globalState [] id with busMaster := true }
     (s.loadAccess 0x20000 256).toOption = some (.outbound 0) ∧ (s.loadAccess 0x20008 8).toOption = some (.outbound 8) ∧
       (outboundParts s.readSize 0 256).isEmpty = false ∧
       (match s.loadAccess 0x50000 256, s.loadAccess 0x50008 8 with
        | .ok (.miss _), .ok (.miss _) => true
        | _, _ => false) = true) ∧
    (let s := globalState [] (fun t => { t with lq := List.replicate 32 oldEntry })
     (s.loadAccess 0x100C0 8).toOption.isSome = true ∧ 32 ≤ s.cx.lq.length ∧ s.cx.windowOf 0x100C0 = none) ∧
    (let s := globalState [] (fun t => { t with w := vset t.w 0 winAll, sq := List.replicate 64 (storeEntry .held) })
     s.cx.sq.length = 64 ∧ s.cx.lq.length < 32 ∧ s.cx.windowOf 0x40008 = some (0, winAll.toNat) ∧
       (windowAccess 0 winAll.toNat 0x40008 8 .store).toOption.isSome = true ∧
       (windowAccess 0 winAll.toNat 0x40008 8 .atomic).toOption.isSome = true ∧ s.cx.windowOf 0x100C0 = none) := by
  decide +kernel

/-- RemoteOperationsEnterTheQueues, ClapsAndFences: operands of a privileged context, a scope of KIND 1 and an empty one, and
a context with and without a guard fault. -/
theorem witness_RemoteOperations :
    (let s := globalState [(3, 0x500C0), (4, 2)] (fun t => { t with priv := true, scopes := vset t.scopes 3 1 })
     (s.opV .m0 (.reg 2)).1 = some 0 ∧ (s.opS .m0 (.reg 3)).1 = some 0x500C0 ∧ (s.opS .m0 (.reg 4)).1 = some 2 ∧
       (s.remoteAccess 0x50000 256 .store).toOption = some (none, 0x50000) ∧
       (s.remoteAccess 0x50000 256 .load).toOption.isSome = true ∧
       (s.remoteAccess 0x500C0 8 .atomic).toOption.isSome = true ∧ (s.remoteAccess 0x500C0 4 .atomic).toOption.isSome = true ∧
       s.cx.lq.length < 32 ∧ s.cx.sq.length < 64 ∧ (s.readRegs .m0 60 4).1 = some [0, 0, 0, 0] ∧
       s.issue.gfrec.msb = false ∧ (vget s.cx.scopes 3).toNat % 4 ≠ 0 ∧ (vget s.cx.scopes 2).toNat % 4 = 0 ∧ s.cx.priv = true ∧
       (s.opS .s0 (.reg 3)).1 = some 0x500C0 ∧ (s.opS .s0 (.reg 4)).1 = some 2) ∧
    (globalState [] (fun t => { t with priv := false })).cx.priv = false ∧
    (let s := globalState [] id
     ({ s with issue := { s.issue with gfrec := 1 <<< 63 } } : State).issue.gfrec.msb = true) := by
  decide +kernel

/-- The context of launch 0 with barrier 3 live and owned by a launch. -/
def barState (owner : Nat) (part ar : BitVec 64) : State :=
  (engineState [(3, 7)] (fun k => k.setBarrier 3 ⟨2, 0, 0, false, true, owner, 0⟩)).modCtx 0 0
    (fun t => { t with part := part, ar := ar })

/-- NamedBarrierForms: a live barrier that the launch owns, as a participant that has and has not arrived, one of another
launch, and one that is not live. -/
theorem witness_NamedBarrierForms :
    (let s := barState 0 8 0
     s.issue.gfrec.msb = false ∧ (s.barView.barrier 3).live = true ∧ s.cx.launch = some (s.barView.barrier 3).owner ∧
       (s.barView.ctx s.issue.ctx).ar.getLsbD 3 = false ∧ (s.barView.ctx s.issue.ctx).part.getLsbD 3 = true ∧
       s.cx.ar.getLsbD 3 = false ∧ (s.opS .m0 (.reg 3)).1 = some 7 ∧ (s.barView.barrier 4).live = false ∧
       s.ck.aboveAny s.cycle .a ((0x1FFE00 + 8 * 4) / 256) = false) ∧
    (let s := barState 0 8 8
     (s.barView.ctx s.issue.ctx).ar.getLsbD 3 = true ∧ s.cx.ar.getLsbD 3 = true) ∧
    (let s := barState 1 8 0
     s.cx.launch ≠ some (s.barView.barrier 3).owner) := by
  decide +kernel

/-- A state whose context has a popped and an unpopped load and two held stores, one in near memory and one in no region. -/
def heldState (after mark : Bool) (addr : Nat) : State :=
  let s := globalState [] (fun t => { t with
    lq := [entry 1 0 true none, entry 3 0 false none], seq := 4
    sq := [{ storeEntry .held with seq := 2, addr := addr }, { storeEntry .held with seq := 4 }] })
  { s with issue := { s.issue with after := after, mark := mark } }

/-- RestartPointsCommitTheRegion: a region that commits, one whose translation faults and one that misses; bundles that commit
after themselves, are marked, and do neither. -/
theorem witness_RestartPointsCommitTheRegion :
    (match (heldState true false 0x10000).commitHeld 0 0 4 [1] with | .done _ => true | _ => false) = true ∧
    (match (heldState true false 0x30000).commitHeld 0 0 4 [1] with | .fault c => c == 0x17 | _ => false) = true ∧
    (match (heldState true false 0x50000).commitHeld 0 0 4 [1] with | .miss l => l.length == 1 | _ => false) = true ∧
    (let s := heldState false true 0x10000
     s.issue.core = 0 ∧ s.issue.ctx = 0 ∧ s.issue.exits = false ∧ s.issue.yields = false ∧ s.issue.after = false ∧
       s.issue.mark = true ∧ (heldState false false 0x10000).issue.mark = false ∧
       (s.modCtx 0 0 (fun t => { t with atRestart := false })).cx.atRestart = false) := by
  decide +kernel

/-- BarrierFormsTakeEffectAtTheCommit: an arrival that completes its generation and one that does not, a departure of a
participant before and after its arrival, and one of no participant. -/
theorem witness_BarrierForms :
    (let k := (barState 0 8 0).core 0
     (k.ctx 0).launch = some 0 ∧ ¬ (1 ≤ (k.barrier 3).count ∧ (k.barrier 3).arrived + 1 = (k.barrier 3).count) ∧
       (k.ctx 0).part.getLsbD 3 = true ∧ (k.ctx 0).part.getLsbD 4 = false ∧ (k.ctx 0).ar.getLsbD 3 = false ∧
       (let y := (k.setBarrier 3 { (k.barrier 3) with count := 1 }).barrier 3
        1 ≤ y.count ∧ y.arrived + 1 = y.count ∧ y.count ≤ 1)) ∧
    (((barState 0 8 8).core 0).ctx 0).ar.getLsbD 3 = true := by
  decide +kernel
/-! ### Steps of contexts and engines -/

/-- ContextsWakeRestartAndHang: a blocked context, a restarting one, and one whose command has hung for 2^24 cycles. -/
theorem witness_ContextsWakeRestartAndHang :
    (at0 (fun t => { t with mode := .blocked })).mayWake 0 0 = true ∧
    (at0 (fun t => { t with mode := .restarting })).mayRestart 0 0 = true ∧
    (let s := (at0 (fun t => { t with mode := .blocked, due := [⟨0, 0, true, true, some 0⟩] })).modCore 0
      (fun k => { k with array := [arrayCmd 0] })
     ({ s with cycle := 2 ^ 24 } : State).hung 0 0 = true ∧ ({ s with cycle := 2 ^ 24 - 1 } : State).hung 0 0 = false) := by
  decide +kernel

/-- A core whose context 0, at its first bundle, has user interrupts enabled and one pending. -/
def uintState (uvec : Nat) : State :=
  { at0 (fun t => { t with uctl := BitVec.ofNat 64 (3 + 4 * uvec), uip := 1, atRestart := true }) with
    launches := [(0, { fetchLaunch with recd := fetchLaunch.recd.set 2 0x10 })] }

/-- UserInterruptEntry: an interrupt that may be delivered, to a handler inside the image and outside it. -/
theorem witness_UserInterruptEntry :
    let s := uintState 0
    let s1 := s.modCore 0 (fun k => (k.landDue 0 (k.ctx 0).cc).performDue 0 (k.ctx 0).cc)
    s.mayDeliver 0 0 = true ∧ (uintState 16).mayDeliver 0 0 = true ∧
      (match s1.commitHeld 0 0 (s1.ctxOf 0 0).seq (s1.ctxOf 0 0).heldPops with
        | .done _ => true
        | _ => false) = true ∧
      (s1.launch? (s1.ctxOf 0 0).launch).map (fun l => l.inImage ((s1.ctxOf 0 0).uctl.toNat / 4 % 2 ^ 14)) = some true ∧
      (s1.launch? (s1.ctxOf 0 0).launch).map (fun l => l.inImage 16) = some false := by
  decide +kernel

/-- RepInstancesRunInTheirCycle: an instance that is due in the context that issues. -/
theorem witness_RepInstances :
    let p : Pending := ⟨.s1, heldAdd, 0, 0, 0⟩
    let s := at0 (fun t => { t with chain := [p] })
    (s.ctxOf 0 0).dueInstance = some p ∧ (s.core 0).cur = some 0 := by
  decide +kernel

/-- A remote operation sent in cycle 0. -/
def remoteOf (lq sq : Option Nat) (copy : Option (Nat × Nat × Nat)) : RemoteOp := ⟨5, 1, 0, 0, lq, sq, 0, 1, true, copy⟩

/-- A sequence entry last seen in cycle 0. -/
def seqEntry : SeqEntry := ⟨0, 0, 4, 1, [], 0⟩

/-- QueueEvents: an answer that waits, a committed store, an operation and a sequence entry at their time-outs. -/
theorem witness_QueueEvents :
    (let s := (at0 id).modCore 0 (fun k => { k with returns := [⟨0, 0, 1, 0, [7], none⟩], seqTable := [seqEntry] })
     (s.core 0).returns[0]? = some ⟨0, 0, 1, 0, [7], none⟩ ∧ (s.core 0).seqTable[0]? = some seqEntry) ∧
    (let s := at0 (fun t => { t with sq := [{ storeEntry .committed with pa := some (0x3000, 0, .memory 0 0x3000) }] })
     (s.storeReady 0 0).isSome = true) ∧
    (let s : State := { at0 (fun t => { t with remote := [remoteOf none none none] }) with cycle := 2 ^ 24 }
     (s.core 0).remoteOps[0]? = some (0, remoteOf none none none) ∧ (remoteOf none none none).cls = 0 ∧
       (remoteOf none none none).sentAt + 2 ^ 24 ≤ s.cycle ∧ (s.ctxOf 0 0).launch ≠ none ∧ (s.ctxOf 0 0).seqBase ≤ 1) ∧
    (let s : State := { State.reset with cycle := 2 ^ 25, fab := { Fabric.reset with seqTable := [seqEntry] } }
     seqEntry.lastSeen + 2 ^ 25 ≤ s.cycle ∧ s.fab.seqTable[0]? = some seqEntry) ∧
    (let s : State := { State.reset.modCore 0 (fun k => { k with seqTable := [seqEntry] }) with cycle := 2 ^ 25 }
     seqEntry.lastSeen + 2 ^ 25 ≤ s.cycle ∧ (s.core 0).seqTable[0]? = some seqEntry ∧ (0 : Nat) ≠ 511) := by
  decide +kernel

/-- A committed entry with an operation. -/
def committed (op : StoreOp) (w : Option (Nat × Nat)) : StoreEntry :=
  ⟨0, 7, op, .committed, 0x3000, 0, none, w, fabric 1 2 0 0, some (0x3000, 0, .memory 0 0x3000)⟩

/-- A context of a launch with one store-queue entry. -/
def sendState (e : StoreEntry) : State := at0 (fun t => { t with sq := [e] })

/-- QueueEvents: a store and an atomic of memory, remote stores whose window stands and has changed, and an operation of a
load-queue entry. -/
theorem witness_QueueSends :
    (let e := committed (.global 8) none
     (sendState e).storeReady 0 0 = some e ∧ e.op = .global 8 ∧ e.pa = some (0x3000, 0, .memory 0 0x3000)) ∧
    (let e := committed (.globalAtomic .add 0) none
     (sendState e).storeReady 0 0 = some e ∧ e.op = .globalAtomic .add 0) ∧
    (let e := committed .remoteStore none
     (sendState e).storeReady 0 0 = some e ∧ e.op = .remoteStore ∧ e.lq = none ∧
       ((sendState e).ctxOf 0 0).stale e.window = false) ∧
    (let e := committed .remoteStore (some (0, 0))
     let s := sendState e
     s.storeReady 0 0 = some e ∧ (s.ctxOf 0 0).stale e.window = true ∧ (s.ctxOf 0 0).launch ≠ none ∧
       (s.ctxOf 0 0).seqBase ≤ e.seq ∧ (s.ctxOf 0 0).ucause.toNat % 2 ^ 13 = 0) ∧
    (let s : State := { at0 (fun t => { t with remote := [remoteOf (some 1) none none] }) with cycle := 2 ^ 24 }
     (s.core 0).remoteOps[0]? = some (0, remoteOf (some 1) none none) ∧ (s.ctxOf 0 0).ucause.toNat % 2 ^ 13 = 0 ∧
       (s.ctxOf 0 0).tagHeld = false) := by
  decide +kernel

/-- MatrixEngineEvents: a command that may start, one that is complete, and a macro whose next step may be handed over. -/
theorem witness_MatrixEngineEvents :
    (let s := engineState [] (fun k => { k with array := [arrayCmd 0] })
     let u : State := { s with cycle := 9 }
     (u.core 0).array.findIdx? (fun c => !c.started) = some 0 ∧ (u.core 0).array[0]? = some (arrayCmd 0) ∧
       (arrayCmd 0).start ≤ u.cycle) ∧
    (let s := engineState [] (fun k => { k with array := [{ arrayCmd 0 with started := true }] })
     let u : State := { s with cycle := 12 }
     (u.core 0).array.findIdx? (fun c => c.started && c.writes.isEmpty && c.complete ≤ u.cycle) = some 0) ∧
    (let s := engineState [] (fun k => { k with macros := [macroOf 0] })
     (s.core 0).macroReady s.cycle = true ∧ (s.core 0).macroNow = some (macroOf 0) ∧ (macroOf 0).stopped = false ∧
       (macroOf 0).dc ≠ 0) := by
  decide +kernel

/-- MatrixEngineEvents: a macro with DC = 0 at its first and at a later step, writes of a clear and of an mm of one step that are
due, in the first and in the last row, and an mm of one step with its rows, with and without ZERO. -/
theorem witness_MatrixRows :
    (let m := { macroOf 0 with dc := 0 }
     let s := engineState [] (fun k => { k with macros := [m] })
     (s.core 0).macroReady s.cycle = true ∧ (s.core 0).macroNow = some m ∧ m.dc = 0 ∧ m.step = 0) ∧
    (let m := { macroOf 0 with dc := 0, step := 1 }
     let s := engineState [] (fun k => { k with macros := [m] })
     (s.core 0).macroReady s.cycle = true ∧ (s.core 0).macroNow = some m ∧ m.step ≠ 0) ∧
    (let a := { arrayCmd 0 with started := true, writes := [3] }
     let k := { Core.reset with array := [a] }
     k.array[0]? = some a ∧ a.writes = 3 :: [] ∧ (3 : Nat) ≤ 3 ∧ a.writing = true ∧ ([] : List Nat).length < 128) ∧
    (let a := { arrayCmd 0 with writes := List.range 128 }
     let k := { Core.reset with array := [a] }
     k.array[0]? = some a ∧ a.writes = 0 :: (List.range 127).map (· + 1) ∧ a.writing = true ∧
       ((List.range 127).map (· + 1)).length = 127) ∧
    (let a := { arrayCmd 0 with op := .mm mdSteps 0 0 e2m1 e2m1 true, rows := [⟨[1], [], [1], [], []⟩] }
     a.op = .mm mdSteps 0 0 e2m1 e2m1 true ∧ a.more = [] ∧ a.rows = [⟨[1], [], [1], [], []⟩]) ∧
    (let a := { arrayCmd 0 with op := .mm mdSteps 0 0 e2m1 e2m1 false, rows := [⟨[], [], [], [], []⟩] }
     a.op = .mm mdSteps 0 0 e2m1 e2m1 false) ∧
    (shapeOf mdSteps.toNat 0 0).n = 0 ∧ (∀ v ∈ [Val.zero false, .zero true], v ≠ .nan ∧ v ≠ .inf false ∧ v ≠ .inf true) := by
  decide +kernel

/-- A rotator command for witnesses. -/
def rotOf (op : RotOp) (started : Bool) : RotCmd := ⟨0, 0, 0, 0, op, 1, 9, started, 0⟩

/-- RotatorEngineEvents: an rcl, a rap and rqrs of widths 1 and 32 that may start, an rcl and an rqr that are complete. -/
theorem witness_RotatorEngineEvents :
    (let s : State := { engineState [] (fun k => { k with rot := [rotOf .rcl false] }) with cycle := 1 }
     (s.core 0).rot.findIdx? (fun c => !c.started) = some 0 ∧ (s.core 0).rot[0]? = some (rotOf .rcl false) ∧
       (rotOf .rcl false).start ≤ s.cycle) ∧
    (let a := rotOf (.rap 0 true false 0 0) false
     let s : State := { engineState [] (fun k => { k with rot := [a] }) with cycle := 1 }
     (s.core 0).rot.findIdx? (fun c => !c.started) = some 0 ∧ (s.core 0).rot[0]? = some a ∧ a.start ≤ s.cycle ∧
       a.op = .rap 0 true false 0 0) ∧
    (let a := rotOf (.rqr 1 0) false
     let s : State := { engineState [] (fun k => { k with rot := [a] }) with cycle := 1 }
     (s.core 0).rot.findIdx? (fun c => !c.started) = some 0 ∧ (s.core 0).rot[0]? = some a ∧ a.op = .rqr 1 0) ∧
    (let a := rotOf (.rqr 32 0) false
     let s : State := { engineState [] (fun k => { k with rot := [a] }) with cycle := 1 }
     (s.core 0).rot.findIdx? (fun c => !c.started) = some 0 ∧ (s.core 0).rot[0]? = some a ∧ a.op = .rqr 32 0) ∧
    (let s : State := { engineState [] (fun k => { k with rot := [rotOf .rcl true] }) with cycle := 9 }
     (s.core 0).rot.findIdx? (fun c => c.started && c.complete ≤ s.cycle) = some 0) ∧
    (let s : State := { engineState [] (fun k => { k with rot := [rotOf (.rqr 4 0) true] }) with cycle := 9 }
     (s.core 0).rot.findIdx? (fun c => c.started && c.complete ≤ s.cycle) = some 0 ∧ (rotOf (.rqr 4 0) true).op ≠ .rcl) := by
  decide +kernel

/-- The entry of copyShot, its row issued, with a follow-on, an error and landed rows. -/
def copyEntry (follow : Bool) (bad : Option Nat) (done : List Nat) : CopyEntry :=
  ⟨1, 0, 0, 0, 0, 0, 0, 0, copyShot, [], 0, [], [],
    if follow then some (mdSteps, 0, 0, e2m1, e2m1) else none, 1, 0, done, [], [], bad, none⟩

/-- A channel with that entry. -/
def chanState (active : Bool) (landed : Nat) (e : CopyEntry) : State :=
  { engineState [] (fun k => k.modChan 3 (fun c => { c with queue := [e], active := active, landed := landed })) with
    cycle := 5 }

/-- CopyChannelEvents: an entry that may start, a row that may land, a follow-on, a complete entry and an error. -/
theorem witness_CopyChannelEvents :
    (let s := chanState false 0 (copyEntry false none [])
     ((s.core 0).chan 3).mayStart s.cycle = true ∧ ((s.core 0).chan 3).queue.head? = some (copyEntry false none [])) ∧
    (let e := { copyEntry false none [] with arrived := (List.range 4).map (fun p => (0, p, 0)) }
     (chanState true 0 e).rowReady 0 3 0 = true ∧ (((chanState true 0 e).core 0).chan 3).queue.head? = some e ∧
       e.place 0 true = .row .a 4) ∧
    (let e := { copyEntry false none [] with entry := copyShot ||| 2 ^ 10, arrived := (List.range 4).map (fun p => (0, p, 0)) }
     (chanState true 0 e).rowReady 0 3 0 = true ∧ e.place 0 true = .row .a 4 ∧ shotTagFill e.entry.toNat = true) ∧
    (chanState true 1 (copyEntry true none [])).followReady 0 3 = true ∧
    (chanState true 1 (copyEntry false none [])).entryDone 0 3 = true ∧
    (let s := chanState true 0 (copyEntry false (some 0x26) [])
     ((s.core 0).chan 3).queue.head? = some (copyEntry false (some 0x26) []) ∧ ((s.core 0).chan 3).err = false) := by
  decide +kernel

/-! ### Packets -/

/-- A packet to core 1 of package 0, offset off of its A buffer, from core 2 of package 0. -/
def pkt (cls opc oparg off n : Nat) : Packet :=
  Packet.new cls opc oparg (fabric 0 1 0 off) (srcOf 0 2 0) 7 5 (List.replicate n 3)

/-- A package whose core 1 has received that packet. -/
def rxState (p : Packet) (f : Core → Core) : State := State.reset.modCore 1 (fun k => f { k with rx := [.packet none p] })

/-- StorePacketsAtACore, LoadAndAtomicPacketsAtACore: stores and loads accepted, a duplicate, a store beyond the buffer, an
atomic, and an uncorrectable row excluded. -/
theorem witness_PacketsAtACore :
    (let p := pkt 0 0x01 0 0x1FFF00 4
     let s := rxState p id
     s.rxAt 1 0 [0x01] = some p ∧ (s.core 1).rxWork = none ∧ (s.core 1).rxFault p = none ∧
       (classify (s.core 1).seqTable p.src p.cls p.seq s.cycle).1 = .accept) ∧
    (let p := pkt 0 0x0E 0 0x100 8
     (rxState p id).rxAt 1 0 [0x0E] = some p ∧ ((rxState p id).core 1).rxFault p = none) ∧
    (let p := pkt 0 0x01 0 0 4
     let s := rxState p (fun k => { k with seqTable := [⟨p.src, 0, 7, 1, [], 0⟩] })
     s.rxAt 1 0 [0x01] = some p ∧ (classify (s.core 1).seqTable p.src p.cls p.seq s.cycle).1 = .duplicate) ∧
    (let p := pkt 0 0x01 0 0 4
     let s := rxState p (fun k => { k with seqTable := [⟨p.src, 0, 100, 1, [], 0⟩] })
     s.rxAt 1 0 [0x01] = some p ∧ (classify (s.core 1).seqTable p.src p.cls p.seq s.cycle).1 = .stale) ∧
    (let p := pkt 0 0x01 0 0x200000 4
     (rxState p id).rxAt 1 0 [0x01] = some p ∧ ((rxState p id).core 1).rxFault p = some 0x86 ∧
       (classify ((rxState p id).core 1).seqTable p.src p.cls p.seq 0).1 = .accept) ∧
    (let p := pkt 0 0x02 1 0x300 0
     let s := rxState p id
     s.rxAt 1 0 [0x02] = some p ∧ (s.core 1).rxFault p = none ∧
       (classify (s.core 1).seqTable p.src p.cls p.seq s.cycle).1 ≠ .full ∧ (s.core 1).rxWork = none ∧
       (s.core 1).badRows.contains (rowKey .a 3) = false ∧ (Packet.rowsOf p).2.2 = 1) ∧
    (let p := pkt 0 0x0F 2 0x300 0
     (rxState p id).rxAt 1 0 [0x0F] = some p ∧ ((rxState p id).core 1).rxFault p = none ∧ (Packet.rowsOf p).2.2 ≠ 1) ∧
    (let p := pkt 0 0x06 0 0x308 1
     let s := rxState p id
     s.rxAt 1 0 [0x06] = some p ∧ (s.core 1).rxFault p = none ∧
       (classify (s.core 1).seqTable p.src p.cls p.seq s.cycle).1 = .accept ∧ (Packet.amo p).isSome = true ∧
       amoOfCode 0 = some .add ∧ (Packet.amo p).map (·.op) = some 0) ∧
    (let p := pkt 0 0x06 0 0x308 1
     let s := rxState p (fun k => { k with seqTable := [⟨p.src, 0, BitVec.ofNat 32 p.seq, 1, [(p.seq % 16, BitVec.ofNat 32 p.seq, 9)], 0⟩] })
     s.rxAt 1 0 [0x06] = some p ∧ (classify (s.core 1).seqTable p.src p.cls p.seq s.cycle).1 = .duplicate ∧
       resOf (s.core 1).seqTable p.src p.cls p.seq = some 9) ∧
    (let p := pkt 0 0x01 0 0 4
     let s := rxState p (fun k => { k with seqTable := List.replicate 4096 ⟨0, 7, 0, 1, [], 0⟩ })
     s.rxAt 1 0 [0x01] = some p ∧ (classify (s.core 1).seqTable p.src p.cls p.seq s.cycle).1 = .full) := by
  decide +kernel

/-- A response for context 0 of core 1. -/
def rsp (opc n : Nat) : Packet := Packet.new 1 opc 0 (fabric 0 1 0 0) (srcOf 0 2 0) 7 5 (List.replicate n 3)

/-- Core 1 with that response, and an operation that awaits it. -/
def rspState (p : Packet) (r : RemoteOp) : State :=
  rxState p (fun k => k.setCtx 0 { (k.ctx 0) with remote := [r], launch := some 0 })

/-- ResponsesEndTheirOperations: responses that an operation awaits, of each kind, and one that none awaits. -/
theorem witness_Responses :
    (((rxState (rsp 3 4) id).modCore 1 (fun k => { k with rx := k.rx.eraseIdx 0 })).answered 1 (rsp 3 4) = none ∧
      (rxState (rsp 3 4) id).rxAt 1 0 [0x03] = some (rsp 3 4)) ∧
    (let r := remoteOf (some 1) none none
     let s := rspState (rsp 3 4) r
     (s.modCore 1 (fun k => { k with rx := k.rx.eraseIdx 0 })).answered 1 (rsp 3 4) = some (0, r) ∧ r.lq = some 1) ∧
    (rspState (rsp 7 1) (remoteOf (some 1) none none)).rxAt 1 0 [0x07] = some (rsp 7 1) ∧
    (let r := remoteOf none (some 1) none
     (rspState (rsp 8 0) r).rxAt 1 0 [0x08] = some (rsp 8 0) ∧ (rsp 8 0).status = 0 ∧ r.copy = none ∧ r.sq = some 1) ∧
    (let r := remoteOf none (some 1) none
     let s := rspState (rsp 0x0C 0) r
     s.rxAt 1 0 [0x0C] = some (rsp 0x0C 0) ∧ (s.ctxOf 1 0).launch ≠ none ∧ (s.ctxOf 1 0).seqBase ≤ r.seq) ∧
    (let r := remoteOf none none (some (3, 1, 0))
     (rspState (rsp 0x10 4) r).rxAt 1 0 [0x10] = some (rsp 0x10 4) ∧ (rsp 0x10 4).len = 4 ∧
       (rspState (rsp 0x0C 0) r).rxAt 1 0 [0x0C] = some (rsp 0x0C 0) ∧ r.copy = some (3, 1, 0)) ∧
    (let p := { rsp 8 0 with status := 0x8F }
     let r := remoteOf (some 1) none none
     let s := rspState p r
     s.rxAt 1 0 [0x08] = some p ∧ p.status ≠ 0 ∧ r.copy = none ∧ r.lq = some 1 ∧ p.status < 256 ∧
       (s.ctxOf 1 0).ucause.toNat % 2 ^ 13 = 0 ∧
       (s.modCore 1 (fun k => { k with rx := k.rx.eraseIdx 0 })).answered 1 p = some (0, r)) := by
  decide +kernel

/-- A packet on the Z die. -/
def zOf (p : Packet) : ZPacket := ⟨none, none, false, false, p⟩

/-- A packet to slot 0 of ring 0 of this package. -/
def ringPkt (opc oparg n : Nat) : Packet := Packet.new 0 opc oparg (fabric 0 511 1 0) (srcOf 0 2 0) 7 5 (List.replicate n 3)

/-- The Z die with a packet handed over, ring 0 of 4 slots for 2 readers, and its full slots. -/
def ringState (p : Packet) (slots : Assoc (Nat × List Flit)) : State :=
  { State.reset with fab := { Fabric.reset with
      handed := [zOf p], rings := [(0, BitVec.ofNat 64 (2 * 2 ^ 48 + 4 * 2 ^ 40))], ringSlots := slots } }

/-- RingAccesses: an empty slot, a full one, one with one and with two readers left, and a management packet. -/
theorem witness_RingAccesses :
    (let p := ringPkt 0x0E 0 16
     let s := ringState p []
     s.ringAt 0 0x01 0x0E = some (zOf p) ∧ (s.dropHanded 0).ringPlace p.dest = some (0, 0) ∧ p.len = 16 ∧
       (zOf p).fan = none ∧
       (classify (s.dropHanded 0).fab.seqTable p.src p.cls p.seq (s.dropHanded 0).cycle).1 = .accept ∧
       Assoc.find (s.dropHanded 0).fab.ringSlots 0 = none ∧
       (Assoc.find ((ringState p [(0, (2, [9]))]).dropHanded 0).fab.ringSlots 0).isSome = true) ∧
    (let p := ringPkt 0x0F 4 0
     let s := ringState p [(0, (2, [9]))]
     s.ringAt 0 0x02 0x0F = some (zOf p) ∧ (s.dropHanded 0).ringPlace p.dest = some (0, 0) ∧ p.oparg = 4 ∧
       (classify (s.dropHanded 0).fab.seqTable p.src p.cls p.seq (s.dropHanded 0).cycle).1 ≠ .full ∧
       Assoc.find (s.dropHanded 0).fab.ringSlots 0 = some (2, [9]) ∧
       Assoc.find ((ringState p [(0, (1, [9]))]).dropHanded 0).fab.ringSlots 0 = some (1, [9])) ∧
    (ringState (ringPkt 0x0D 0 0) []).handedAt 0 0x0D = some (zOf (ringPkt 0x0D 0 0)) := by
  decide +kernel

/-- RingAccesses: a packet that has been handed over before. -/
theorem witness_RepeatedRingWrite :
    let p := ringPkt 0x0E 0 16
    let s := ringState p []
    let u : State := s.setZTable [⟨p.src, 0, 7, 1, [], 0⟩]
    u.ringAt 0 0x01 0x0E = some (zOf p) ∧ (classify u.fab.seqTable p.src p.cls p.seq u.cycle).1 = .duplicate := by
  decide +kernel

/-- A package 0 with a packet that waits for routing, ports 3 up, and a route to package 9 over port 3. -/
def zState (z : ZPacket) : State :=
  { State.reset with
    zin := [z]
    fab := { Fabric.reset with
      routes := [(4 * 9, BitVec.ofNat 256 (2 ^ 192 + 3 * 2 ^ 25))]
      active := [(0, ⟨BitVec.ofNat 512 (1 + 5 * 2 ^ 88), []⟩)] } }.modPort 3 (fun x => { x with st := .up })

/-- A read request with a route stack. -/
def routed (pkg : Nat) (l : List (BitVec 32)) : ZPacket :=
  zOf ((Packet.new 0 0x02 1 (fabric pkg 1 0 0) (srcOf 0 2 0) 7 5 []).withStack l).sealed

/-- A commit packet for group 0's node, with COMBINE on its stack. -/
def grouped : ZPacket :=
  zOf ((Packet.new 4 0x0A 0 (fabric 9 511 0 0) (srcOf 0 2 0) 7 5 []).withStack [rtEntry 2 5]).sealed

/-- PacketsFollowTheirRoutes: packets at each stage: to this package, to another with and without a live route, forwarded,
with an unknown operation, delivered, combined and fanned out. -/
theorem witness_PacketsFollowTheirRoutes :
    (let z := routed 0 []
     (zState z).zAt 0 = some z ∧ (zState z).zStage z = .fill ∧ faPkg z.pkt.dest = (zState z).pkgId ∧
       Packet.toNode z.pkt = false) ∧
    (let z := routed 9 []
     (zState z).zStage z = .fill ∧ faPkg z.pkt.dest ≠ (zState z).pkgId ∧
       (zState z).selectRoute z.pkt = some [BitVec.ofNat 32 (3 * 2 ^ 25)]) ∧
    (let z := routed 8 []
     (zState z).zStage z = .fill ∧ (zState z).selectRoute z.pkt = none) ∧
    (let z := routed 9 [BitVec.ofNat 32 (3 * 2 ^ 25)]
     (zState z).zStage z = .fwd ∧ rtArg z.pkt.top = 0 ∧ (zState z).portUp (rtPort z.pkt.top) = true ∧ z.pkt.pop.hops ≠ 8) ∧
    (let z : ZPacket := zOf { (routed 9 [BitVec.ofNat 32 (3 * 2 ^ 25)]).pkt with hops := 7 }
     (zState z).zStage z = .fwd ∧ z.pkt.pop.hops = 8) ∧
    (let z := routed 9 [BitVec.ofNat 32 (4 * 2 ^ 25)]
     (zState z).zStage z = .fwd ∧ rtArg z.pkt.top = 0 ∧ (zState z).portUp (rtPort z.pkt.top) = false ∧
       (zState z).selectRoute z.pkt.pop = some [BitVec.ofNat 32 (3 * 2 ^ 25)] ∧ z.pkt.pop.hops + 1 ≤ 8) ∧
    (let z : ZPacket := zOf { (routed 9 [BitVec.ofNat 32 (4 * 2 ^ 25)]).pkt with hops := 7 }
     (zState z).zStage z = .fwd ∧ (zState z).portUp (rtPort z.pkt.top) = false ∧
       (zState z).selectRoute z.pkt.pop = some [BitVec.ofNat 32 (3 * 2 ^ 25)] ∧ 8 < z.pkt.pop.hops + 1) ∧
    (let z := routed 8 [BitVec.ofNat 32 (4 * 2 ^ 25)]
     (zState z).zStage z = .fwd ∧ (zState z).portUp (rtPort z.pkt.top) = false ∧ (zState z).selectRoute z.pkt.pop = none) ∧
    (let z := routed 0 [rtEntry 4 0]
     (zState z).zStage z = .bad) ∧
    (let z := routed 0 [rtEntry 1 0]
     (zState z).zStage z = .deliver ∧ rtPort z.pkt.top = 0 ∧ rtArg z.pkt.top = 0 ∧ faPkg z.pkt.dest = (zState z).pkgId ∧
       z.pkt.pop.depth = 0) ∧
    (let z := grouped
     (zState z).zStage z = .combine ∧ rtPort z.pkt.top = 0 ∧ rtArg z.pkt.top < 2 ^ 14 ∧ z.poison = false ∧
       z.pkt.ecrc = z.pkt.crc ∧ (((zState z).takeZ 0).group z.pkt.group).map (fun h => h.f 101 88) = some (rtArg z.pkt.top) ∧
       Packet.toNode z.pkt = true) ∧
    (let z := routed 0 [rtEntry 3 4095]
     (zState z).zStage z = .fanout ∧ rtPort z.pkt.top = 0 ∧ rtArg z.pkt.top < 2 ^ 12 ∧ z.pkt.pop.hops < 8) := by
  decide +kernel

/-- The acknowledgement of a copy at core 2. -/
def ackZ : ZPacket :=
  zOf (Packet.new 1 0x08 0 (replyDest (srcOf 0 5 0)) (srcOf 0 2 0) 7 5 []).sealed

/-- The Z die with that acknowledgement and a point with copies at core 2 and another place. -/
def fanState (copies : List (Nat × Nat)) : State :=
  { State.reset with
    zin := [ackZ], cycle := 2 ^ 20
    fab := { Fabric.reset with
      fans := [⟨4, 1, Packet.new 0 0x01 0 0 (srcOf 0 5 0) 7 5 [], none, .sender, copies, false, 0⟩] } }

/-- FanOutPointsSettle: the acknowledgement of the last copy and of one of two, and copies that have waited 2^20 cycles. -/
theorem witness_FanOutPointsSettle :
    [[(130, 0)], [(130, 0), (3, 0)]].all (fun l =>
      let s := fanState l
      s.zAt 0 == some ackZ && s.fanOf ackZ == some (4, 130) && !ackZ.invalid && ackZ.pkt.ecrc == ackZ.pkt.crc &&
        (s.fab.fans.find? (fun y => y.id == 4)).isSome && l.all (fun c => c.2 + 2 ^ s.mcwait ≤ s.cycle)) = true ∧
    [(130, 0)].all (fun c => c.1 == 130) = true ∧ [(130, 0), (3, 0)].all (fun c => c.1 == 130) = false := by
  decide +kernel

/-- RouteTableWrites: the last alternative and each of its registers, with LEN 7 and below. -/
theorem witness_RouteTableWrites : 32767 < 32768 ∧ (3 : Nat) < 4 ∧ (2 : Nat) ≠ 3 ∧ (7 : Word).toNat % 8 = 7 ∧
    ¬ ((6 : Word).toNat % 8 = 7) := by
  decide +kernel

/-! ### Memory, regions, keys, translation -/

/-- Memory changed from reset. -/
def memState (f : MemSys → MemSys) : State := { State.reset with mem := f MemSys.reset }

/-- A request at unit 0. -/
def reqOf (op : MemOp) (uaddr : Nat) : MemReq := ⟨.host 0, op, 0, uaddr, uaddr, 0, 0, false⟩

/-- A near region of 2 MiB on a unit from an offset. -/
def nearRegion (unit off : Nat) : BitVec 256 :=
  BitVec.ofNat 256 (3 + 2 ^ 8 * 2 ^ unit + 2 ^ 21 * 2 ^ 128 + off * 2 ^ 192)

/-- Bank 0 with region 0 at unit 0 and bank 1 with it at unit 1. -/
def twoBanks : Assoc (BitVec 256) := [(0, nearRegion 0 0), (16, nearRegion 1 0)]

/-- MemoryRequestsAreServed: a read, writes of a part and of a whole block, an atomic, poisoned blocks, and a read whose block
has moved. -/
theorem witness_MemoryRequests :
    [(reqOf (.read 64) 0), reqOf (.write [1, 2]) 62, reqOf (.write (List.replicate 64 7)) 64, reqOf (.atomic .add 1 0) 8].all
      (fun r =>
        let s := memState (fun m => { m with reqs := [r] })
        s.mem.reqs[0]? == some r && (s.reqFault r).isNone && !s.poisoned r.unit r.uaddr && r.key == 0 && (match s.atUnit r with
          | .serve => true
          | _ => false)) = true ∧
    62 % 64 + 2 ≤ 64 ∧ 8 % 8 = 0 ∧
    (memState (fun m => { m with reqs := [reqOf (.write [1]) 65], poison := [1] })).poisoned 0 65 = true ∧
    (let r := reqOf (.read 8) 0
     let s := memState (fun m => { m with
      reqs := [r], regions := twoBanks, migActive := true, old := 0, cur := 1, cursor := 1, draining := true })
     (match s.atUnit r with
      | .forward 1 0 true => true
      | _ => false) = true) := by
  decide +kernel

/-- MemoryRequestsAreServed, MemoryMaintenance: blocks that an upset spares, touches and destroys, a part of a lost block, and a
key block that is lost. -/
theorem witness_LostBlocks :
    (let s := memState (fun m => { m with
      reqs := [reqOf (.write [1]) 65, reqOf (.write (List.replicate 64 7)) 64, reqOf (.read 8) 128],
      upsets := [(1, .uncorrectable), (2, .oneSymbol)] })
     s.lost 0 65 = true ∧ s.lost 0 64 = true ∧ s.lost 0 128 = false ∧ s.poisoned 0 64 = false ∧
       s.upset 0 128 = .oneSymbol ∧ s.upset 0 0 = .clean ∧ ([1] : List Byte).length < 64 ∧
       s.mem.reqs[1]? = some (reqOf (.write (List.replicate 64 7)) 64) ∧
       (s.reqFault (reqOf (.read 8) 128)).isNone = true) ∧
    (memState (fun m => { m with upsets := [(2, .uncorrectable)] })).lost 0 128 = true := by
  decide +kernel

/-- RegionVersionsAndMigrations: an advance under way and none, a bank that fails and one that passes, a migration that may
start and one that may not, markers of both kinds, a drained version, a block to copy and full counters. -/
theorem witness_RegionVersions :
    (memState (fun m => { m with draining := true })).mem.draining = true ∧
    (let s := memState (fun m => { m with regions := twoBanks })
     s.mem.draining = false ∧ s.mem.migActive = false ∧ s.bankFault s.nextVer = none ∧
       s.migrationOk ((0 : Word).toNat % 16) s.nextVer = true ∧ s.migrationOk ((1 : Word).toNat % 16) s.nextVer = false) ∧
    (memState (fun m => { m with regions := [(19, 3)] })).bankFault 1 = some 3 ∧
    (memState (fun m => { m with markers := [(3, 1)] })).mem.markers[0]? = some (3, 1) ∧ (1 < 4 ∧ 4 ≤ 5) ∧
    (memState (fun m => { m with draining := true, cur := 1 })).drained = true ∧
    (let s := memState (fun m => { m with regions := twoBanks, migActive := true, cur := 1, cursor := 511 })
     s.copyReady = some ((0, 511 * 4096), (1, 511 * 4096)) ∧ s.mem.migActive = true) ∧
    (let s := memState (fun m => { m with cursor := 2 ^ 32 - 1, late := 2 ^ 16 - 1 })
     s.mem.cursor < 2 ^ 32 ∧ s.mem.late < 2 ^ 16 ∧ s.mem.early < 2 ^ 16) := by
  decide +kernel

/-- Memory with key material in block 2 and a far port that a migration uses. -/
def keyState (bytes : List Byte) (keys : Assoc KeySlot) : State :=
  memState (fun m => { m with
    mem := Memory.write [] 128 bytes, regions := twoBanks, keySrc := 2, keys := keys, farCap := [(7, 2 ^ 40)], farUp := [7] })

/-- MemoryMaintenance: the last block of a unit that is clean and one that is poisoned, full counters, a port that a migration
uses, and every case of the key operations. -/
theorem witness_MemoryMaintenance :
    (let s := State.reset
     s.mem.scrub ≠ 0 ∧ 64 * (2 ^ 30 - 1) + 64 ≤ s.unitCap 11 ∧ s.unitUp 11 = true ∧
       s.mem.reqs.any (fun r => r.unit == 11) = false ∧ s.poisoned 11 (64 * (2 ^ 30 - 1)) = false) ∧
    (memState (fun m => { m with poison := [0] })).poisoned 0 0 = true ∧
    (let s := memState (fun m => { m with ecc := [(19, (2 ^ 32 - 1, 2 ^ 16 - 1))] })
     Assoc.get s.mem.ecc 19 (0, 0) = (2 ^ 32 - 1, 2 ^ 16 - 1)) ∧
    (let s := (keyState [] []).modMem (fun m => { m with
      regions := [(0, nearRegion 7 0 + 2), (16, nearRegion 1 0)], migActive := true, cur := 1 })
     s.migUses 7 = true ∧ s.mem.cursor < s.migBlocks ∧ (Assoc.find s.mem.farCap 7).isSome = true) ∧
    (let v : Word := BitVec.ofNat 64 (2 * 2 ^ 12 + 255 * 2 ^ 4)
     let s := keyState [1] []
     let s2 := (s.keyFields v).meetMigration 15 (64 * (v.toNat / 2 ^ 12 % 2 ^ 46))
     let d := Memory.read s2.mem.mem (memKey 0 128) 64
     s2.keyBlock = some (0, 128) ∧ v.toNat / 2 ^ 4 % 2 ^ 8 ≠ 0 ∧ s.keyEnabled 255 = false ∧ s2.lost 0 128 = false ∧
       ofBytes (d.take 32) ≠ ofBytes (d.drop 32) ∧ (s.key 255).loaded = false ∧
       ((keyState [] [(255, ⟨1, 2, true, true⟩)]).key 255).loaded = true ∧
       ((keyState [] []).keyFields v).keyBlock = some (0, 128) ∧ (s.keyFields (BitVec.ofNat 64 (2 ^ 54))).keyBlock = none) := by
  decide +kernel

/-- A walk that a core waits for, of a page whose space has no entry. -/
def walkOf (stale : Bool) : WalkReq := ⟨3, 5, [(.core 0, .load)], stale⟩

/-- A TLB entry. -/
def leaf : TlbEntry := ⟨3, 0x5000, 0x1000, 0x3000, true, true, true, 0⟩

/-- Page tables of address space 0 with one leaf of 1 GiB at address 0. -/
def walkState (w : WalkReq) : State :=
  memState (fun m => { m with
    walks := [w], regions := twoBanks
    walkCache := [⟨3, 3, 0, 0x10000⟩, ⟨3, 2, 0, 0x11000⟩, ⟨3, 1, 0, 0x12000⟩]
    mem := Memory.write [] (0x12000 + 8 * 5) [0x1F, 0x30] })

/-- An invalidation of every page of every space. -/
def invAll (origin : Option (Nat × Nat × Nat × Nat)) : Invalidation := ⟨0, true, 0, 0, origin⟩

/-- WalksAndInvalidations: a stale walk, one that finds a leaf and one that faults; a full queue and one with a place; an
invalidation to start; acknowledgements that are the last and not the last; and a pin that has outlasted 64 µs. -/
theorem witness_WalksAndInvalidations :
    (walkState (walkOf true)).mem.walks[0]? = some (walkOf true) ∧
    (let s := walkState (walkOf false)
     ((State.walk (s.modMem (fun m => { m with walks := m.walks.eraseIdx 0 })) 3 (4096 * 5)).toOption.map (·.1)) = some leaf ∧
       s.leafFault leaf .load = none ∧ s.leafFault { leaf with wr := false } .store ≠ none ∧
       (match State.walk (memState id) 3 (4096 * 5) with
        | .error c => c == 0x1B
        | .ok _ => false) = true) ∧
    16 ≤ (memState (fun m => { m with invQueue := List.replicate 16 (invAll none) })).mem.invQueue.length ∧
    State.reset.mem.invQueue.length < 16 ∧
    (let s := memState (fun m => { m with invQueue := [invAll none] })
     s.mem.invNow = none ∧ s.mem.invQueue = invAll none :: []) ∧
    (let r : InvRun := ⟨invAll none, 0, [.core 319, .migration], [], []⟩
     let s := memState (fun m => { m with invNow := some r })
     r.holders.contains (holderOf 319) = true ∧ s.mayAck r (holderOf 319) = true ∧
       r.holders.all (· == holderOf 319) = false ∧ [Holder.core 319].all (· == holderOf 319) = true) ∧
    (let r : InvRun := ⟨invAll none, 0, [.core 0], [], [(0, 3, 1)]⟩
     let e : CopyEntry := { copyEntry false none [] with pins := [⟨0, 4096, 0, 0⟩] }
     let s := (chanState true 0 e).modMem (fun m => { m with invNow := some r })
     ({ s with ticks := 6400 } : State).pinExpired r 0 3 = true ∧ ({ s with ticks := 6399 } : State).pinExpired r 0 3 = false ∧
       ((s.core 0).chan 3).err = false) := by
  decide +kernel

/-! ### Launches -/

/-- A launch that waits for core 0, with empty image and literal ranges, no channels, and fields of word 0 changed. -/
def smallLaunch (word0 : Nat) (st : LaunchState) : Launch :=
  { fetchLaunch with
    state := st
    recd := (((fetchLaunch.recd.set 0 (BitVec.ofNat 64 word0)).set 2 0).set 4 0).set 7 0 }

/-- Word 0 of a record: one level of nothing, one dimension, one context, priority p. -/
def word0 (prio ctxs : Nat) : Nat := prio * 2 ^ 8 + ctxs * 2 ^ 20 + 2 ^ 28

/-- A package that is awake, with launches. -/
def launchState (l : Assoc Launch) : State :=
  { State.reset with launches := l, wake := ⟨7, 0, 0, List.range 16⟩, nextLaunch := 9 }

/-- LaunchesStart: a launch that is next, on an available core and on one that is not; loading that succeeds and loading whose
image cannot be read; a wave, an action cycle and an ageing that are due. -/
theorem witness_LaunchesStart :
    (let l := smallLaunch (word0 0 1) .waiting
     let s := launchState [(4, l)]
     s.launch? (some 4) = some l ∧ s.nextDispatch = some (4, [0]) ∧ [0].all (fun c => s.coresAvail.getLsbD c) = true ∧
       ({ s with coresAvail := 0 } : State).nextDispatch = some (4, [0])) ∧
    (let l := smallLaunch (word0 0 1) .loading
     let s := launchState [(4, l)]
     l.state = .loading ∧ (s.loadSteps 4 l).toOption.isSome = true ∧
       ((s.loadSteps 4 l).toOption.bind (fun u => u.launch? (some 4))).isSome = true) ∧
    (let l := { smallLaunch (word0 0 1) .loading with recd := (smallLaunch (word0 0 1) .loading).recd.set 2 1 }
     let s := launchState [(4, l)]
     (match s.loadSteps 4 l with
      | .error (e, u) => e.step == 1 && e.code == 0x1B && e.at' == 0 && (u.launch? (some 4)).isSome
      | .ok _ => false) = true) ∧
    (let l := { smallLaunch (word0 0 1) .rehearsal with t0 := 5, action := 133 }
     ({ launchState [(4, l)] with cycle := 5 } : State).waveDue l = true ∧
       ({ launchState [(4, l)] with cycle := 133 } : State).actionDue { l with wave := 1 } = true) ∧
    (let l := smallLaunch (word0 0 1) .waiting
     ({ launchState [(4, l)] with cycle := 7 * 2 ^ 16 } : State).agesNow l = true ∧
       ({ launchState [(4, l)] with cycle := 7 * 2 ^ 16 - 1 } : State).agesNow l = false) := by
  decide +kernel

/-- A core on which launch 2, of priority 0, may be pre-empted. -/
def preemptState (t : Context → Context) (saved : List Saved) : State :=
  let low := { smallLaunch (word0 0 4) .running with
    order := 1, recd := (smallLaunch (word0 0 4) .running).recd.set 8 0x400000 }
  let s := launchState [(2, low), (4, smallLaunch (word0 7 4) .waiting)]
  let s := s.modCore 0 (fun k => { (List.range 4).foldl (fun k x =>
    k.setCtx x { (k.ctx x) with mode := .ready, launch := some 2, home := x }) k with
    saved := saved, tlb := [⟨0, 0, 2 ^ 30, 0, true, true, true, 0⟩] })
  { s.modCtx 0 0 t with mem := { MemSys.reset with regions := regionTable } }

/-- A package with other bytes in memory. -/
def withBytes (s : State) (m : Memory) : State := { s with mem := { s.mem with mem := m } }

theorem withBytes_mem (s : State) (m n : Memory) : withBytes (withBytes s m) n = withBytes s n := rfl

/-- A write of a block keeps a package without poison and upsets, its bytes apart. -/
theorem blockWrite_withBytes (s : State) (hp : s.mem.poison = []) (hu : s.mem.upsets = []) (u a pa key : Nat)
    (d : List Byte) : ∃ m, s.blockWrite u a pa key d = withBytes s m := by
  have hq : s.poisoned u a = false := by simp [State.poisoned, hp]
  have hf : s.upset u a = .clean := by simp [State.upset, hu, Assoc.get, Assoc.find]
  have hc : (if d.length < 64 then s.checkBlock u a .clean else s) = s := by
    split <;> simp [State.checkBlock, hq, hf, worstFinding]
  have clean (m : Memory) (b : Nat) : (withBytes s m).cleanBlock u b = withBytes s m := by
    simp [State.cleanBlock, withBytes, hp, hu, setErase, Assoc.del]
  unfold State.blockWrite
  simp only [hc, hq, Bool.false_and, Bool.false_eq_true, if_false]
  exact ⟨_, clean _ _⟩

/-- A piece of an agent's write that hits its TLB and lies in a block in reach. -/
def pieceOk (s : State) (h : Holder) (die asid : Nat) (p : Nat × Nat) : Bool :=
  p.1 < 2 ^ 57 && (match s.tlbHit h asid p.1 with
    | some e => match s.finishTrans 15 p.1 .store e with
      | .ok pa _ _ => match s.servedAt (s.dieVersion die) pa with
        | some (.memory u _) => (s.unitFault die u).isNone
        | _ => false
      | _ => false
    | none => false)

/-- Without a migration an access meets none. -/
theorem meetMigration_off (s : State) (hm : s.mem.migActive = false) (die pa : Nat) : s.meetMigration die pa = s := by
  simp [State.meetMigration, State.migBlock, hm]

/-- A write by an agent whose every piece is so fails nowhere. -/
theorem agentWrite_ok (s : State) (hm : s.mem.migActive = false) (hp : s.mem.poison = []) (hu : s.mem.upsets = []) (h : Holder) (die asid va : Nat)
    (d : List Byte) (ok : (blockPieces (d.length + 1) va d.length).all (pieceOk s h die asid) = true) :
    (s.agentWrite h die asid va d).1 = none := by
  have step (l : List (Nat × Nat)) (hl : l.all (pieceOk s h die asid) = true) (m : Memory) :
      ∃ n, l.foldl (fun acc p => match acc with
        | (some c, s) => (some c, s)
        | (none, s) =>
          match s.translateNow h asid p.1 .store with
          | (.fault c, s) => (some (c, p.1), s)
          | (.miss, s) => (some (0x11, p.1), s)
          | (.ok pa key _, s) =>
            let s := s.meetMigration die pa
            match s.servedAt (s.dieVersion die) pa with
            | some (.memory u a) =>
              match s.unitFault die u with
              | some c => (some (c, p.1), s)
              | none =>
                if s.lost u a && p.2 < 64 then (some (0x2E, p.1), s.checkBlock u a .clean)
                else (none, s.blockWrite u a pa key ((d.drop (p.1 - va)).take p.2))
            | _ => (some (0x17, p.1), s)) ((none : Option (Nat × Nat)), withBytes s m) = (none, withBytes s n) := by
    induction l generalizing m with
    | nil => exact ⟨m, rfl⟩
    | cons p l ih =>
      simp only [List.all_cons, Bool.and_eq_true] at hl
      obtain ⟨hk, hl⟩ := hl
      rw [List.foldl_cons]
      unfold pieceOk at hk
      simp only [Bool.and_eq_true, decide_eq_true_eq] at hk
      obtain ⟨hv, hk⟩ := hk
      split at hk <;> try contradiction
      rename_i e he
      split at hk <;> try contradiction
      rename_i pa key x hf
      split at hk <;> try contradiction
      rename_i u a ha
      have ht : (withBytes s m).translateNow h asid p.1 .store = (.ok pa key x, withBytes s m) := by
        unfold State.translateNow
        rw [if_neg (by omega), show (withBytes s m).tlbHit h asid p.1 = some e from he]
        exact congrArg (fun r => (r, withBytes s m)) hf
      have hg : (withBytes s m).meetMigration die pa = withBytes s m := meetMigration_off (withBytes s m) hm die pa
      have hs : (withBytes s m).servedAt ((withBytes s m).dieVersion die) pa = some (.memory u a) := ha
      have hn : (withBytes s m).unitFault die u = none := Option.isNone_iff_eq_none.mp hk
      have hq : (withBytes s m).lost u a = false := by
        simp [State.lost, State.poisoned, State.upset, withBytes, hp, hu, Assoc.get, Assoc.find]
      obtain ⟨n, hb⟩ := blockWrite_withBytes (withBytes s m) hp hu u a pa key ((d.drop (p.1 - va)).take p.2)
      simp only [ht, hg, hs, hn, hq, Bool.false_and, Bool.false_eq_true, if_false, hb, withBytes_mem]
      exact ih hl n
  obtain ⟨n, hn⟩ := step _ ok s.mem.mem
  exact congrArg Prod.fst hn

/-- The length of equally long pieces. -/
theorem flatten_length {α : Type} (l : List α) (f : α → List Byte) (n : Nat) (h : ∀ x, (f x).length = n) :
    ((l.map f).flatten).length = l.length * n := by
  induction l with
  | nil => simp
  | cons x l ih => simp [h, ih, Nat.succ_mul, Nat.add_comm]

/-- The length of a number's bytes. -/
theorem bytesOf_length (n x : Nat) : (bytesOf n x).length = n := by
  induction n generalizing x with
  | zero => rfl
  | succ n ih => simp [bytesOf, ih]

/-- A context's record is 64 KiB. -/
theorem saveRecord_length (t : Context) (m : Mode) (f : Nat) : (saveRecord t m f).length = 65536 := by
  unfold saveRecord
  simp only [List.length_append, bytesOf_length, flatten_length _ _ 8 (fun x => bytesOf_length 8 _),
    flatten_length _ _ 16 (fun x => bytesOf_length 16 _), flatten_length _ _ 32 (fun x => bytesOf_length 32 _),
    flatten_length _ _ 64 (fun x => bytesOf_length 64 _), flatten_length _ _ 256 (fun x => bytesOf_length 256 _),
    Vector.length_toList, Context.opaqueBytes, List.length_map, List.length_range]

/-- The state of a pre-empted context at its restart point. -/
def savedState : State := (preemptState (fun t => { t with mode := .saved }) []).modCtx 0 0 (·.settleRestart)

/-- ContextsArePreemptedAndResumed: a launch that takes four contexts, and a pre-empted context whose requests are answered. -/
theorem witness_ContextsArePreempted :
    (let s := preemptState id []
     (s.launch? (some 4)).bind (fun l => s.victims 4 l) = some [(0, 3), (0, 2), (0, 1), (0, 0)]) ∧
    (preemptState (fun t => { t with mode := .saved }) []).maySave 0 0 = true ∧
    (savedState.launch? (savedState.ctxOf 0 0).launch).map (·.cancelled) = some false ∧
    (savedState.writeRecord 0 (savedState.ctxOf 0 0) .saved 0).1 = none := by
  refine ⟨by decide +kernel, by decide +kernel, by decide +kernel, ?_⟩
  have w := agentWrite_ok savedState (by decide +kernel) (by decide +kernel) (by decide +kernel) (.core 0) (coreDie 0) 0 0x400000
    (saveRecord (savedState.ctxOf 0 0) .saved 0) (by rw [saveRecord_length]; decide +kernel)
  have l : (savedState.launch? (savedState.ctxOf 0 0).launch).map (fun l => (l.save, l.ordinal 0, l.asid)) =
    some (0x400000, 0, 0) := by decide +kernel
  have h : (savedState.ctxOf 0 0).home = 0 := by decide +kernel
  obtain ⟨m, hm, hl⟩ := Option.map_eq_some_iff.mp l
  simp only [Prod.mk.injEq] at hl
  unfold State.writeRecord
  simp only [hm, hl.1, hl.2.1, hl.2.2, h, w]
  rfl

/-- Core 0 with a saved context of launch 2, whose record in memory is zeros but for its first bytes. -/
def resumeState (b : List Byte) : State :=
  let s := preemptState id [⟨{ Context.reset with launch := some 2, home := 0 }, 0x400000⟩]
  { s.modCtx 0 0 (fun t => { t with mode := .free, launch := none }) with
    launches := s.launches.take 1, mem := { s.mem with mem := Memory.write [] 0x400000 b } }

/-- ContextsArePreemptedAndResumed: a saved context that resumes, its record read whole. Its check, which covers none of the first
0xE00 bytes, equals the CHECK of exactly one value of them. -/
theorem witness_ContextsResume :
    let s := resumeState [7]
    s.resumable 2 0 0 = some (0, 0) ∧ ((s.core 0).saved[0]?).map (·.addr) = some 0x400000 ∧
      (s.launch? (some 2)).map (·.asid) = some 0 ∧
      ((s.agentRead (.core 0) (coreDie 0) 0 0x400000 65536 .load).1.toOption.map (fun b => b.take 2)) = some [7, 0] := by
  decide +kernel

/-- A core whose context 0 may take an iteration of launch 0, idle or busy. -/
def handState (t : Context → Context) : State :=
  { at0 t with launches := [(0, { fetchLaunch with stepSlots := [(0, 0)] })] }

/-- IterationsAreHandedOut: an idle context and one that keeps its next point pending. -/
theorem witness_IterationsAreHandedOut :
    [handState (fun t => { t with mode := .free, iteration := none }), handState id].all (fun s =>
      (s.launch? (some 0)).any (fun l => l.handing && l.f 0 19 19 == 0 && !l.stepSlots.isEmpty && !l.atInstant &&
        l.enumerate.1.isSome) && pickContext true (s.launchContexts 0) == some (0, 0)) = true ∧
    ((handState (fun t => { t with mode := .free, iteration := none })).ctxOf 0 0).idle = true ∧
    ((handState (fun t => { t with mode := .ready, iteration := some (0, 0) })).ctxOf 0 0).idle = false ∧
    pickContext true ((handState (fun t => { t with mode := .ready, iteration := some (0, 0) })).launchContexts 0) = some (0, 0) := by
  decide +kernel

/-- A standing launch that holds context 0 of core 0. -/
def standState (l : Launch) : State := (launchState [(4, l)]).modCtx 0 0 (fun t => { t with launch := some 4 })

/-- StepsEndAndLaunchesRetire: a boundary outside and at the end of a step, one that stores its count, and one whose store fails;
launches that retire from WAITING and DRAINING, and one that depends on another strictly. -/
theorem witness_StepsEndAndLaunchesRetire :
    (let l : Launch := { smallLaunch (word0 0 1 + 2 ^ 11) .running with slots := [(3, (none, some 7))], inStep := false }
     (standState l).boundaryDue 4 = true ∧ l.inStep = false) ∧
    (let l : Launch := { smallLaunch (word0 0 1 + 2 ^ 11) .running with slots := [(3, (some 7, none))], inStep := true }
     (standState l).boundaryDue 4 = true ∧ word l.recd 10 = 0 ∧ l.cancelled = false) ∧
    (let l : Launch := { smallLaunch (word0 0 1 + 2 ^ 11) .running with slots := [(3, (some 7, none))], inStep := true }
     let l : Launch := { l with recd := l.recd.set 10 0x400000 }
     let s := standState l
     let u : State := { s with mem := { MemSys.reset with
      regions := regionTable, tlbs := [(.frontEnd, [⟨0, 0, 2 ^ 30, 0, true, true, true, 0⟩])] } }
     s.boundaryDue 4 = true ∧ u.boundaryDue 4 = true ∧ word l.recd 10 ≠ 0 ∧
       (u.agentWrite .frontEnd 15 l.asid (word l.recd 10) (bytesOf 8 1)).1 = none ∧
       (s.agentWrite .frontEnd 15 l.asid (word l.recd 10) (bytesOf 8 1)).1 = some (0x1B, 0x400000)) ∧
    (let l : Launch := { smallLaunch (word0 0 1) .waiting with status := 1 }
     let m : Launch := { smallLaunch (word0 0 1 + 2 ^ 18) .waiting with deps := [4] }
     let s := launchState [(4, l), (5, m)]
     s.mayRetire l 4 = true ∧ l.status ≠ 0 ∧ s.launch? (some 5) = some m ∧ m.state = .waiting ∧ m.status = 0 ∧
       m.f 0 18 18 = 1 ∧ m.deps.contains 4 = true) ∧
    (let l := smallLaunch (word0 0 1) .draining
     (launchState [(4, l)]).mayRetire l 4 = true) ∧
    (let l : Launch := { smallLaunch (word0 0 1) .draining with killed := 1 }
     let m : Launch := { smallLaunch (word0 0 1 + 2 ^ 18) .waiting with deps := [4] }
     let s := launchState [(4, l), (5, m)]
     s.mayRetire l 4 = true ∧ l.status = 0 ∧ l.killed ≠ 0 ∧ s.launch? (some 5) = some m) ∧
    (let l : Launch := { smallLaunch (word0 0 1 + 2 ^ 11) .running with slots := [(3, (some 7, none))], inStep := true }
     let m : Launch := { l with cancelled := true }
     (standState m).boundaryDue 4 = true ∧ m.cancelled = true) := by
  decide +kernel

/-- PaddockAndSchedulerConfiguration: the cycle of an evaluation, a conflicting value, and one that rejects a launch. -/
theorem witness_Paddock :
    State.reset.sched.evalAt + 4096 ≤ ({ State.reset with cycle := 4096 } : State).cycle ∧
    (let f (v : Nat) := (v / 2 ^ 32 % 2 ^ 8, v / 2 ^ 24 % 2 ^ 8, v / 2 ^ 16 % 2 ^ 6, v / 2 ^ 8 % 2 ^ 6)
     f (2 ^ 32 + 2 ^ 24) = (1, 1, 0, 0) ∧ f (33 * 2 ^ 16 + 2 ^ 24) = (0, 1, 33, 0) ∧ f (2 ^ 8 + 2 ^ 24) = (0, 1, 0, 1) ∧
       f (32 * 2 ^ 16 + 2 ^ 24) = (0, 1, 32, 0)) ∧
    (let l := smallLaunch (word0 0 1 + 2 ^ 12) .waiting
     l.comm = true ∧ l.state = .waiting ∧ l.status = 0) := by
  decide +kernel

/-- A coverage launch of a one-dimensional grid of three points: the middle one, of a stage, lies between done ones. -/
def covLaunch (mid : Point) (st : LaunchState) : Launch :=
  { smallLaunch (word0 0 1 + 2 ^ 8) st with
    recd := ((((smallLaunch (word0 0 1 + 2 ^ 8) st).recd.set 33 3).set 48 (BitVec.ofNat 64 (2 * 2 ^ 9 + 5 * 2 ^ 13 + 9 * 2 ^ 22))).set 49 1)
    cov := some {
      f := 5, accum := 0, lasterr := 0, ncmp := 0, since := 1, nupd := 0, naudit := 0, nskip := 0
      points := [(0, ⟨0, false, false, .done, false, none, false⟩), (1, mid), (2, ⟨0, false, false, .done, false, none, false⟩)]
      desc := [0x10000, BitVec.ofNat 64 (2 ^ 16 + 2 ^ 32), 0, 4, 0, 0, 0, 0, 0, 15, 0, 0, 0, 0, 0, 0]
      instant := none, settled := false } }

/-- A package with that launch, whose front end holds the page of the plane. -/
def covState (l : Launch) : State :=
  { launchState [(4, l)] with mem := { MemSys.reset with
      regions := regionTable, tlbs := [(.frontEnd, [⟨0, 0x10000, 0x1000, 0x3000, true, true, true, 0⟩])] } }

/-- StatusRegisterReads: a launch with coverage, whose issuing context it owns, and one without. -/
theorem witness_StatusRegisterReads :
    (let l := covLaunch ⟨0, true, false, .handed, false, none, false⟩ .running
     let s : State := { (at0 id) with launches := [(0, l)] }
     s.cx.launch = some 0 ∧ s.cl = some l ∧ l.cov.isSome = true) ∧
    (at0 id).cl.bind (·.cov) = none := by
  decide +kernel

/-- CoverageEvents: a point to reconstruct, one to compare, and an update that is due. -/
theorem witness_CoverageEvents :
    (let p : Point := ⟨0, true, false, .handed, false, none, false⟩
     let l := covLaunch p .running
     let s := covState l
     l.cov.map (fun c => l.mayRecon c 1 p) = some true ∧ (s.reconPlane l 1 0).1 = none ∧
       ((s.reconPlane l 1 0).2.reconPlane l 1 1).1 = none ∧
       (((s.reconPlane l 1 0).2.reconPlane l 1 1).2.launch? (some 4)).any (fun m => m.cov.isSome) = true) ∧
    (let p : Point := ⟨0, false, true, .done, false, none, false⟩
     let l := covLaunch p .running
     let s := covState l
     let pl := planeOf ((l.cov.map (·.desc)).getD []) 0
     l.cov.map (fun c => l.mayAudit c 1 p) = some true ∧ (s.interpolate l pl (l.parents 1)).1.toOption = some [0] ∧
       (s.readCells l.asid pl.size (pl.cells (tupleOf l.counts 1))).1.toOption = some [0]) ∧
    (let l := covLaunch ⟨0, false, false, .done, false, none, false⟩ .running
     ((covState l).dueUpdate 4 l).isSome = true ∧ l.cov.map (fun c => (l.f 48 21 13, c.f, l.f 48 30 22)) = some (5, 5, 9)) := by
  decide +kernel

/-! ### Queues, packets, resets -/

/-- Queue 0, enabled, of address space 0, its first unit fetched, with launches. -/
def queueState (words : List Nat) (f : Queue → Queue) (l : Assoc Launch) : State :=
  let u : Flit := BitVec.ofNat 512 ((words.zip (List.range 8)).foldl (fun a p => a + p.1 * 2 ^ (64 * p.2)) 0)
  { launchState l with
    queues := [(0, f { Queue.reset with
      enable := true, wptr := 4, rptr := 2, st := .running, base := 0x10000, units := [(0, u), (1, 0)] })]
    mem := { MemSys.reset with
      regions := regionTable, tlbs := [(.command, [⟨0, 0x10000, 0x1000, 0x3000, true, true, true, 0⟩])] } }

/-- QueuesAreControlled: writes of QCTL that are refused and accepted in each state, doorbells inside and outside the ring, and
a unit that can be fetched. -/
theorem witness_QueuesAreControlled :
    Queue.reset.refuses (1 + 2 + 4 + 4 * 16) = true ∧ Queue.reset.refuses (1 + 4 * 16 + 2 ^ 34) = false ∧
    (State.reset.queue 31).enable = false ∧ ((1 + 4 * 16 + 2 ^ 34 : Word).getLsbD 0) = true ∧
    (let s := queueState [0] id []
     (s.queue 0).refuses (4 * 16) = false ∧ (s.queue 0).refuses 0 = true ∧ (s.queue 0).enable = true ∧
       (s.queue 0).started = none ∧ s.pageLive 0 0 = true ∧ s.fw.run ≠ 3 ∧ (s.queue 0).qsize < 16 ∧
       indexGap (s.queue 0).cptr 16 ≤ 2 ^ 4 ∧ indexGap (s.queue 0).cptr (s.queue 0).wptr ≤ indexGap (s.queue 0).cptr 16 ∧
       2 ^ 4 < indexGap (s.queue 0).cptr 17 ∧ s.mayFetch 0 = true ∧ (s.readUnit 0).1.toOption.isSome = true ∧
       (s.queue 0).fail = false) ∧
    (queueState [0] (fun q => { q with started := some 0 }) []).queue 0 ≠ Queue.reset ∧
    (let s := queueState [0] (fun q => { q with st := .error, code := 0x91, word0 := some 0x100 }) []
     (s.queue 0).st = .error ∧ (s.queue 0).code ≠ 0x92 ∧ (s.queue 0).word0 = some 0x100 ∧
       (s.queue 0).refuses (1 + 2 + 4 * 16 + 2 ^ 34) = false ∧ (s.queue 0).refuses (1 + 4 + 4 * 16 + 2 ^ 34) = false) := by
  decide +kernel

/-- PacketsExecute: a packet of each type at CPTR, with the reads and updates that succeed, the tests both ways, and a live
launch of its LID and none. -/
theorem witness_PacketsExecute :
    (queueState [0] id []).executable 0 0 = some 0 ∧
    (let s := queueState [1, 0x10008, 0, 0xFF, 5] id []
     (s.executable 0 1).isSome = true ∧ (s.agentRead .command 15 0 0x10008 8 .load).1.toOption = some (List.replicate 8 0) ∧
       waitTest 0 (0 &&& 0xFF) 0 = true ∧ waitTest 1 (0 &&& 0xFF) 0 = false ∧ (s.queue 0).started = none) ∧
    (let s : State := { queueState [1, 0x10008, 0, 0xFF, 5] (fun q => { q with started := some 0, st := .waiting }) [] with
      ticks := 500 }
     (s.executable 0 1).any (fun u => s.waitOver 0 u) = true ∧
       (s.executable 0 1).all (fun u => ({ s with ticks := 499 } : State).waitOver 0 u) = false) ∧
    (let s := queueState [2, 0x10008, 7] id []
     (s.executable 0 2).isSome = true ∧ s.launchesGone 0 = true ∧ (s.updateWord 0 0x10008 (signalOp 0 7)).1 = none) ∧
    (queueState [2 + 2 ^ 19, 0x10008, 7] id [(4, smallLaunch 0 .waiting)]).launchesGone 0 = false ∧
    (let s := queueState [3 + 2 ^ 8, 0x10000, 0, 0, 0] id []
     (s.executable 0 3).isSome = true ∧ (match s.acceptLaunch 0 0 0x10000 0 0 0 with
      | .done _ => true
      | _ => false) = true ∧ (match s.acceptLaunch 0 0 0x50000 0 0 0 with
      | .fault _ _ => true
      | _ => false) = true) ∧
    (match (queueState [] id ((List.range 256).map (fun k => (k, { smallLaunch 0 .waiting with lid := 9 })))).acceptLaunch
      0 0 0x10000 0 0 0 with
      | .full => true
      | _ => false) = true ∧
    ([[4, 4095, 64], [5, 4095], [6]].all (fun w =>
      let s := queueState w id [(4, smallLaunch 0 .waiting)]
      (s.executable 0 (w.headD 0)).any (fun u => (s.liveLid 0 (packetLid u)).isSome) &&
        ((queueState w id []).executable 0 (w.headD 0)).any (fun u => ((queueState w id []).liveLid 0 (packetLid u)).isNone)))
      = true ∧
    ((queueState [7] id []).executable 0 7).isSome = true := by
  decide +kernel

/-- SlotsAndCancellation: a slot that is free and one that is active, slots at and beyond MAXSLOT, and launches in each state. -/
theorem witness_SlotsAndCancellation :
    (let l : Launch := { smallLaunch (word0 0 1 + 2 ^ 11) .running with
      slots := [(0, (none, some 7))], recd := ((smallLaunch (word0 0 1 + 2 ^ 11) .running).recd.set 0
        (BitVec.ofNat 64 (word0 0 1 + 2 ^ 11 + 2 * 2 ^ 32))) }
     l.standing = true ∧ l.slotNext 0 = some 7 ∧ l.slotNext 1 = none ∧ (1 < l.maxSlot ∧ l.maxSlot ≤ 2)) ∧
    (smallLaunch (word0 0 1) .running).standing = false ∧
    [LaunchState.waiting, .running, .draining].all (fun st =>
      (launchState [(4, smallLaunch 0 st)]).launch? (some 4) == some (smallLaunch 0 st)) = true := by
  decide +kernel

/-- FunctionResets: functions 1 and 63, a queue of function 1, and a reset that completes. -/
theorem witness_FunctionResets :
    (1 ≤ 1 ∧ 63 < 64) ∧ ((queueState [0] (fun q => { q with func := 1 }) []).queue 0).func = 1 ∧
    ({ State.reset with mgmt := { Mgmt.reset with inReset := [63] } } : State).resetDone 63 = true := by
  decide +kernel

/-! ### The host, power, wake, mailbox and firmware -/

/-- A host request of 8 bytes. -/
def hostReq (off : Nat) (w : Option (List Byte)) : HostReq := ⟨0, off, 8, w⟩

/-- HostAccesses: requests outside the window, at no place, in one block for reading and writing, with a poisoned block, and a
vector with a pending message. -/
theorem witness_HostAccesses :
    (let s := memState (fun m => { m with regions := regionTable })
     (s.mem.migActive = false ∧ s.aperMeets (hostReq 56 none) = s) ∧ s.aperOpen 0 (64 * 2 ^ 30) 8 = false ∧ s.aperOpen 0 (64 * 2 ^ 30 - 8) 8 = true ∧
       s.aperBlocks (hostReq 56 none) = some [(0, 8, 0, 56, 56)] ∧ s.aperctl 0 % 2 ^ 8 = 0 ∧ s.poisoned 0 56 = false ∧
       (hostReq 56 (some [1, 2, 3, 4, 5, 6, 7, 8])).write = some [1, 2, 3, 4, 5, 6, 7, 8] ∧ 56 % 64 + 8 ≤ 64) ∧
    (State.reset.aperOpen 0 0 8 = true ∧ State.reset.aperBlocks (hostReq 0 none) = none) ∧
    [memState (fun m => { m with regions := regionTable, poison := [0] }),
      memState (fun m => { m with regions := regionTable, upsets := [(0, .uncorrectable)] })].all (fun s =>
        s.lost 0 0 && s.aperOpen 0 0 8 && ((s.aperMeets (hostReq 0 none)).aperBlocks (hostReq 0 none)).isSome) = true ∧
    (memState (fun m => { m with regions := regionTable, upsets := [(0, .oneSymbol)] })).lost 0 0 = false ∧
    (let s : State := { State.reset with mgmt := { Mgmt.reset with msixOn := [63], msix := [(64 * 63 + 7, ⟨0, 0, true⟩)] } }
     63 < 64 ∧ 7 < vectorCount 63 ∧ (s.mgmt.vector 63 7).pending = true ∧ s.mgmt.msixOn.contains 63 = true) := by
  decide +kernel

/-- An outbound request. -/
def outReq (data : Option (List Byte)) (sent : Bool) : OutReq := ⟨.host 0, 0, 8, data, sent, 0⟩

/-- OutboundRequests: reads and writes that may leave, with Bus Master Enable and without, and a read that awaits its
completion. -/
theorem witness_OutboundRequests :
    [outReq none false, outReq (some [1]) false].all (fun r =>
      ({ State.reset with outReqs := [r] } : State).outReady 0 &&
        ({ State.reset with outReqs := [r], busMaster := true } : State).outReady 0) = true ∧
    (let s : State := { State.reset with outReqs := [outReq none true], ticks := 1000000 }
     s.outReqs[0]? = some (outReq none true) ∧ (outReq none true).sentAt + 1000000 ≤ s.ticks) ∧
    (List.replicate 8 (0 : Byte)).length = (outReq none true).size ∧ Completion.unsupportedRequest ≠ .data [] := by
  decide +kernel

/-- ManagementRegisterWrites: the last register of each array, a value with bits 0 and 3, and offsets that no register has. -/
theorem witness_ManagementRegisterWrites :
    (9 : Word).getLsbD 3 = true ∧ (9 : Word).getLsbD 0 = true ∧ 383 < 384 ∧ 239 < 240 ∧ 127 < 128 ∧ 31 < 32 ∧
    (State.reset.queue 31).enable = false ∧ (8 * 2 ^ 17 - 8 < 8 * 2 ^ 17 ∧ (8 * 2 ^ 17 - 8) % 32 = 24) ∧
    (4 % 8 ≠ 0 ∧ 0x100000 ≤ 0x100000 ∧ 0xFFFFF8 < 0x1000000) := by
  decide +kernel

/-- PowerControl: a controller tick above the limit, at 95% and below it with 8 and 9 ticks counted; temperatures at both
thresholds; the last die; an expired droop hold; a sample that is due. -/
theorem witness_PowerControl :
    (let s : State := { State.reset with ticks := 1000 }
     s.power.tickAt + 1000 ≤ s.ticks ∧ s.power.limit < 3201 ∧ 3200 ≤ s.power.limit ∧ 95 * s.power.limit ≤ 100 * 3040 ∧
       100 * 3039 < 95 * s.power.limit ∧ s.power.below < 9 ∧ s.power.sampleAt + 100 ≤ s.ticks) ∧
    9 ≤ ({ Power.reset with below := 9 } : Power).below ∧ ((1680 : Nat) ∈ [0, 1680] ∧ 105 * 16 ≤ 1680) ∧
    [0, 1840].any (fun x => 115 * 16 ≤ x) = true ∧ (∀ x ∈ [1839, 1680], x < 115 * 16) ∧ (∀ x ∈ [1600, 0], x ≤ 100 * 16) ∧ 7 < 8 ∧
    (let s : State := { State.reset with ticks := 1000, power := { Power.reset with kDroop := 16, droopEnd := 1000 } }
     s.power.kDroop = 16 ∧ s.power.droopEnd ≤ s.ticks) ∧
    (0 < State.reset.power.energy.length ∧ 0 < [5].length) := by
  decide +kernel

/-- PowerOnAndWake: the steps of the sequence and the last core. -/
theorem witness_PowerOnAndWake :
    (let s : State := { State.reset with wake := ⟨5, 7, 0, []⟩ }
     s.wake.step ≤ 6 ∧ s.wake.step = 5 ∧ 7 ≤ s.wake.die) ∧
    (let s : State := { State.reset with wake := ⟨5, 6, 0, []⟩ }
     s.wake.step = 5 ∧ s.wake.die < 7) ∧
    (let s : State := { State.reset with wake := ⟨6, 0, 0, []⟩, ticks := 10 ^ 9 }
     s.wake.step = 6 ∧ s.wake.since + s.wake.limit ≤ s.ticks) ∧
    (let s : State := { State.reset with wake := ⟨4, 0, 0, []⟩, ticks := 10 ^ 9 }
     s.wake.step = 4 ∧ s.wake.since + s.wake.limit ≤ s.ticks ∧ s.wake.dies ≠ []) ∧
    ((16 : Nat) < (17 * 2 ^ 8 : Word).toNat / 2 ^ 8 % 2 ^ 5 ∧ (3200 : Nat) < (3201 : Word).toNat % 2 ^ 12) ∧
    (319 < 320 ∧ State.reset.coresAvail.getLsbD 319 = true) := by
  decide +kernel

/-- A request in the mailbox. -/
def mboxState (cmd len : Nat) (smbus write : Bool) : State :=
  { State.reset with mbox := ⟨BitVec.ofNat 2048 cmd, 0, len, 0, true, smbus⟩, mgmt := { Mgmt.reset with smbWrite := write } }

/-- MailboxCommands: each command, with lengths that fit and that do not, over SMBus with SMBWRITE and without. -/
theorem witness_MailboxCommands :
    [1, 2, 3, 4, 5, 6].all (fun c => (mboxState c 4 false false).mbox.command == c) = true ∧
    (mboxState 0 4 false false).mbox.command = 0 ∧ 6 < (mboxState 7 4 false false).mbox.command ∧
    (mboxState 3 8 true false).mbox.go = true ∧ (8 ≤ (mboxState 3 8 true false).mbox.len ∧ 8 ≤ 256) ∧
    (mboxState 3 256 true true).mgmt.smbWrite = true ∧ ¬ (8 ≤ (mboxState 3 7 true false).mbox.len) ∧
    ¬ ((mboxState 1 257 false false).mbox.len ≤ 256) := by
  decide +kernel

/-- The SHA-384 of no bytes. -/
def emptySha : List Byte :=
  bytesOf 48
    0x5BB99848F1D21AD5FB656FE7BFDE4E27DAE1F663BFC70C4C4307BE1411B7FD216AE3B1B17E32D94C3896AC51A760B038

/-- The header of an image without a body, of the highest security version, signed with the private key 1, whose public key is
the curve's base point. -/
def emptyHeader : List Byte :=
  bytesOf 4 0x4B574649 ++ bytesOf 4 7 ++ bytesOf 4 0xFFFFFFFF ++ bytesOf 4 0 ++ emptySha
    ++ bytesOf 48 0xAA87CA22BE8B05378EB1C71EF320AD746E1D3B628BA79B9859F741E082542A385502F25DBF55296C3A545E3872760AB7
    ++ bytesOf 48 0x08F6B49CC6BF672AA62EB0DE272DB97AACDE0604D40EE7C554E776ACE3D31812D5BCBA6C4345CDC7C4423BC2087588DD

/-- A flash with that image in slot 1, and markers, with their numbers. -/
def fwOf (markers : List (Nat × Nat)) : Firmware :=
  ⟨0, 0, false, false, 0, 0, (0x01900000, 4096, emptyHeader) ::
    (markers.map (fun p => (4096 * p.1, 4096, markerBytes p.2 0)) ++ [(0, 8192, [])]), none⟩

/-- FirmwareOperations: an inactive slot that is not good, and one that is good on a part whose key is the base point and
whose least security version it reaches; no marker copy, and two. -/
theorem witness_FirmwareOperations (key : Config.publicKey = Ecdsa.base) (m : Config.minSecurity ≤ 0xFFFFFFFF) :
    (fwOf []).inactive = 1 ∧ (fwOf []).good 1 = true ∧ (fwOf []).marker 0 = none ∧ (fwOf []).marker 1 = none ∧
    (fwOf [(0, 5), (1, 6)]).marker 0 = some (5, 0) ∧ (fwOf [(0, 5), (1, 6)]).marker 1 = some (6, 0) ∧
    ({ fwOf [] with active := 1, flash := [(0x00100000, 4096, [])] } : Firmware).good 0 = false := by
  have read : (fwOf []).read (slotBase 1) 160 = emptyHeader := by decide +kernel
  have sha : Sha.sha384 ((fwOf []).read (slotBase 1 + 4096) (ofBytes ((emptyHeader.drop 12).take 4))) =
      (emptyHeader.drop 16).take 48 := by decide +kernel
  have w8 : ofBytes ((emptyHeader.drop 8).take 4) = 0xFFFFFFFF := by decide +kernel
  have sig : signatureOk emptyHeader = true := by
    unfold signatureOk
    rw [key]
    decide +kernel
  refine ⟨by decide +kernel, ?_, by decide +kernel, by decide +kernel, by decide +kernel, by decide +kernel, by decide +kernel⟩
  simp only [Firmware.good, read, sha, w8, sig, m]
  decide +kernel

/-- A package whose memory holds a staged header of a body of n bytes, and whose firmware is at a part of an operation. -/
def fwState (n : Nat) (work : Option (Nat × Nat)) (markers : List (Nat × Nat)) : State :=
  { memState (fun m => { m with regions := regionTable, mem := Memory.write [] 12 (bytesOf 4 n) }) with
    fw := { fwOf markers with work := work } }

/-- FirmwareOperations: a GO with no operation and with another one in progress, the erasure, the body and the header of OP 1, OP 2,
and the parts of OP 3. -/
theorem witness_FirmwareParts :
    ((15 : Word).getLsbD 0 = true ∧ (1 ≤ 7 / 2 % 8 ∧ 7 / 2 % 8 ≤ 3)) ∧ (fwState 0 none []).fw.work = none ∧
    ((fwState 0 (some (2, 0)) []).fw.work = some (2, 0) ∧ 2 ≠ 1) ∧ (fwState 0 (some (1, 0)) []).fw.work = some (1, 0) ∧
    (let s := fwState 5 (some (1, 1)) []
     ((s.staged (4096 * s.fw.src) 4096).map (fun h => ofBytes ((h.drop 12).take 4)) = some 5) ∧
       5 ≤ slotSize - 4096 ∧ ((s.checkStaged (4096 * s.fw.src) 4096).staged (4096 * (s.fw.src + 1)) 5).isSome = true) ∧
    (let s := fwState 0 (some (1, 1)) []
     (s.staged (4096 * s.fw.src) 4096).map (fun h => ofBytes ((h.drop 12).take 4)) = some 0) ∧
    ((fwState 0 (some (3, 0)) []).fw.topSeq < 2 ^ 32 - 1) ∧
    (let s := fwState 0 (some (3, 1)) [(0, 5), (1, 6)]
     s.fw.work = some (3, 1) ∧ s.fw.marker 0 = some (5, 0) ∧ s.fw.marker 1 = some (6, 0)) ∧
    (let s := fwState 0 (some (3, 2)) []
     s.fw.work = some (3, 0 + 2) ∧ s.fw.marker 0 = none) := by
  decide +kernel
/-! ### Modules and ports -/

/-- Module 0 changed. -/
def modState (f : Module → Module) : State := State.reset.modModule 0 f

/-- A message that carries a marker from die 0 to die 14. -/
def marker (num : Nat) : IMsg := ⟨0, 14, 5, 7, num, .marker 1⟩

/-- ModuleEvents: a flit that is expected and one that is not, an acknowledgement and a request to resend, more than 16
failures, lanes that are repaired, that halve the module and that lose it, messages with a newer and an older number, an
epoch, a flit to transmit, and permits at and below the least. -/
theorem witness_ModuleEvents :
    (let s := modState (fun x => { x with d0 := { x.d0 with wire := [⟨0, marker 1, 0⟩] } })
     (s.mod 0).live = true ∧ ((s.mod 0).dir 0).wire = ⟨0, marker 1, 0⟩ :: [] ∧ ((s.mod 0).dir 0).expect = 0 ∧
       (marker 1).cls ≤ 5) ∧
    (let s := modState (fun x => { x with d0 := { x.d0 with wire := [⟨0, marker 1, 0⟩], expect := 1023 } })
     ((s.mod 0).dir 0).wire = [⟨0, marker 1, 0⟩] ∧ 0 ≠ ((s.mod 0).dir 0).expect) ∧
    (marker 1).dst = (modDies 0).2 ∧ 0 + 1 = (marker 1).flits ∧
    (let p : IMsg := ⟨0, 14, 5, 7, 1, .packet (Packet.new 0 1 0 0 0 0 0 (List.replicate 4 0))⟩; 0 + 1 ≠ p.flits ∧ 1 + 1 = p.flits) ∧
    (let s := modState (fun x => { x with d0 := { x.d0 with
      replay := [⟨7, marker 1, 0⟩, ⟨8, marker 2, 0⟩], sent := 2, ack := some 7, nak := some 8 } })
     ((s.mod 0).dir 0).ack = some 7 ∧ ((s.mod 0).dir 0).replay.findIdx? (fun f => f.seq == 7) = some 0 ∧
       ((s.mod 0).dir 0).nak = some 8 ∧ ((s.mod 0).dir 0).failCount < 3 ∧
       ((s.mod 0).dir 0).replay.findIdx? (fun f => f.seq == 8) = some 1) ∧
    (modState (fun x => { x with d1 := { x.d1 with rxBad := List.replicate 17 0 } })).mod 0 ≠ Module.reset ∧
    ((modState (fun x => { x with d1 := { x.d1 with rxBad := List.replicate 17 0 } })).mod 0).d1.tooManyErrors = true ∧
    (((modState (fun x => { x with retraining := some 3 })).mod 0).retraining = some 3 ∧
      (halfFailed 3 0 ≤ 2 ∧ halfFailed 3 1 ≤ 2) ∧ (2 < halfFailed 7 0 ∧ halfFailed 7 1 ≤ 2) ∧
      (2 < halfFailed 0x700000007 0 ∧ 2 < halfFailed 0x700000007 1)) ∧
    (let s : State := { State.reset with transit := [marker 1] }
     s.transit[0]? = some (marker 1) ∧ (marker 1).dst = 14 ∧ (s.transit.take 0).any (fun q => q.stream == (marker 1).stream) = false ∧
       (marker 1).isPacket = false ∧ newerNum none 1 = true ∧ newerNum (some 1) 1 = false ∧ newerNum (some 65535) 0 = true) ∧
    State.reset.epochAt + 2 ^ 20 ≤ ({ State.reset with cycle := 2 ^ 20 } : State).cycle ∧
    (let s := modState (fun x => { x with d0 := { x.d0 with queue := [(marker 1, 0)] } })
     (s.mod 0).live = true ∧ ((s.mod 0).dir 0).transmit.isSome = true) ∧
    permitsOk 0x040404040404 = true ∧ permitsOk 0x040404040403 = false ∧ (239 < 240 ∧ 256 ≤ 383 ∧ 383 < 384) := by
  decide +kernel

/-- Port 5 up and changed. -/
def portState (f : Port → Port) : State := State.reset.modPort 5 (fun x => f { x with st := .up })

set_option maxRecDepth 40000 in
/-- PortEvents: wire units that pass their check in and out of sequence, and one that fails it. -/
theorem witness_WireUnits :
    [trailer 9 0 2, trailer 9 4095 2].all (fun w => unitOk 9 w && w.toNat / 2 ^ 16 % 2 ^ 4 == 2) = true ∧
    unitOk 9 (trailer 9 0 2 ^^^ 1) = false ∧ (trailer 9 0 2).toNat / 2 ^ 20 % 2 ^ 12 = 0 ∧
    (trailer 9 4095 2).toNat / 2 ^ 20 % 2 ^ 12 ≠ 0 := by
  decide +kernel

/-- PortEvents: a port that is up, a third failure, link control that acknowledges, a port
that retrains, ports in each state. -/
theorem witness_PortEvents :
    (let s := portState id
     s.portUp 5 = true ∧ (s.port 5).retraining = none ∧ (s.port 5).expect = 0) ∧
    (portState (fun x => { x with failCount := 2 })).port 5 ≠ Port.reset ∧
    (((portState (fun x => { x with failCount := 1 })).port 5).unchecked (BitVec.ofNat 32 (9 * 2 ^ 20 + 2 ^ 16)) = true ∧
      ((portState (fun x => { x with failCount := 1 })).port 5).unchecked (BitVec.ofNat 32 (2 ^ 16)) = false) ∧
    (28 : Nat) < (29 * 2 ^ 40 : Word).toNat / 2 ^ 40 % 2 ^ 5 ∧
    (let s := portState (fun x => { x with replay := [⟨7, 1, 0, 0⟩], sent := 1 })
     let f : Flit := BitVec.ofNat 512 (7 + 2 ^ 12)
     f.getLsbD 12 = true ∧ (s.port 5).replay.findIdx? (fun g => g.seq == f.toNat % 2 ^ 12) = some 0 ∧ f.getLsbD 14 = false) ∧
    ((portState (fun x => { x with bad := List.replicate 17 0 })).port 5).tooManyErrors = true ∧
    ((portState (fun x => { x with retraining := some 3 })).port 5).retraining = some 3 ∧
    (let s : State := { State.reset with fab := { Fabric.reset with enable := true } }
     s.fab.enable = true ∧ ((s.modPort 5 (fun x => { x with st := .train })).port 5).st = .train ∧ (s.port 5).st = .down) ∧
    ((portState (fun x => { x with st := .ident })).port 5).st = .ident ∧ 127 < 128 ∧ 8191 < 2 ^ 13 ∧
    (let z := routed 9 [BitVec.ofNat 32 (3 * 2 ^ 25)]
     ((portState (fun x => { x with out := [⟨0, z, false⟩] })).port 5).transmit.isSome = true) := by
  decide +kernel

/-! ### Reductions, barriers and agreement -/

/-- A half of two inputs, cores 5 and 6, with one slot; word 0 as given. -/
def halfOf (w0 : Nat) (map : Assoc (BitVec 16)) : GroupHalf :=
  ⟨BitVec.ofNat 512 (w0 + 2 * 2 ^ 65 + 2 ^ 80 + 2 ^ 102 + 0x1000 * 2 ^ 160 + 0xFFFF * 2 ^ 208), map⟩

/-- Word 0: VALID, ROOT, TOUT 10, RWAIT 10, a version, two ranks and two inputs. -/
def half0 (valid root ver : Nat) : Nat :=
  valid + 2 * root + 10 * 2 ^ 4 + 10 * 2 ^ 9 + ver * 2 ^ 16 + 2 * 2 ^ 24 + 2 * 2 ^ 56

/-- The input map of cores 5 and 6. -/
def coreMap : Assoc (BitVec 16) := [(0, 5), (1, 6)]

/-- A package with group 0 at a version, its node changed, its staged half, and a packet handed over. -/
def groupState (root ver : Nat) (map : Assoc (BitVec 16)) (f : Node → Node) (staged : Assoc GroupHalf) (p : Option Packet) : State :=
  ({ State.reset with fab := { Fabric.reset with
      active := [(0, halfOf (half0 1 root ver) map)], staged := staged, handed := (p.map zOf).toList } }).modNode 0 f

/-- A packet of a core for sequence 0 of group 0. -/
def corePkt (opc oparg low gver core n : Nat) : Packet :=
  { Packet.new (if opc = 0x04 then 2 else 4) opc oparg (fabric 0 511 0 low) (srcOf 0 core 0) 0 0 (List.replicate n 0) with
    gver := gver }

/-- A slot in a stage. -/
def slotOf (st : SlotStage) (bits : List Nat) : RSlot := { RSlot.reset with stage := st, x := 0, bits := bits }

/-- InputsReachTheirSlots: a contribution and an arrival at a free slot, a repeated one, one of another version, a forbidden
one, and a slot whose time is over. -/
theorem witness_InputsReachTheirSlots :
    [corePkt 0x04 0 0 7 5 1, corePkt 0x09 0 0 7 5 0].all (fun p =>
      let s := groupState 1 7 coreMap id [] (some p)
      let s1 := s.dropHanded 0
      s.handedAt 0 p.opc == some (zOf p) && !Packet.part p && !p.dest.testBit 0 && (s1.group 0).any (fun h0 =>
        let h := s1.halfFor 0 h0 0
        srcPkg p.src == s1.pkgId && h.coreInput (srcCore p.src) == some 0 && !(s1.node 0).stopped &&
          s1.versionOk 0 h0 0 7 && !s1.versionOk 0 h0 0 6 && ((s1.node 0).slot 0).stage == .free &&
          newer 0 ((s1.node 0).slot 0).last && !Packet.pres p && 1 < h.nin && h.nslot == 1)) = true ∧
    reduceBad 0 0 0 16 false = false ∧ reduceBad 0 0 6 16 false = true ∧ reduceBad 0 0 0 256 false = false ∧
    (let s := groupState 1 7 coreMap (fun n => { n with slots := [(0, slotOf .opened [0])] }) [] none
     ((s.node 0).slot 0).stage = .opened ∧ ((s.node 0).slot 0).bits.contains 0 = true ∧
       ({ s with cycle := 1024 } : State).slotLate 0 0 = true ∧ ({ s with cycle := 1023 } : State).slotLate 0 0 = false) := by
  decide +kernel

/-- InputsReachTheirSlots: a contribution and an arrival with a reserved DEST bit, for a group without a node, of another version
and to a node that has stopped, and a repeated one at its open slot. -/
theorem witness_InputsRefused :
    [corePkt 0x04 0 1 7 5 1, corePkt 0x09 0 1 7 5 0].all (fun p =>
      let s := groupState 1 7 coreMap id [] (some p)
      s.handedAt 0 p.opc == some (zOf p) && p.dest.testBit 0 && !Packet.part p &&
        !reduceBad (p.oparg / 16) (p.oparg % 16) (p.dest / 2 ^ 5 % 2 ^ 3) (p.len * 64 / fmtSize (p.oparg % 16)) false) = true ∧
    [corePkt 0x04 0 0 7 5 1, corePkt 0x09 0 0 7 5 0].all (fun p =>
      let s : State := { State.reset with fab := { Fabric.reset with handed := [zOf p] } }
      s.handedAt 0 p.opc == some (zOf p) && !p.dest.testBit 0 && (s.group 0).isNone) = true ∧
    [corePkt 0x04 0 0 6 5 1, corePkt 0x09 0 0 6 5 0].all (fun p =>
      let s := groupState 1 7 coreMap id [] (some p)
      s.handedAt 0 p.opc == some (zOf p) && (s.group 0).any (fun h => !s.versionOk 0 h 0 p.gver)) = true ∧
    [corePkt 0x04 0 0 7 5 1, corePkt 0x09 0 0 7 5 0].all (fun p =>
      let s := groupState 1 7 coreMap (fun n => { n with stopped := true }) [] (some p)
      s.handedAt 0 p.opc == some (zOf p) && (s.group 0).any (fun h => s.versionOk 0 h 0 7 &&
        s.shutFor 0 h 0 ((s.node 0).slot 0))) = true ∧
    [corePkt 0x04 0 0 7 5 1, corePkt 0x09 0 0 7 5 0].all (fun p =>
      let s := groupState 1 7 coreMap (fun n => { n with slots := [(0, slotOf .opened [0])] }) [] (some p)
      s.handedAt 0 p.opc == some (zOf p) && (s.group 0).any (fun h => s.versionOk 0 h 0 7 &&
        !s.shutFor 0 h 0 ((s.node 0).slot 0))) = true ∧
    (let p := corePkt 0x04 0x60 0 7 5 1
     reduceBad (p.oparg / 16) (p.oparg % 16) (p.dest / 2 ^ 5 % 2 ^ 3) (p.len * 64 / fmtSize (p.oparg % 16)) false = true) := by
  decide +kernel

/-- A package whose slot 0 awaits a result for sequence 0, with a packet and the fan-out point that delivers it. -/
def resultState (p : Packet) : State :=
  let s := groupState 0 7 coreMap (fun n => { n with slots := [(0, slotOf .wait [0, 1])] }) [] none
  s.modFab (fun f => { f with
    handed := [{ zOf p with fan := some (4, 639) }]
    fans := [⟨4, 1, p, none, .sender, [(639, 0)], false, 0⟩]
    fanSets := [(1, BitVec.ofNat 512 (0x60 * 2 ^ 128))] })

/-- ResultsReachTheirMembers: the data and the status of a result, a release, one that no slot awaits, a status to send and a
wait that is over. -/
theorem witness_ResultsReachTheirMembers :
    [corePkt 0x05 0 0 7 511 4, corePkt 0x05 1 0 7 511 1].all (fun p =>
      let s := resultState p
      let z : ZPacket := { zOf p with fan := some (4, 639) }
      s.handedAt 0 0x05 == some z && ((s.awaits p).map (·.2)) == some 0 &&
        (s.fanCores z).filter s.coreReachable == [5, 6] && (s.group p.group).isSome) = true ∧
    (let r : ResultRows := ⟨none, .a, [(0, [1]), (8191, [2])], some (0, 0, [3])⟩
     let s : State := State.reset.modCore 319 (fun k => { k with rx := [.packet none (corePkt 0x07 0 0 7 0 0), .rows r, .rows r] })
     (s.core 319).rx[1]? = some (.rows r) ∧ (((s.core 319).rx.take 1).any RxItem.performs || !s.portOpen 319 .a 0) = false ∧
       (((s.core 319).rx.take 2).any RxItem.performs || !s.portOpen 319 .a 0) = true ∧ (s.core 319).liveRow .a 0 = false) ∧
    (let p := corePkt 0x0A 0 0 7 511 0
     (resultState p).handedAt 0 0x0A = some { zOf p with fan := some (4, 639) } ∧
       ((resultState p).awaits p).map (·.2) = some 0 ∧
       (groupState 0 7 coreMap id [] (some p)).awaits p = none) ∧
    (let d : Delivery := ⟨0, 0, 7, [0, 1], 2, false, false, true, false⟩
     let s := groupState 1 7 coreMap (fun n => { n with deliveries := [d] }) [] none
     (s.group 0).isSome = true ∧ (s.node 0).deliveries.find? (fun d => d.slot == 0 && d.acked && !d.sent) = some d) ∧
    (let s := groupState 0 7 coreMap (fun n => { n with slots := [(0, slotOf .wait [0, 1])] }) [] none
     ({ s with cycle := 1024 } : State).resultLate 0 0 = true ∧ (s.group 0).isSome = true ∧
       [5].all s.coreReachable = true) := by
  decide +kernel

/-- ResultsReachTheirMembers: each packet with a reserved DEST bit, for a group without a node, and at a slot that awaits
nothing. -/
theorem witness_ResultsNotAwaited :
    [corePkt 0x05 0 1 7 511 4, corePkt 0x05 1 1 7 511 1, corePkt 0x0A 0 1 7 511 0].all (fun p =>
      (groupState 0 7 coreMap id [] (some p)).handedAt 0 p.opc == some (zOf p) &&
        (groupState 0 7 coreMap id [] (some p)).groupRefusal p == some 0x81 && State.reset.groupRefusal p == some 0x81 &&
        State.reset.groupRefusal { p with dest := p.dest - 1 } == some 0x87) = true ∧
    [corePkt 0x05 0 0 7 511 4, corePkt 0x05 1 0 7 511 1, corePkt 0x0A 0 0 7 511 0].all (fun p =>
      let s := groupState 0 7 coreMap id [] (some p)
      s.handedAt 0 p.opc == some (zOf p) && s.groupRefusal p == none && (s.awaits p).isNone &&
        (resultState p).groupRefusal p == none && (resultState p).handedAt 0 p.opc == some { zOf p with fan := some (4, 639) })
      = true := by
  decide +kernel

/-- GroupsAndRingsAreConfigured: a half that is valid, one that may become so and one that may not; rings that are taken and
that are refused. -/
theorem witness_GroupsAndRings :
    (let s := groupState 1 7 coreMap id [] none
     (s.half 0 false).ctl.getLsbD 0 = true ∧ (s.group 0).isSome = true ∧ 4095 < 4096) ∧
    (let v : Word := BitVec.ofNat 64 (half0 1 1 7)
     let s : State := State.reset.setHalf 0 true (halfOf 0 coreMap)
     v.getLsbD 0 = true ∧ s.halfOk 0 true (((s.half 0 true).writeWord0 v.toNat).set 0 0 0) = true ∧
       State.reset.halfOk 0 true (((State.reset.half 0 true).writeWord0 v.toNat).set 0 0 0) = false) ∧
    (State.reset.ringFull 15 = 0 ∧ State.reset.groupTakes none 0 4 = false ∧
      State.reset.ringTakes (fun q _ => q != 15) 0 4 = false ∧ 15 < 16 ∧
      (groupState 1 7 coreMap id [] none).groupTakes none 0 1 = true ∧
      (ringState (ringPkt 1 0 0) []).ringTakes (fun q _ => q != 15) 0 1 = true ∧
      (ringState (ringPkt 1 0 0) [(0, (2, []))]).ringFull 0 ≠ 0) := by
  decide +kernel

/-- A map of core 5 and a child package 3. -/
def childMap : Assoc (BitVec 16) := [(0, 5), (1, 0x8003)]

/-- A staged half of the next version. -/
def stagedOf (root ver : Nat) : Assoc GroupHalf := [(0, halfOf (half0 1 root ver) childMap)]

/-- An AGREE packet of a step for version 8 from package 3. -/
def agreePkt (step b : Nat) : Packet :=
  Packet.new 4 0x0B 0 (fabric 0 511 0 0) (srcOf 3 511 0) 0 0 [BitVec.ofNat 512 (step + 8 * 2 ^ 8 + b * 2 ^ 16)]

/-- A round at a node. -/
def roundOf (committed : Bool) : Round := ⟨8, 0, [], none, false, committed, true, []⟩

/-- AgreementRounds: a root that may propose, a group that is not there, a round past its deadline, a settled commit, a node that
has left, and each step's packet. -/
theorem witness_AgreementRounds :
    (let s := groupState 1 7 childMap id [] none
     (s.group 0).any (fun h => h.root && h.f 2 2 == 0) = true ∧ (s.stagedHalf 0).isNone = true ∧ (s.group 1).isNone = true) ∧
    (let s := (groupState 1 7 childMap (fun n => { n with round := some (roundOf false) }) [] none)
     let t : State := { s.setHalf 0 false ((s.half 0 false).set 2 2 1) with cycle := 1024 }
     (t.group 0).isSome = true ∧ (t.node 0).round = some (roundOf false) ∧ t.roundLate 0 = true) ∧
    ((groupState 1 7 childMap (fun n => { n with round := some (roundOf true) }) [] none).commitSettled 0 = true) ∧
    ((groupState 0 7 childMap (fun n => { n with leaving := true }) [] none).leaveDone 0 = true) ∧
    (let s := groupState 0 7 childMap id (stagedOf 0 8) (some (agreePkt 1 0))
     s.agreeAt 0 1 = some (zOf (agreePkt 1 0)) ∧ ((s.dropHanded 0).matching 0 (Packet.agreeByte (agreePkt 1 0) 1)).isSome = true ∧
       ((s.dropHanded 0).node 0).round = none ∧
       ((s.modNode 0 (fun n => { n with round := some { roundOf false with proposer := false } })).agreeAt 0 1).isSome = true) ∧
    [(1 : Nat), 3, 4].all (fun k =>
      let p := agreePkt k 0
      let odd : Packet := { p with dest := p.dest + 1 }
      (groupState 0 7 childMap id [] (some odd)).agreeAt 0 k == some (zOf odd) &&
        (groupState 0 7 childMap id [] none).agreeRefusal odd == some 0x81 && State.reset.agreeRefusal p == some 0x87) = true ∧
    (let s := groupState 0 7 childMap id [] (some (agreePkt 2 0))
     s.agreeAt 0 2 = some (zOf (agreePkt 2 0)) ∧ ((s.dropHanded 0).group 0).any (fun h =>
       h.childInput (srcPkg (agreePkt 2 0).src) == some 1 && Packet.agreeByte (agreePkt 2 0) 1 == (h.ver + 1) % 256) = true) ∧
    (let s := groupState 0 7 childMap id (stagedOf 0 8) (some (agreePkt 3 5))
     s.agreeAt 0 3 = some (zOf (agreePkt 3 5)) ∧ ((s.dropHanded 0).matching 0 8).any (fun m => !m.leaves) = true ∧
       ((s.dropHanded 0).group 0).any (fun h => h.bound == Packet.agreeB (agreePkt 3 5)) = false) ∧
    [none, some (8, 5)].all (fun r =>
      let s := groupState 0 7 childMap (fun n => { n with refused := r }) [] (some (agreePkt 3 5))
      s.agreeAt 0 3 == some (zOf (agreePkt 3 5)) && ((s.dropHanded 0).group 0).any (fun h => h.bound != 5) &&
        ((s.dropHanded 0).matching 0 8).isNone) = true ∧
    ((groupState 0 7 childMap id [] (some (agreePkt 4 0))).agreeAt 0 4 = some (zOf (agreePkt 4 0)) ∧
      (groupState 0 7 childMap id [] none).agreeRefusal (agreePkt 4 0) = none) ∧
    ((groupState 0 7 childMap id [] (some (agreePkt 5 0))).handedAt 0 0x0B = some (zOf (agreePkt 5 0)) ∧
      4 < Packet.step (agreePkt 5 0) ∧ Packet.step (agreePkt 0 0) = 0) := by
  decide +kernel

/-- A half of four inputs, and an open slot in tree order that holds the data of each. -/
def fourHalf : GroupHalf := { halfOf (half0 1 0 7 + 2 * 2 ^ 24) coreMap with ctl := BitVec.ofNat 512 (half0 1 0 7 + 2 * 2 ^ 56 + 2 * 2 ^ 65) }

/-- Its slot. -/
def fourSlot (bits : List Nat) : RSlot :=
  { slotOf .opened bits with data := [(0, [(1, 0)]), (1, [(2, 0)]), (2, [(3, 0)]), (3, [(4, 0)])] }

/-- ReducedValues: elements of both kinds, an input that agrees with its slot, all and three of four inputs in tree order, and a
slot of a node below the root whose time is over. -/
theorem witness_ReducedValues :
    ((0 : Nat) ≠ 5 ∧ (0 : Nat) < [((1 : Nat), (0 : Nat))].length) ∧
    (let i : Input := ⟨0, some 5, false, 0, 0, 0, false, 0, 7, false, false, [(1, 0)]⟩
     (slotOf .opened []).agrees i = true ∧ i.mism = false ∧ i.pres = false ∧ i.barrier = false) ∧
    [[0, 1, 2, 3], [0, 2, 3]].all (fun l => !(fourSlot l).order && fourHalf.nin == 4 && (fourSlot l).bits == l &&
      [0, 1, 2, 3].all (fun k => (Assoc.find (fourSlot l).data k).isSome)) = true ∧
    (let s : State := { groupState 0 7 coreMap (fun n => { n with slots := [(0, fourSlot [0])] }) [] none with cycle := 1024 }
     (s.group 0).any (fun h => !(s.halfFor 0 h 0).root) = true ∧ s.slotLate 0 0 = true ∧ ((s.node 0).slot 0).barrier = false ∧
       ((s.node 0).slot 0).mism = false) := by
  decide +kernel
end Sys2Proof.Tests
end

/-! ### Forip ports: what the operations of a port leave (R41 to R45, R52, R57) -/

namespace Sys2Proof.Machine
open Sys2Proof

/-- A field as quotient and remainder (R10). -/
theorem field_eq_div_mod (x hi lo : Nat) : field x hi lo = x / 2 ^ lo % 2 ^ (hi + 1 - lo) := by
  rw [field, Nat.shiftRight_eq_div_pow]

/-- A field that begins at bit 0 is a remainder. -/
theorem field_low (x hi : Nat) : field x hi 0 = x % 2 ^ (hi + 1) := by
  rw [field_eq_div_mod, Nat.pow_zero, Nat.div_one, Nat.sub_zero]

theorem satInc_eq_min (max n : Nat) : satInc max n = min max (n + 1) := by
  unfold satInc
  split <;> omega

/-! #### A port after a change of a port -/

@[simp] theorem port_modPort_self (s : State) (p : Nat) (f : Port → Port) : (s.modPort p f).port p = f (s.port p) := by
  simp [State.port]

/-- Another port stays. -/
theorem port_modPort_ne (s : State) {p q : Nat} (f : Port → Port) (h : q ≠ p) : (s.modPort p f).port q = s.port q := by
  simp [State.port, Assoc.get_put_ne _ _ _ h]

/-- One change made to each port of a list. -/
theorem port_foldl_modPort (f : Port → Port) (q : Nat) (l : List Nat) (hl : l.Nodup) (s : State) :
    (l.foldl (fun s p => s.modPort p f) s).port q = if q ∈ l then f (s.port q) else s.port q := by
  induction l generalizing s with
  | nil => simp
  | cons p l ih =>
    obtain ⟨hp, hl⟩ := List.nodup_cons.1 hl
    rw [List.foldl_cons, ih hl]
    by_cases h : q = p
    · subst h
      simp [hp]
    · simp [h, port_modPort_ne s f h]

@[simp] theorem countDrop_fab (s : State) (port : Option Nat) : (s.countDrop port).fab = s.fab := by
  cases port <;> rfl

@[simp] theorem port_countDrop (s : State) (port : Option Nat) (p : Nat) : (s.countDrop port).port p = s.port p := by
  simp [State.port]

@[simp] theorem returnRead_readData (s : State) (x : Nat) : (s.returnRead x).mgmt.readData = BitVec.ofNat 64 x := rfl

/-! #### Retraining and link control (R42, R43) -/

/-- A port that is up and does not retrain yet begins to. -/
theorem port_portRetrain_up (s : State) (p : Nat) (hup : s.portUp p = true) (hr : (s.port p).retraining = none) :
    (s.portRetrain p).port p = { s.port p with
      retraining := some s.cycle, retrains := satInc 0xFF (s.port p).retrains, failCount := 0, bad := [] } := by
  have hst : (s.port p).st = .up := by simpa [State.portUp] using hup
  simp [State.portRetrain, hst, hr]

/-- A port that is not up stays as it is. -/
theorem port_portRetrain_not_up (s : State) (p : Nat) (hst : (s.port p).st ≠ .up) : (s.portRetrain p).port p = s.port p := by
  simp [State.portRetrain, hst]

/-- Returned permits leave the replay buffer as it is. -/
theorem replay_give (x : Port) (c n : Nat) : (x.give c n).replay = x.replay := rfl

/-- The return of permits in every class leaves the replay buffer as it is. -/
theorem replay_foldl_give (n : Port → Nat → Nat) (r : Port → Nat → List Nat) (l : List Nat) (x : Port) :
    (l.foldl (fun x c => { x.give c (n x c) with ret := r x c }) x).replay = x.replay := by
  refine List.foldlRecOn (motive := fun y : Port => y.replay = x.replay) l _ rfl ?_
  intro y h c _
  exact (replay_give y c (n y c)).trans h

/-- Link control that acknowledges a number in the replay buffer frees the flits up to it. -/
theorem replay_takeControl (s : State) (p i : Nat) (f : Flit) (hack : f.getLsbD 12 = true)
    (hi : (s.port p).replay.findIdx? (fun g => g.seq == f.toNat % 2 ^ 12) = some i) (hr : f.getLsbD 14 = false) :
    ((s.takeControl p f).port p).replay = (s.port p).replay.drop (i + 1) := by
  have hq : field f.toNat 11 0 = f.toNat % 2 ^ 12 := field_low _ 11
  have hx : ((s.port p).acknowledge (f.toNat % 2 ^ 12)).replay = (s.port p).replay.drop (i + 1) := by
    simp only [Port.acknowledge, hi]
  simp only [State.takeControl, hr, Bool.false_eq_true, if_false, port_modPort_self, hack, if_true, hq]
  rw [replay_foldl_give]
  split <;> exact hx

/-! #### Reception of a data flit (R41) -/

/-- A packet that has arrived whole changes nothing of its port but the count of reserved classes. -/
theorem port_receivePacket (s : State) (p : Nat) (pkt : Packet) (poison : Bool) :
    ∃ b, (s.receivePacket p pkt poison).port p = { s.port p with badClass := b } := by
  unfold State.receivePacket
  split
  · exact ⟨(s.port p).badClass + 1, by simp⟩
  · exact ⟨(s.port p).badClass, rfl⟩

/-- A data flit in sequence changes nothing of its port but the packet being received and the count of reserved classes. -/
theorem port_receiveFlit (s : State) (p kind : Nat) (f : Flit) :
    ∃ o b, (s.receiveFlit p kind f).port p = { s.port p with partPkt := o, badClass := b } := by
  have stored (t : State) (o : Option (Packet × List Flit)) (b : Nat) (h : t.port p = { s.port p with badClass := b }) :
      ∃ o' b', (t.modPort p (fun x => { x with partPkt := o })).port p = { s.port p with partPkt := o', badClass := b' } :=
    ⟨o, b, by rw [port_modPort_self, h]⟩
  have taken (t : State) (o : Option (Packet × List Flit)) (b : Nat) (q : Packet) (e : Bool)
      (h : t.port p = { s.port p with badClass := b }) : ∃ o' b',
      ((t.modPort p (fun x => { x with partPkt := o })).receivePacket p q e).port p =
        { s.port p with partPkt := o', badClass := b' } := by
    obtain ⟨b', hb⟩ := port_receivePacket (t.modPort p (fun x => { x with partPkt := o })) p q e
    exact ⟨o, b', by rw [hb, port_modPort_self, h]⟩
  unfold State.receiveFlit
  dsimp only
  split
  · cases ho : (s.port p).partPkt with
    | none =>
      dsimp only
      split
      · exact taken s _ _ _ _ rfl
      · exact stored s _ _ rfl
    | some c =>
      obtain ⟨b, hb⟩ := port_receivePacket s p { c.1 with payload := c.2 } false
      dsimp only
      split
      · exact taken _ _ b _ _ hb
      · exact stored _ _ b hb
  · cases ho : (s.port p).partPkt with
    | none => exact ⟨none, (s.port p).badClass, by rw [port_countDrop, ← ho]⟩
    | some c =>
      dsimp only
      split
      · exact stored s _ _ rfl
      · exact taken s _ _ _ _ rfl

/-! #### What the Z die's routing leaves (R52, R55) -/

/-- The configuration of the fabric and the management block stay. -/
structure ConfigKept (s t : State) : Prop where
  mcwait : t.mcwait = s.mcwait
  pkgId : t.pkgId = s.pkgId
  mgmt : t.mgmt = s.mgmt
  enable : t.fab.enable = s.fab.enable

/-- The configuration stays, and so does the state of every port. -/
structure LinksKept (s t : State) : Prop extends ConfigKept s t where
  st : ∀ p, (t.port p).st = (s.port p).st

theorem ConfigKept.refl (s : State) : ConfigKept s s := ⟨rfl, rfl, rfl, rfl⟩

theorem ConfigKept.trans {s t u : State} (h : ConfigKept s t) (g : ConfigKept t u) : ConfigKept s u :=
  ⟨g.mcwait.trans h.mcwait, g.pkgId.trans h.pkgId, g.mgmt.trans h.mgmt, g.enable.trans h.enable⟩

theorem LinksKept.refl (s : State) : LinksKept s s := ⟨ConfigKept.refl s, fun _ => rfl⟩

theorem LinksKept.trans {s t u : State} (h : LinksKept s t) (g : LinksKept t u) : LinksKept s u :=
  ⟨h.toConfigKept.trans g.toConfigKept, fun p => (g.st p).trans (h.st p)⟩

theorem LinksKept.foldl {α : Type} (f : State → α → State) (hf : ∀ s a, LinksKept s (f s a)) (l : List α) (s : State) :
    LinksKept s (l.foldl f s) :=
  List.foldlRecOn (motive := LinksKept s) l f (LinksKept.refl s) (fun t h a _ => h.trans (hf t a))

/-- A state with the same fabric, fabric configuration and management block. -/
theorem LinksKept.of_fab {s t : State} (hm : t.mcwait = s.mcwait) (hi : t.pkgId = s.pkgId) (hg : t.mgmt = s.mgmt)
    (hf : t.fab = s.fab) : LinksKept s t :=
  ⟨⟨hm, hi, hg, by rw [hf]⟩, fun p => by simp [State.port, hf]⟩

theorem configKept_modPort (s : State) (p : Nat) (f : Port → Port) : ConfigKept s (s.modPort p f) := ⟨rfl, rfl, rfl, rfl⟩

theorem linksKept_enqueue (s : State) (p : Nat) (z : ZPacket) (copy : Bool) : LinksKept s (s.enqueue p z copy) := by
  refine ⟨configKept_modPort s p _, fun q => ?_⟩
  by_cases h : q = p
  · subst h
    simp [State.enqueue]
  · rw [State.enqueue, port_modPort_ne s _ h]

theorem linksKept_modNode (s : State) (g : Nat) (f : Node → Node) : LinksKept s (s.modNode g f) :=
  ⟨⟨rfl, rfl, rfl, rfl⟩, fun _ => rfl⟩

theorem linksKept_countDrop (s : State) (port : Option Nat) : LinksKept s (s.countDrop port) := by
  cases port <;> exact .of_fab rfl rfl rfl rfl

theorem linksKept_errorFor (s : State) (p : Packet) (code : Nat) : LinksKept s (s.errorFor p code) := by
  unfold State.errorFor
  split
  · exact .of_fab rfl rfl rfl rfl
  · exact .refl s

theorem linksKept_ackToward (s : State) (p : Packet) (port : Option Nat) (status : Nat) :
    LinksKept s (s.ackToward p port status) := by
  cases port with
  | none => exact .of_fab rfl rfl rfl rfl
  | some q => exact linksKept_enqueue s q _ _

theorem linksKept_logEvent (s : State) (die code arg : Nat) : LinksKept s (s.logEvent die code arg) := by
  unfold State.logEvent
  exact .of_fab rfl rfl rfl rfl

theorem linksKept_fanDone (s : State) (f : Fan) : LinksKept s (s.fanDone f) := by
  unfold State.fanDone
  generalize (if f.lost then 0x82 else f.status) = st
  generalize f.owner = o
  cases o with
  | sender => exact linksKept_ackToward s _ _ _
  | data g k x => exact linksKept_modNode s _ _
  | status g k x => exact linksKept_modNode s _ _
  | commit g =>
    dsimp only
    split
    · exact .refl s
    · exact linksKept_logEvent s _ _ _
  | agree g => exact .refl s

theorem linksKept_settleFan (s : State) (id : Nat) (f : Fan → Fan) : LinksKept s (s.settleFan id f) := by
  have fans (g : List Fan → List Fan) : LinksKept s (s.modFab (fun b => { b with fans := g b.fans })) :=
    ⟨⟨rfl, rfl, rfl, rfl⟩, fun _ => rfl⟩
  unfold State.settleFan
  split
  · exact .refl s
  · dsimp only
    split
    · exact (fans _).trans (linksKept_fanDone _ _)
    · exact fans _

theorem linksKept_discard (s : State) (z : ZPacket) (code : Nat) : LinksKept s (s.discard z code) := by
  unfold State.discard
  split
  · exact .refl s
  · split
    · exact (linksKept_countDrop s _).trans (linksKept_settleFan _ _ _)
    · exact (linksKept_errorFor s _ _).trans (linksKept_countDrop _ _)

theorem linksKept_reroute (s : State) (z : ZPacket) (front : Bool) : LinksKept s (s.reroute z front) := by
  unfold State.reroute
  split
  · exact linksKept_discard s z _
  · split
    · exact linksKept_discard s z _
    · exact .of_fab rfl rfl rfl rfl

/-- A port that goes down is down, and the configuration stays: its packets only take new ways. -/
theorem portDown_spec (s : State) (p : Nat) : ConfigKept s (s.portDown p) ∧ ((s.portDown p).port p).st = .down := by
  obtain ⟨u, hc, hst, hk⟩ : ∃ u, ConfigKept s u ∧ (u.port p).st = .down ∧ LinksKept u (s.portDown p) := by
    unfold State.portDown
    refine ⟨_, ?_, ?_, .trans (.foldl _ ?_ _ _) (.foldl _ ?_ _ _)⟩
    · exact ⟨rfl, rfl, rfl, rfl⟩
    · rw [port_modPort_self]; rfl
    · intro t o
      split
      · exact linksKept_settleFan t _ _
      · exact .refl t
    · exact fun t o => linksKept_reroute t o.z true
  exact ⟨hc.trans hk.toConfigKept, (hk.st p).trans hst⟩

/-! ### The steps of a port (R41 to R45) -/

/-! #### Wire units -/

/-- A unit that is not checked, in the words of R43: a data unit behind a failed one that does not bring the expected number. -/
theorem unchecked_eq (x : Port) (w : BitVec 32) : x.unchecked w =
    decide (x.failCount ≠ 0 ∧ w.toNat / 2 ^ 16 % 2 ^ 4 ≠ 0 ∧ w.toNat / 2 ^ 20 % 2 ^ 12 ≠ x.expect) := by
  rw [Bool.eq_iff_iff]
  simp [Port.unchecked, field_eq_div_mod, and_assoc]

/-- A unit that is not checked is discarded. -/
theorem foripFlitReceive_unchecked (p : Nat) (f : Flit) (w : BitVec 32) (s : State) (h : (s.port p).unchecked w = true) :
    exec (.foripFlitReceive p f w) s = .next s := by
  simp [exec, execForipFlitReceive, h]

section
variable {p : Nat} {f : Flit} {w : BitVec 32} {s : State} (hup : s.portUp p = true) (hr : (s.port p).retraining = none)
include hup hr

/-- A unit that fails its check is counted and asks for a resend; the third failure of one number retrains. -/
theorem foripFlitReceive_failed (hu : (s.port p).unchecked w = false) (hbad : unitOk f w = false) :
    let x := s.port p
    let n := if x.failSeq = x.expect then x.failCount + 1 else 1
    ∃ t, exec (.foripFlitReceive p f w) s = .next t ∧
      (t.port p).crcErr = min 0xFFFF (x.crcErr + 1) ∧ (t.port p).nak = true ∧ (t.port p).expect = x.expect ∧
      (3 ≤ n → (t.port p).retraining = some s.cycle) ∧ (n < 3 → (t.port p).failCount = n) := by
  intro x n
  obtain ⟨u, he, hp, hc⟩ : ∃ u : State,
      exec (.foripFlitReceive p f w) s = .next (if 3 ≤ n then u.portRetrain p else u) ∧
      u.port p = { x with
        received := x.received + 1, crcErr := satInc 0xFFFF x.crcErr, nak := true, failSeq := x.expect, failCount := n
        bad := (x.bad ++ [x.received + 1]).drop (x.bad.length + 1 - 17) } ∧
      u.cycle = s.cycle := by
    refine ⟨?u, ?_, ?_, ?_⟩
    rotate_left
    · simp only [exec, execForipFlitReceive, hup, hr, hu, hbad, Option.isSome_none, Bool.not_true, Bool.not_false,
        Bool.false_eq_true, or_self, if_false, if_true, port_modPort_self]
      rfl
    · simp only [port_modPort_self, x, n]
    · rfl
  by_cases h3 : 3 ≤ n
  · have hup' : u.portUp p = true := by rw [State.portUp, hp]; exact hup
    refine ⟨_, he, ?_⟩
    rw [if_pos h3, port_portRetrain_up u p hup' (by rw [hp]; exact hr), hp, hc]
    exact ⟨satInc_eq_min _ _, rfl, rfl, fun _ => rfl, fun h => absurd h3 (Nat.not_le.2 h)⟩
  · refine ⟨_, he, ?_⟩
    rw [if_neg h3, hp]
    exact ⟨satInc_eq_min _ _, rfl, rfl, fun h => absurd h h3, fun _ => rfl⟩

/-- A good data unit with the expected number advances the receiver. -/
theorem foripFlitReceive_in_sequence (hok : unitOk f w = true) (hk : w.toNat / 2 ^ 16 % 2 ^ 4 ≠ 0)
    (hs : w.toNat / 2 ^ 20 % 2 ^ 12 = (s.port p).expect) :
    ∃ t, exec (.foripFlitReceive p f w) s = .next t ∧ (t.port p).expect = ((s.port p).expect + 1) % 4096 ∧
      (t.port p).nak = false ∧ (t.port p).crcErr = (s.port p).crcErr := by
  have hu : (s.port p).unchecked w = false := by rw [unchecked_eq, hs]; simp
  have hk' : field w.toNat 19 16 ≠ 0 := by rwa [field_eq_div_mod]
  have hs' : field w.toNat 31 20 = (s.port p).expect := by rwa [field_eq_div_mod]
  obtain ⟨u, he, hp⟩ : ∃ u : State, exec (.foripFlitReceive p f w) s = .next (u.receiveFlit p (field w.toNat 19 16) f) ∧
      u.port p = { s.port p with
        received := (s.port p).received + 1, expect := ((s.port p).expect + 1) % 4096, nak := false, failCount := 0
        sinceControl := (s.port p).sinceControl + 1 } := by
    refine ⟨?u, ?_, ?_⟩
    rotate_left
    · simp only [exec, execForipFlitReceive, hup, hr, hu, hok, hk', hs', Option.isSome_none, Bool.not_true, Bool.false_eq_true,
        or_self, if_false, port_modPort_self, ne_eq, not_true_eq_false]
      rfl
    · simp only [port_modPort_self]
  obtain ⟨o, b, hf⟩ := port_receiveFlit u p (field w.toNat 19 16) f
  refine ⟨_, he, ?_⟩
  rw [hf, hp]
  exact ⟨rfl, rfl, rfl⟩

/-- A good data unit with another number is discarded. -/
theorem foripFlitReceive_out_of_sequence (hok : unitOk f w = true) (hk : w.toNat / 2 ^ 16 % 2 ^ 4 ≠ 0)
    (hs : w.toNat / 2 ^ 20 % 2 ^ 12 ≠ (s.port p).expect) :
    ∃ t, exec (.foripFlitReceive p f w) s = .next t ∧ t.zin = s.zin ∧ (t.port p).expect = (s.port p).expect := by
  have hk' : field w.toNat 19 16 ≠ 0 := by rwa [field_eq_div_mod]
  have hs' : field w.toNat 31 20 ≠ (s.port p).expect := by rwa [field_eq_div_mod]
  cases hu : (s.port p).unchecked w with
  | true => exact ⟨s, foripFlitReceive_unchecked p f w s hu, rfl, rfl⟩
  | false =>
    refine ⟨s.modPort p (fun x => { x with received := x.received + 1 }), ?_, rfl, by simp⟩
    simp [exec, execForipFlitReceive, hup, hr, hu, hok, hk', hs']

end

/-! #### Link control -/

/-- Link control that acknowledges frees the flits up to the acknowledged one. -/
theorem linkControlReceive_acknowledges (p i : Nat) (f : Flit) (s : State) (hup : s.portUp p = true)
    (hack : f.getLsbD 12 = true) (hi : (s.port p).replay.findIdx? (fun g => g.seq == f.toNat % 2 ^ 12) = some i)
    (hr : f.getLsbD 14 = false) : ∃ t, exec (.linkControlReceive p f) s = .next t ∧
      (t.port p).replay = (s.port p).replay.drop (i + 1) :=
  ⟨_, by simp only [exec, execLinkControlReceive, hup, if_true], replay_takeControl s p i f hack hi hr⟩

/-- A port that is up sends its link-control flit. -/
theorem linkControlSend_sends (p : Nat) (s : State) (hup : s.portUp p = true) :
    ∃ t, exec (.linkControlSend p) s = .next t ∧
      (t.port p).unit = some ((s.port p).control, trailer (s.port p).control 0 0) ∧
      (t.port p).sinceControl = 0 ∧ (t.port p).nak = false := by
  refine ⟨_, rfl, ?_⟩
  simp only [hup, Bool.not_true, Bool.false_eq_true, if_false, port_modPort_self, and_self]

/-! #### Retraining -/

/-- A port with too many CRC failures retrains. -/
theorem foripRateRetrain_retrains (p : Nat) (s : State) (hup : s.portUp p = true) (hr : (s.port p).retraining = none)
    (he : (s.port p).tooManyErrors = true) : ∃ t, exec (.foripRateRetrain p) s = .next t ∧
      (t.port p).retraining = some s.cycle ∧ (t.port p).retrains = min 0xFF ((s.port p).retrains + 1) := by
  refine ⟨s.portRetrain p, by simp only [exec, execForipRateRetrain, he, if_true], ?_⟩
  rw [port_portRetrain_up s p hup hr]
  exact ⟨rfl, satInc_eq_min _ _⟩

/-- A write of RETRAIN leaves, of a port that retraining has left as x: the request, and the state as R45 gives it. -/
theorem port_fpstatRetrain (p : Nat) (s : State) : ∃ t, exec (.fpstatRetrain p) s = .next t ∧
    t.port p = { (s.portRetrain p).port p with
      request := true
      st := if s.fab.enable ∧ ((s.portRetrain p).port p).st = .down then .train else ((s.portRetrain p).port p).st } :=
  ⟨_, rfl, port_modPort_self _ p _⟩

/-- RETRAIN of a port that is up begins a retraining. -/
theorem fpstatRetrain_up (p : Nat) (s : State) (hup : s.portUp p = true) (hr : (s.port p).retraining = none) :
    ∃ t, exec (.fpstatRetrain p) s = .next t ∧ (t.port p).request = true ∧ (t.port p).retraining = some s.cycle := by
  obtain ⟨t, he, ht⟩ := port_fpstatRetrain p s
  refine ⟨t, he, ?_⟩
  rw [ht, port_portRetrain_up s p hup hr]
  exact ⟨rfl, rfl⟩

/-- RETRAIN of a port that is not up is kept, and only a port that is down changes its state. -/
theorem fpstatRetrain_not_up (p : Nat) (s : State) (hst : (s.port p).st ≠ .up) :
    ∃ t, exec (.fpstatRetrain p) s = .next t ∧ (t.port p).request = true ∧
      (t.port p).retraining = (s.port p).retraining ∧ ((s.port p).st ≠ .down → (t.port p).st = (s.port p).st) := by
  obtain ⟨t, he, ht⟩ := port_fpstatRetrain p s
  refine ⟨t, he, ?_⟩
  rw [ht, port_portRetrain_not_up s p hst]
  exact ⟨rfl, rfl, fun hd => if_neg (fun h => hd h.2)⟩

/-- RETRAIN of a port that is down trains it while ENABLE = 1. -/
theorem fpstatRetrain_down (p : Nat) (s : State) (hen : s.fab.enable = true) (hst : (s.port p).st = .down) :
    ∃ t, exec (.fpstatRetrain p) s = .next t ∧ (t.port p).st = .train := by
  obtain ⟨t, he, ht⟩ := port_fpstatRetrain p s
  refine ⟨t, he, ?_⟩
  rw [ht, port_portRetrain_not_up s p (by rw [hst]; decide)]
  exact if_pos ⟨hen, hst⟩

/-- A retraining that leaves a good lane ends, on both lanes or on the good one. -/
theorem foripRetrainEnd_good (p n : Nat) (l0 l1 : Bool) (s : State) (hr : (s.port p).retraining = some n)
    (hl : (l0 || l1) = true) : ∃ t, exec (.foripRetrainEnd p l0 l1) s = .next t ∧ (t.port p).retraining = none ∧
      (t.port p).oneLane = (if l0 && l1 then (s.port p).oneLane && !(s.port p).request else true) ∧
      (t.port p).lane = if l0 && l1 then (s.port p).lane else b2n l1 := by
  have hn : (!l0 && !l1) = false := by rw [← Bool.not_or, hl]; rfl
  refine ⟨_, by simp only [exec, execForipRetrainEnd, hr, hn, Option.isNone_some, Bool.false_eq_true, if_false]; rfl, ?_⟩
  simp only [port_modPort_self, and_self]

/-- A retraining that leaves no good lane takes the port down. -/
theorem foripRetrainEnd_down (p n : Nat) (s : State) (hr : (s.port p).retraining = some n) :
    ∃ t, exec (.foripRetrainEnd p false false) s = .next t ∧ (t.port p).st = .down :=
  ⟨s.portDown p, by simp [exec, execForipRetrainEnd, hr], (portDown_spec s p).2⟩

/-! #### Status, training and identification -/

/-- A read of FPSTAT returns it and clears its counts. -/
theorem fpstatRead_clears (p : Nat) (s : State) (hp : p < 128) : ∃ t, exec (.fpstatRead p) s = .next t ∧
    t.mgmt.readData = BitVec.ofNat 64 (s.fpstat p) ∧ (t.port p).crcErr = 0 ∧ (t.port p).retrains = 0 ∧
    Assoc.get t.drops p 0 = 0 := by
  have h : ¬ 127 < p := by omega
  refine ⟨_, by simp only [exec, execFpstatRead, if_neg h]; rfl, ?_⟩
  simp only [State.modPort_mgmt, returnRead_readData, port_modPort_self, State.modPort_drops, Assoc.get_put_self, and_self]

/-- Training of an enabled port ends in IDENT, where it sends the package id and its own number. -/
theorem portTrainComplete_identifies (p : Nat) (s : State) (hen : s.fab.enable = true) (hst : (s.port p).st = .train) :
    ∃ t, exec (.portTrainComplete p) s = .next t ∧ (t.port p).st = .ident ∧ (t.port p).identSent = some (s.pkgId, p) := by
  refine ⟨_, by simp only [exec, execPortTrainComplete, hen, hst, and_self, if_true]; rfl, ?_⟩
  simp only [port_modPort_self, and_self]

/-- Identification brings the port up. -/
theorem portIdent_up (p pkg q : Nat) (s : State) (hst : (s.port p).st = .ident) (hpkg : pkg < 2 ^ 13) (hq : q < 128) :
    ∃ t, exec (.portIdent p pkg q) s = .next t ∧ (t.port p).st = .up ∧ (t.port p).peerPkg = pkg ∧ (t.port p).peerPort = q ∧
      (t.port p).oneLane = ((s.port p).oneLane && !(s.port p).request) ∧ (t.port p).request = false := by
  refine ⟨_, by simp only [exec, execPortIdent, hst, if_true]; rfl, ?_⟩
  simp only [port_modPort_self, Nat.mod_eq_of_lt hpkg, Nat.mod_eq_of_lt hq, and_self]

/-! #### MGMTERR (R119) -/

/-- An event of a vector changes, of the management block, only the vectors and their messages. -/
theorem mgmt_fireVector (s : State) (func n : Nat) :
    ∃ x l, (s.fireVector func n).mgmt = { s.mgmt with msix := x, msgs := l } := by
  simp only [State.fireVector, State.modMgmt_mgmt]
  split
  · exact ⟨_, s.mgmt.msgs, rfl⟩
  · exact ⟨_, _, rfl⟩

/-- A write that sets CLAMP changes, of the management block, only CLAMP, the vectors and their messages. -/
theorem mgmt_clamped (s : State) : ∃ x l, s.clamped.mgmt = { s.mgmt with clamp := true, msix := x, msgs := l } := by
  let u := s.modMgmt (fun m => { m with cfgErr := m.cfgErr || false, clamp := m.clamp || true })
  have hu : u.mgmt = { s.mgmt with clamp := true } := by simp [u]
  unfold State.clamped State.mgmtErr
  dsimp only
  split
  · obtain ⟨x, l, h⟩ := mgmt_fireVector u 0 2
    exact ⟨x, l, by rw [h, hu]⟩
  · exact ⟨s.mgmt.msix, s.mgmt.msgs, hu⟩

/-- A write that sets CLAMP leaves the fabric and its configuration as they are. -/
theorem clamped_spec (s : State) : s.clamped.mgmt.clamp = true ∧ s.clamped.fab = s.fab ∧ s.clamped.mcwait = s.mcwait ∧
    s.clamped.pkgId = s.pkgId := by
  obtain ⟨x, l, h⟩ := mgmt_clamped s
  refine ⟨by rw [h], ?_⟩
  unfold State.clamped State.mgmtErr
  dsimp only
  split <;> exact ⟨rfl, rfl, rfl⟩

/-! #### FABCFG (R57, R119) -/

/-- What FABCFG_WRITE stores before its ports train or go down. -/
def State.storeFabcfg (s : State) (v : Word) : State :=
  let t : State := { s with
    mcwait := min 28 (field v.toNat 44 40)
    pkgId := if s.fab.enable then s.pkgId else field v.toNat 12 0 }
  let t := t.modFab (fun f => { f with enable := v.getLsbD 13 })
  if 28 < field v.toNat 44 40 then t.clamped else t

/-- A write of FABCFG stores its fields, and then its ports train, go down, or stay. -/
theorem fabcfgWrite_eq (v : Word) (s : State) : exec (.fabcfgWrite v) s = .next (
    if v.getLsbD 13 && !s.fab.enable then (List.range 128).foldl (fun s p => s.modPort p (fun x =>
      if x.st = .down then { x with st := .train } else x)) (s.storeFabcfg v)
    else if s.fab.enable && !v.getLsbD 13 then
      ((s.storeFabcfg v).fab.ports.filter (fun p => p.2.st != .down)).foldl (fun s p => s.portDown p.1) (s.storeFabcfg v)
    else s.storeFabcfg v) := rfl

theorem storeFabcfg_spec (v : Word) (s : State) :
    (s.storeFabcfg v).mcwait = min 28 (v.toNat / 2 ^ 40 % 2 ^ 5) ∧
    (28 < v.toNat / 2 ^ 40 % 2 ^ 5 → (s.storeFabcfg v).mgmt.clamp = true) ∧ (s.storeFabcfg v).fab.enable = v.getLsbD 13 ∧
    (s.storeFabcfg v).pkgId = (if s.fab.enable then s.pkgId else v.toNat % 2 ^ 13) ∧
    ∀ p, (s.storeFabcfg v).port p = s.port p := by
  have hw : field v.toNat 44 40 = v.toNat / 2 ^ 40 % 2 ^ 5 := field_eq_div_mod _ _ _
  have hp : field v.toNat 12 0 = v.toNat % 2 ^ 13 := field_low _ 12
  unfold State.storeFabcfg
  rw [← hw, ← hp]
  by_cases h : 28 < field v.toNat 44 40
  · simp only [if_pos h]
    obtain ⟨hc, hf, hm, hi⟩ := clamped_spec (({ s with
      mcwait := min 28 (field v.toNat 44 40)
      pkgId := if s.fab.enable then s.pkgId else field v.toNat 12 0 } : State).modFab
        (fun f => { f with enable := v.getLsbD 13 }))
    exact ⟨hm, fun _ => hc, by rw [hf]; rfl, hi, fun p => by rw [State.port, hf]; rfl⟩
  · simp only [if_neg h]
    exact ⟨rfl, fun h' => absurd h' h, rfl, rfl, fun p => rfl⟩

/-- However the ports follow, FABCFG's fields stay as stored. -/
theorem fabcfgWrite_kept (v : Word) (s : State) : ∃ t, exec (.fabcfgWrite v) s = .next t ∧ ConfigKept (s.storeFabcfg v) t ∧
    (s.fab.enable = false → v.getLsbD 13 = true → ∀ p, p < 128 → (s.port p).st = .down → (t.port p).st = .train) := by
  refine ⟨_, fabcfgWrite_eq v s, ?_⟩
  split
  · refine ⟨List.foldlRecOn (motive := ConfigKept (s.storeFabcfg v)) _ _ (.refl _)
      (fun t h p _ => h.trans (configKept_modPort t p _)), fun _ _ p hp hd => ?_⟩
    obtain ⟨-, -, -, -, hport⟩ := storeFabcfg_spec v s
    rw [port_foldl_modPort _ p _ List.nodup_range, if_pos (List.mem_range.2 hp), hport p, if_pos hd]
  next hon =>
    have off (h : s.fab.enable = false) (hv : v.getLsbD 13 = true) : False := hon (by rw [h, hv]; rfl)
    split
    · exact ⟨List.foldlRecOn (motive := ConfigKept (s.storeFabcfg v)) _ _ (.refl _)
        (fun t h p _ => h.trans (portDown_spec t p.1).1), fun h hv => (off h hv).elim⟩
    · exact ⟨.refl _, fun h hv => (off h hv).elim⟩

/-- FABCFG's fields are stored, and ENABLE lets the ports train. -/
theorem fabcfgWrite_spec (v : Word) (s : State) : ∃ t, exec (.fabcfgWrite v) s = .next t ∧
    t.mcwait = min 28 (v.toNat / 2 ^ 40 % 2 ^ 5) ∧ (28 < v.toNat / 2 ^ 40 % 2 ^ 5 → t.mgmt.clamp = true) ∧
    t.fab.enable = v.getLsbD 13 ∧ t.pkgId = (if s.fab.enable then s.pkgId else v.toNat % 2 ^ 13) ∧
    (s.fab.enable = false → v.getLsbD 13 = true → ∀ p, p < 128 → (s.port p).st = .down → (t.port p).st = .train) := by
  obtain ⟨t, he, hk, ht⟩ := fabcfgWrite_kept v s
  obtain ⟨hw, hc, hen, hi, -⟩ := storeFabcfg_spec v s
  exact ⟨t, he, hk.mcwait.trans hw, fun h => by rw [hk.mgmt]; exact hc h, hk.enable.trans hen, hk.pkgId.trans hi, ht⟩

end Sys2Proof.Machine

namespace Sys2Proof
open Machine

/-- Settles O59, step by step: each step of a port is an equation of what it leaves of the port, and a port that goes down or
a write of FABCFG moves packets on the Z die by operations that keep the configuration and the state of every port. -/
theorem portEvents : Obligations.PortEvents := by
  refine ⟨fun p f w s hup hr => ⟨foripFlitReceive_unchecked p f w s, unchecked_eq _ w, foripFlitReceive_failed hup hr,
      foripFlitReceive_in_sequence hup hr, foripFlitReceive_out_of_sequence hup hr,
      fun i => linkControlReceive_acknowledges p i f s hup, linkControlSend_sends p s hup,
      foripRateRetrain_retrains p s hup hr, fpstatRetrain_up p s hup hr⟩,
    fun p n s hr => ⟨?_, ?_, foripRetrainEnd_down p n s hr⟩, fpstatRead_clears,
    fun p s hen => ⟨portTrainComplete_identifies p s hen, fpstatRetrain_down p s hen⟩, fpstatRetrain_not_up, portIdent_up,
    fabcfgWrite_spec⟩
  · obtain ⟨t, he, hn, ho, -⟩ := foripRetrainEnd_good p n true true s hr rfl
    exact ⟨t, he, hn, ho⟩
  · intro k
    obtain ⟨t, he, hn, ho, hl⟩ := foripRetrainEnd_good p n (!k) k s hr (by cases k <;> rfl)
    refine ⟨t, he, hn, ?_⟩
    cases k
    · exact ⟨ho, hl⟩
    · exact ⟨ho, hl⟩

end Sys2Proof

namespace Sys2Proof.Machine
open Sys2Proof

/-! ### Device memory: what the check, the copy and the write of a block leave (R94, R98) -/

/-! #### The management block -/

@[simp] theorem mgmt_countEcc (s : State) (u c n : Nat) : (s.countEcc u c n).mgmt = s.mgmt := rfl
@[simp] theorem mgmt_poisonBlock (s : State) (u a : Nat) : (s.poisonBlock u a).mgmt = s.mgmt := rfl
@[simp] theorem mgmt_cleanBlock (s : State) (u a : Nat) : (s.cleanBlock u a).mgmt = s.mgmt := rfl
@[simp] theorem mgmt_rawWrite (s : State) (u a : Nat) (d : List Byte) : (s.rawWrite u a d).mgmt = s.mgmt := rfl
@[simp] theorem mgmt_countForward (s : State) (v : Nat) (late : Bool) : (s.countForward v late).mgmt = s.mgmt := rfl

@[simp] theorem mgmt_checkBlock (s : State) (u a : Nat) (f : Finding) : (s.checkBlock u a f).mgmt = s.mgmt := by
  unfold State.checkBlock
  split
  · rfl
  · split <;> rfl

@[simp] theorem mgmt_blockWrite (s : State) (u a pa key : Nat) (d : List Byte) : (s.blockWrite u a pa key d).mgmt = s.mgmt := by
  have hs : (if d.length < 64 then s.checkBlock u a .clean else s).mgmt = s.mgmt := by
    split
    · exact mgmt_checkBlock s u a .clean
    · rfl
  unfold State.blockWrite
  generalize (if d.length < 64 then s.checkBlock u a .clean else s) = t at hs ⊢
  dsimp only
  split
  · exact hs
  · rw [mgmt_cleanBlock, mgmt_rawWrite, hs]

/-- Steps that each keep the management block keep it one after another. -/
theorem mgmt_foldl {α : Type} (f : State → α → State) (hf : ∀ s a, (f s a).mgmt = s.mgmt) (l : List α) (s : State) :
    (l.foldl f s).mgmt = s.mgmt :=
  List.foldlRecOn (motive := fun t : State => t.mgmt = s.mgmt) l f rfl (fun t h a _ => (hf t a).trans h)

@[simp] theorem mgmt_endMigration (s : State) : s.endMigration.mgmt = s.mgmt := by
  unfold State.endMigration
  split <;> rfl

@[simp] theorem mgmt_copyStored (s : State) (o n : Nat × Nat) : (s.copyStored o n).mgmt = s.mgmt := by
  unfold State.copyStored
  rw [mgmt_foldl, mgmt_rawWrite, mgmt_foldl]
  · exact fun s i => mgmt_checkBlock s _ _ _
  · intro s i
    split <;> rfl

@[simp] theorem mgmt_copyBlock (s : State) : s.copyBlock.mgmt = s.mgmt := by
  unfold State.copyBlock
  split
  · rfl
  · rw [mgmt_endMigration, State.modMem_mgmt, mgmt_copyStored]

@[simp] theorem mgmt_meetMigration (s : State) (die pa : Nat) : (s.meetMigration die pa).mgmt = s.mgmt := by
  have hs : (if s.migBlock pa = some s.mem.cursor then s.copyBlock else s).mgmt = s.mgmt := by
    split
    · exact mgmt_copyBlock s
    · rfl
  unfold State.meetMigration
  generalize (if s.migBlock pa = some s.mem.cursor then s.copyBlock else s) = t at hs ⊢
  dsimp only
  split
  · exact hs
  · split
    · exact hs
    · rw [mgmt_countForward, hs]

@[simp] theorem mgmt_aperMeets (s : State) (r : HostReq) : (s.aperMeets r).mgmt = s.mgmt := by
  unfold State.aperMeets
  rw [mgmt_foldl]
  exact fun t p => mgmt_meetMigration t 15 p.1

/-! #### The bytes -/

/-- A check of a block stores no byte. -/
@[simp] theorem mem_checkBlock (s : State) (u a : Nat) (f : Finding) : (s.checkBlock u a f).mem.mem = s.mem.mem := by
  unfold State.checkBlock
  split
  · rfl
  · split <;> rfl

/-- A check that finds nothing new does not poison a block that is not lost. -/
theorem poisoned_checkBlock_clean (s : State) (u a : Nat) (h : s.lost u a = false) :
    (s.checkBlock u a .clean).poisoned u a = false := by
  simp only [State.lost, Bool.or_eq_false_iff] at h
  obtain ⟨hp, hu⟩ := h
  unfold State.checkBlock
  rw [if_neg (by simp [hp])]
  cases he : s.upset u a with
  | clean => exact hp
  | oneSymbol => exact hp
  | uncorrectable => simp [he] at hu

/-- Without a running migration an access meets none. -/
theorem meetMigration_of_inactive (s : State) (die pa : Nat) (h : s.mem.migActive = false) : s.meetMigration die pa = s := by
  simp [State.meetMigration, State.migBlock, h]

theorem aperMeets_of_inactive (s : State) (r : HostReq) (h : s.mem.migActive = false) : s.aperMeets r = s := by
  unfold State.aperMeets
  refine List.foldlRecOn (motive := fun t => t = s) _ _ rfl (fun t ht p _ => ?_)
  rw [ht, meetMigration_of_inactive s 15 p.1 h]

/-- Bytes merged into a run that was read: the new bytes are read back, and every other byte reads as before. -/
theorem Memory.readByte_write_merged (m : Memory) (b o n x : Nat) (d : List Byte) (h : o + d.length ≤ n) :
    readByte (write m b ((read m b n).take o ++ d ++ (read m b n).drop (o + d.length))) x =
      if b + o ≤ x ∧ x < b + o + d.length then d.getD (x - (b + o)) 0 else readByte m x := by
  have hl : ((read m b n).take o ++ d ++ (read m b n).drop (o + d.length)).length = n := by simp; omega
  have old (i : Nat) (hi : i < n) : (read m b n)[i]?.getD 0 = readByte m (b + i) := by
    rw [← List.getD_eq_getElem?_getD, getD_read m b n i hi]
  rw [readByte_write, hl]
  by_cases hx : b ≤ x ∧ x < b + n
  · obtain ⟨i, rfl⟩ : ∃ i, x = b + i := ⟨x - b, by omega⟩
    rw [if_pos hx, List.getD_eq_getElem?_getD]
    have hi : b + i - b = i := by omega
    by_cases h1 : i < o
    · rw [if_neg (by omega), hi, List.append_assoc, List.getElem?_append_left (by simp; omega), List.getElem?_take_of_lt h1,
        old i (by omega)]
    · by_cases h2 : i < o + d.length
      · rw [if_pos (by omega), List.getD_eq_getElem?_getD, List.getElem?_append_left (by simp; omega),
          List.getElem?_append_right (by simp; omega)]
        congr 2
        simp
        omega
      · rw [if_neg (by omega), List.getElem?_append_right (by simp; omega), List.getElem?_drop]
        have e : o + d.length + (b + i - b - ((read m b n).take o ++ d).length) = i := by simp; omega
        rw [e, old i (by omega)]
  · rw [if_neg hx, if_neg (by omega)]

/-- A write under key slot 0 of bytes within a block that is not lost stores exactly them. -/
theorem readByte_blockWrite (s : State) (u a pa x : Nat) (d : List Byte) (hl : s.lost u a = false)
    (hd : a % 64 + d.length ≤ 64) : Memory.readByte (s.blockWrite u a pa 0 d).mem.mem x =
      if memKey u a ≤ x ∧ x < memKey u a + d.length then d.getD (x - memKey u a) 0 else Memory.readByte s.mem.mem x := by
  have hp : (if d.length < 64 then s.checkBlock u a .clean else s).poisoned u a = false := by
    split
    · exact poisoned_checkBlock_clean s u a hl
    · simp only [State.lost, Bool.or_eq_false_iff] at hl
      exact hl.1
  have hm : (if d.length < 64 then s.checkBlock u a .clean else s).mem.mem = s.mem.mem := by
    split
    · exact mem_checkBlock s u a .clean
    · rfl
  have hk : memKey u a = memKey u (a / 64 * 64) + a % 64 := by
    simp only [memKey]
    omega
  unfold State.blockWrite
  generalize (if d.length < 64 then s.checkBlock u a .clean else s) = t at hp hm ⊢
  rw [← hm, hk, ← Memory.readByte_write_merged _ _ _ 64 x d hd]
  simp only [hp, Bool.false_and, Bool.false_eq_true, if_false]
  rfl

/-! ### The apertures (R116, R120, R121) -/

theorem aperctl_of_mgmt {s t : State} (h : t.mgmt = s.mgmt) (f : Nat) : t.aperctl f = s.aperctl f := by
  simp only [State.aperctl, h]

/-- The key slot that APERCTL names. -/
theorem aperctl_key (x : Nat) : field x 7 0 = x % 2 ^ 8 := field_low x 7

section
variable {r : HostReq} {s : State}

/-- An access outside the function's window is an Unsupported Request. -/
theorem apertureRequest_closed (ho : s.aperOpen r.func r.offset r.size = false) :
    exec (.apertureRequest r) s = .next s.unsupported := by
  simp only [exec, execApertureRequest, ho, Bool.not_false, if_true]

/-- An access that has met the migration, and one of whose blocks has no place, is an Unsupported Request. -/
theorem apertureRequest_no_place (ho : s.aperOpen r.func r.offset r.size = true) (hb : (s.aperMeets r).aperBlocks r = none) :
    exec (.apertureRequest r) s = .next (s.aperMeets r).unsupported := by
  simp only [exec, execApertureRequest, ho, hb, Bool.not_true, Bool.false_eq_true, if_false]

/-- A read returns the bytes of its blocks, poisoned when one is lost, and leaves memory as it is. -/
theorem apertureRequest_read (l : List (Nat × Nat × Nat × Nat × Nat)) (ho : s.aperOpen r.func r.offset r.size = true)
    (hb : (s.aperMeets r).aperBlocks r = some l) (hw : r.write = none) :
    let v := s.aperMeets r
    ∃ t, exec (.apertureRequest r) s = .next t ∧ t.mgmt.unsupported = false ∧ t.mem.mem = v.mem.mem ∧
      t.mgmt.poisonedRead = l.any (fun p => v.lost p.2.2.1 p.2.2.2.1) ∧
      (t.mgmt.poisonedRead = false → t.mgmt.hostData = (l.map (fun p =>
        ((v.blockRead p.2.2.1 p.2.2.2.1 p.2.2.2.2 ((s.aperctl r.func) % 2 ^ 8)).drop (p.2.2.2.1 % 64)).take p.2.1)).flatten) := by
  intro v
  have hk : field (v.aperctl r.func) 7 0 = s.aperctl r.func % 2 ^ 8 := by
    rw [aperctl_of_mgmt (mgmt_aperMeets s r), aperctl_key]
  refine ⟨_, by simp only [exec, execApertureRequest, ho, hb, hw, Bool.not_true, Bool.false_eq_true, if_false]; rfl, ?_⟩
  simp only [State.modMgmt_mgmt, State.modMgmt_mem]
  refine ⟨trivial, ?_, rfl, fun h => ?_⟩
  · exact List.foldlRecOn (motive := fun t : State => t.mem.mem = v.mem.mem) _ _ rfl
      (fun t ht p _ => (mem_checkBlock t _ _ _).trans ht)
  · rw [if_neg (by rw [h]; decide), hk]

/-- A write of bytes of one block stores exactly them. -/
theorem apertureRequest_write (d : List Byte) (n u a pa : Nat) (ho : s.aperOpen r.func r.offset r.size = true)
    (hb : (s.aperMeets r).aperBlocks r = some [(0, n, u, a, pa)]) (hw : r.write = some d) (hd : d.length = n)
    (ha : a % 64 + n ≤ 64) (hk : s.aperctl r.func % 2 ^ 8 = 0) (hl : (s.aperMeets r).lost u a = false) :
    ∃ t, exec (.apertureRequest r) s = .next t ∧ t.mgmt.unsupported = false ∧ ∀ x, Memory.readByte t.mem.mem x =
      if memKey u a ≤ x ∧ x < memKey u a + n then d.getD (x - memKey u a) 0
      else Memory.readByte (s.aperMeets r).mem.mem x := by
  have hk' : field ((s.aperMeets r).aperctl r.func) 7 0 = 0 := by
    rw [aperctl_of_mgmt (mgmt_aperMeets s r), aperctl_key, hk]
  let v := (s.aperMeets r).modMgmt (fun m => { m with unsupported := false, hostData := [], poisonedRead := false })
  refine ⟨v.blockWrite u a pa 0 d, ?_, ?_, fun x => ?_⟩
  · simp only [exec, execApertureRequest, ho, hb, hw, hk', Bool.not_true, Bool.false_eq_true, if_false, List.foldl_cons,
      List.foldl_nil, List.drop_zero, List.take_of_length_le (Nat.le_of_eq hd), v]
  · rw [mgmt_blockWrite]
    rfl
  · subst hd
    exact readByte_blockWrite v u a pa x d hl ha

end

/-! #### APERCTL (R120) -/

/-- The low half of a 128-bit register replaced. -/
theorem setField_low_half (x v : Nat) : setField x 63 0 v = x / 2 ^ 64 * 2 ^ 64 + v % 2 ^ 64 := by
  have h : v % 2 ^ 64 < 2 ^ 64 := Nat.mod_lt _ (by decide)
  simp only [setField, Nat.shiftLeft_zero, Nat.pow_zero, Nat.mod_one, Nat.or_zero, Nat.sub_zero]
  rw [← Nat.shiftLeft_add_eq_or_of_lt h, Nat.shiftLeft_eq, Nat.shiftRight_eq_div_pow]

/-- The high half of a 128-bit register replaced. -/
theorem setField_high_half (x v : Nat) (hx : x < 2 ^ 128) : setField x 127 64 v = v % 2 ^ 64 * 2 ^ 64 + x % 2 ^ 64 := by
  have h : x % 2 ^ 64 < 2 ^ 64 := Nat.mod_lt _ (by decide)
  have h0 : x >>> 128 = 0 := by rw [Nat.shiftRight_eq_div_pow, Nat.div_eq_of_lt hx]
  simp only [setField, h0, Nat.zero_shiftLeft, Nat.zero_or]
  rw [← Nat.shiftLeft_add_eq_or_of_lt h, Nat.shiftLeft_eq]

theorem aperctl_lt (s : State) (f : Nat) : s.aperctl f < 2 ^ 128 := BitVec.isLt _

/-- What APERCTL reads after its word was replaced. -/
theorem aperctl_modMgmt_put (s : State) (f y : Nat) :
    (s.modMgmt (fun m => { m with aper := Assoc.put m.aper f (BitVec.ofNat 128 y) })).aperctl f = y % 2 ^ 128 := by
  simp [State.aperctl]

theorem aperctl_clamped (s : State) (f : Nat) : s.clamped.aperctl f = s.aperctl f := by
  obtain ⟨x, l, h⟩ := mgmt_clamped s
  simp only [State.aperctl, h]

/-- The low half of APERCTL takes the window's base and key slot. -/
theorem aperctlWrite_low (f : Nat) (v : Word) (s : State) (hf : f < 64) : ∃ t, exec (.aperctlWrite f false v) s = .next t ∧
    t.aperctl f / 2 ^ 64 = s.aperctl f / 2 ^ 64 ∧
    t.aperctl f % 2 ^ 64 = v.toNat / 2 ^ 30 % 2 ^ 22 * 2 ^ 30 + v.toNat % 2 ^ 8 := by
  have hn : ¬ 63 < f := by omega
  have hx := aperctl_lt s f
  have hb : field v.toNat 51 30 = v.toNat / 2 ^ 30 % 2 ^ 22 := field_eq_div_mod _ _ _
  refine ⟨_, by simp only [exec, execAperctlWrite, if_neg hn, Bool.false_and, Bool.false_eq_true, if_false]; rfl, ?_⟩
  rw [aperctl_modMgmt_put, setField_low_half, aperctl_key, hb]
  omega

/-- The high half of APERCTL takes SIZE, clamped to the function's limit. -/
theorem aperctlWrite_high (f : Nat) (v : Word) (s : State) (hf : f < 64) (top : Nat)
    (ht : (if f = 0 then 8192 else 64) = top) : ∃ t, exec (.aperctlWrite f true v) s = .next t ∧
      t.aperctl f / 2 ^ 64 = min (v.toNat % 2 ^ 14) top ∧ t.aperctl f % 2 ^ 64 = s.aperctl f % 2 ^ 64 ∧
      (top < v.toNat % 2 ^ 14 → t.mgmt.clamp = true) := by
  have hn : ¬ 63 < f := by omega
  have hs : field v.toNat 13 0 = v.toNat % 2 ^ 14 := field_low _ 13
  obtain ⟨u, he, hu⟩ : ∃ u : State, exec (.aperctlWrite f true v) s =
        .next (if top < v.toNat % 2 ^ 14 then u.clamped else u) ∧
      u.aperctl f = setField (s.aperctl f) 127 64 (min (v.toNat % 2 ^ 14) top) % 2 ^ 128 := by
    refine ⟨?u, ?_, ?_⟩
    rotate_left
    · simp only [exec, execAperctlWrite, if_neg hn, hs, ht, Bool.true_and, if_true, decide_eq_true_eq]
      rfl
    · exact aperctl_modMgmt_put s f _
  have hc : (if top < v.toNat % 2 ^ 14 then u.clamped else u).aperctl f = u.aperctl f := by
    split
    · exact aperctl_clamped u f
    · rfl
  refine ⟨_, he, ?_⟩
  rw [hc, hu, setField_high_half _ _ (aperctl_lt s f)]
  refine ⟨by omega, by omega, fun h => ?_⟩
  obtain ⟨x, l, hx⟩ := mgmt_clamped u
  rw [if_pos h, hx]

/-! ### MSI-X (R125, R126) -/

@[simp] theorem Mgmt.vector_setVector_self (m : Mgmt) (func n : Nat) (x : Msix) : (m.setVector func n x).vector func n = x := by
  simp [Mgmt.vector, Mgmt.setVector]

/-- A message sent is no longer pending. -/
@[simp] theorem Mgmt.vector_sendVector_self (m : Mgmt) (func n : Nat) :
    (m.sendVector func n).vector func n = { m.vector func n with pending := false } :=
  Mgmt.vector_setVector_self m func n _

/-- A message sent is counted. -/
theorem Mgmt.msgs_sendVector (m : Mgmt) (func n : Nat) :
    Assoc.get (m.sendVector func n).msgs (64 * func + n) 0 = Assoc.get m.msgs (64 * func + n) 0 + 1 := by
  simp [Mgmt.sendVector, vectorKey]

/-- A vector that is not masked sends its pending message while MSI-X is enabled. -/
theorem mgmt_releaseVector (s : State) (func n : Nat) (h : (s.mgmt.vector func n).data.getLsbD 32 = false) :
    (s.releaseVector func n).mgmt =
      if (s.mgmt.vector func n).pending && s.mgmt.msixOn.contains func then s.mgmt.sendVector func n else s.mgmt := by
  simp only [State.releaseVector, State.modMgmt_mgmt, h, Bool.not_false, Bool.and_true]

/-- Unmasking a vector clears its mask and sends its pending message. -/
theorem msixUnmask_releases (func n : Nat) (s : State) (hf : func < 64) (hn : n < vectorCount func) :
    let x := s.mgmt.vector func n
    ∃ t, exec (.msixUnmask func n) s = .next t ∧ (t.mgmt.vector func n).data = x.data &&& ~~~ 0x100000000#64 ∧
      (x.pending = true → s.mgmt.msixOn.contains func = true → (t.mgmt.vector func n).pending = false ∧
        Assoc.get t.mgmt.msgs (64 * func + n) 0 = Assoc.get s.mgmt.msgs (64 * func + n) 0 + 1) := by
  intro x
  let u := s.modMgmt (fun m => m.setVector func n { x with data := x.data &&& ~~~ 0x100000000#64 })
  have hv : ¬ (decide (63 < func) || decide (vectorCount func ≤ n)) = true := by simp; omega
  have hx : u.mgmt.vector func n = { x with data := x.data &&& ~~~ 0x100000000#64 } := Mgmt.vector_setVector_self _ _ _ _
  have hm := mgmt_releaseVector u func n (by simp [hx])
  refine ⟨u.releaseVector func n, by simp only [exec, execMsixUnmask, if_neg hv]; rfl, ?_⟩
  rw [hm]
  split
  · rw [Mgmt.vector_sendVector_self, hx, Mgmt.msgs_sendVector]
    exact ⟨rfl, fun _ _ => ⟨rfl, rfl⟩⟩
  next hsend =>
    rw [hx]
    exact ⟨rfl, fun hp ho => absurd (by rw [hx, hp, Bool.true_and]; exact ho) hsend⟩

/-- The accesses of the host, in the order of R116, R120, R121, R126. -/
theorem hostAccesses : Rule.HostAccesses :=
  ⟨fun r s => ⟨aperMeets_of_inactive s r, apertureRequest_closed, apertureRequest_no_place, apertureRequest_read,
      apertureRequest_write⟩,
    fun _ _ => ⟨rfl, rfl⟩,
    fun f v s hf => ⟨aperctlWrite_low f v s hf, aperctlWrite_high f v s hf _ rfl⟩,
    fun func n s hf hn => msixUnmask_releases func n s hf hn⟩

/-! ### Outbound requests (R122 to R124) -/

section
variable {i : Nat} {s : State} {r : OutReq} (hi : s.outReqs[i]? = some r)
include hi

/-- Without Bus Master Enable a request is answered with 0x93. -/
theorem outboundRequestSend_disabled (hr : s.outReady i = true) (hb : s.busMaster = false) :
    exec (.outboundRequestSend i) s = .next (State.answerOut { s with outReqs := s.outReqs.eraseIdx i } r (.err 0x93)) := by
  simp only [exec, execOutboundRequestSend, hr, hi, hb, Bool.not_true, Bool.not_false, Bool.false_eq_true, if_false, if_true]

/-- A write leaves the port and is answered. -/
theorem outboundRequestSend_write (d : List Byte) (hr : s.outReady i = true) (hb : s.busMaster = true) (hd : r.data = some d) :
    exec (.outboundRequestSend i) s = .next (State.answerOut { s with outReqs := s.outReqs.eraseIdx i } r (.ok d)) := by
  simp only [exec, execOutboundRequestSend, hr, hi, hb, hd, Bool.not_true, Bool.false_eq_true, if_false]

/-- A read leaves the port and awaits its completion. -/
theorem outboundRequestSend_read (hr : s.outReady i = true) (hb : s.busMaster = true) (hd : r.data = none) :
    exec (.outboundRequestSend i) s =
      .next { s with outReqs := s.outReqs.set i { r with sent := true, sentAt := s.ticks } } := by
  simp only [exec, execOutboundRequestSend, hr, hi, hb, hd, Bool.not_true, Bool.false_eq_true, if_false]

/-- The bytes of a completion answer the read. -/
theorem outboundCompletion_data (b : List Byte) (hs : r.sent = true) (hb : b.length = r.size) :
    exec (.outboundCompletion i (.data b)) s =
      .next (State.answerOut { s with outReqs := s.outReqs.eraseIdx i } r (.ok b)) := by
  simp only [exec, execOutboundCompletion, hi, hs, Bool.not_true, Bool.false_eq_true, if_false, List.take_left' hb]

/-- Any other completion answers the read with 0x93. -/
theorem outboundCompletion_error (c : Completion) (hs : r.sent = true) (hc : ∀ b, c ≠ .data b) :
    exec (.outboundCompletion i c) s =
      .next (State.answerOut { s with outReqs := s.outReqs.eraseIdx i } r (.err 0x93)) := by
  cases c with
  | data b => exact absurd rfl (hc b)
  | unsupportedRequest | completerAbort | poisoned =>
    simp only [exec, execOutboundCompletion, hi, hs, Bool.not_true, Bool.false_eq_true, if_false]

/-- A read without a completion for 10 ms is answered with 0x94. -/
theorem outboundReadTimeout_expired (hs : r.sent = true) (ht : r.sentAt + 1000000 ≤ s.ticks) :
    exec (.outboundReadTimeout i) s =
      .next (State.answerOut { s with outReqs := s.outReqs.eraseIdx i } r (.err 0x94)) := by
  simp only [exec, execOutboundReadTimeout, hi, OutReq.expired, hs, ht, decide_true, Bool.and_true, if_true]

end

theorem outboundRequests : Rule.OutboundRequests :=
  fun _ _ _ hi => ⟨outboundRequestSend_disabled hi, outboundRequestSend_write hi, outboundRequestSend_read hi,
    outboundCompletion_data hi, outboundCompletion_error hi, outboundReadTimeout_expired hi⟩

/-! ### Writes of the management block (R8, R117, R118) -/

section
variable (v : Word) (s : State)

/-! #### The parts of the map -/

theorem mgmtRegisterWrite_low (o : Nat) (ha : o % 8 = 0) (ho : o < 0x70000) :
    exec (.mgmtRegisterWrite o v) s = .next (s.writeLow o v) := by
  simp (disch := omega) only [exec, execMgmtRegisterWrite, if_neg, if_pos]

theorem mgmtRegisterWrite_mid (o : Nat) (ha : o % 8 = 0) (hl : 0x70000 ≤ o) (ho : o < 0x100000) :
    exec (.mgmtRegisterWrite o v) s = .next (s.writeMid o v) := by
  simp (disch := omega) only [exec, execMgmtRegisterWrite, if_neg, if_pos]

theorem mgmtRegisterWrite_high (o : Nat) (ha : o % 8 = 0) (hl : 0x1000000 ≤ o) (ho : o < 2 ^ 32) :
    exec (.mgmtRegisterWrite o v) s = .next (s.writeHigh o v) := by
  simp (disch := omega) only [exec, execMgmtRegisterWrite, if_neg, if_pos]

/-- An offset that is not a word's, or lies between the parts of the map, changes nothing. -/
theorem mgmtRegisterWrite_none (o : Nat) (h : o % 8 ≠ 0 ∨ 0x100000 ≤ o ∧ o < 0x1000000) :
    exec (.mgmtRegisterWrite o v) s = .next s := by
  by_cases ha : o % 8 = 0
  · simp (disch := omega) only [exec, execMgmtRegisterWrite, if_neg, if_pos]
  · simp only [exec, execMgmtRegisterWrite, if_pos ha]

/-! #### Registers below 0x7_0000 -/

theorem writeLow_d2dstat (i : Nat) (hi : i < 240) (hv : v.getLsbD 3 = true) :
    .next (s.writeLow (0x10000 + 8 * i) v) = exec (.d2dstatRetrain i) s := by
  have e : (0x10000 + 8 * i - 0x10000) / 8 = i := by omega
  simp (disch := omega) only [State.writeLow, Bool.and_eq_true, decide_eq_true_eq, if_neg, if_pos, hv, e]
  rfl

theorem writeLow_permitcfg (i : Nat) (hi : i < 384) :
    .next (s.writeLow (0x20000 + 8 * i) v) = exec (.permitcfgWrite i v) s := by
  have e : (0x20000 + 8 * i - 0x20000) / 8 = i := by omega
  simp (disch := omega) only [State.writeLow, Bool.and_eq_true, decide_eq_true_eq, if_neg, if_pos, e]
  rfl

theorem writeLow_fpstat (i : Nat) (hi : i < 128) (hv : v.getLsbD 3 = true) :
    .next (s.writeLow (0x60000 + 8 * i) v) = exec (.fpstatRetrain i) s := by
  have e : (0x60000 + 8 * i - 0x60000) / 8 = i := by omega
  simp (disch := omega) only [State.writeLow, Bool.and_eq_true, decide_eq_true_eq, if_neg, if_pos, hv, e]
  rfl

/-! #### Registers from 0x7_0000 to 0xF_FFFF -/

theorem writeMid_queue (i : Nat) (hi : i < 32) (he : (s.queue i).enable = false) (hv : v.getLsbD 0 = true) :
    .next (s.writeMid (0x80000 + 64 * i) v) = exec (.queueEnable i v) s := by
  have e : (0x80000 + 64 * i - 0x80000) / 64 = i := by omega
  have hq : ¬ 31 < i := by omega
  simp (disch := omega) only [State.writeMid, Bool.and_eq_true, decide_eq_true_eq, if_neg, if_pos, e]
  simp [exec, execQueueEnable, hq, he, hv]

theorem writeMid_aperctl (i : Nat) (hi : i < 64) :
    .next (s.writeMid (0x90000 + 16 * i) v) = exec (.aperctlWrite i false v) s ∧
    .next (s.writeMid (0x90008 + 16 * i) v) = exec (.aperctlWrite i true v) s := by
  have e0 : (0x90000 + 16 * i - 0x90000) / 16 = i := by omega
  have hsub : 0x90008 + 16 * i - 0x90000 = 16 * i + 8 := by omega
  have e1 : (16 * i + 8) / 16 = i := by omega
  have h0 : ((0x90000 + 16 * i) % 16 == 8) = false := beq_false_of_ne (by omega)
  have h1 : ((0x90008 + 16 * i) % 16 == 8) = true := beq_iff_eq.2 (by omega)
  constructor
  · simp (disch := omega) only [State.writeMid, Bool.and_eq_true, decide_eq_true_eq, if_neg, if_pos, e0, h0]
    rfl
  · simp (disch := omega) only [State.writeMid, Bool.and_eq_true, decide_eq_true_eq, if_neg, if_pos, hsub, e1, h1]
    rfl

theorem writeMid_invctl (hv : v.getLsbD 0 = true) : .next (s.writeMid 0x78008 v) = exec (.invalidationPost v) s := by
  have h : s.writeMid 0x78008 v = s.writeInvctl v := rfl
  rw [h, State.writeInvctl, if_pos hv]
  rfl

/-! #### Registers from 0x100_0000 -/

theorem writeHigh_ringcfg (i : Nat) (hi : i < 16) :
    .next (s.writeHigh (0x1C00000 + 8 * i) v) = exec (.ringcfgWrite i v) s := by
  have e : (0x1C00000 + 8 * i - 0x1C00000) / 8 = i := by omega
  simp (disch := omega) only [State.writeHigh, Bool.and_eq_true, decide_eq_true_eq, if_neg, if_pos, e]
  rfl

theorem writeHigh_route (o : Nat) (ho : o < 8 * 2 ^ 17) (hr : o % 32 = 24) :
    .next (s.writeHigh (0x1000000 + o) v) = exec (.routeTablePublish (0x1000000 + o) v) s := by
  simp (disch := omega) only [State.writeHigh, Bool.and_eq_true, decide_eq_true_eq, if_neg, if_pos]
  rfl

/-- A 64-bit write of the management block does what the row of its register does. -/
theorem managementRegisterWrites : Rule.ManagementRegisterWrites := by
  intro v s
  refine ⟨rfl, rfl, rfl, rfl, fun i hi => ?_, fun i hi => ?_, fun i hi => ?_, fun hv => ⟨fun i hi => ?_, fun i hi => ?_⟩,
    fun i hi he hv => ?_, fun o ho hr => ?_, fun hv => ?_, ⟨_, rfl, rfl, rfl⟩, ⟨_, rfl, ?_⟩, ⟨_, rfl, ?_⟩,
    fun o ho => mgmtRegisterWrite_none v s o ho⟩
  · rw [mgmtRegisterWrite_low v s _ (by omega) (by omega), writeLow_permitcfg v s i hi]
  · rw [mgmtRegisterWrite_high v s _ (by omega) (by omega) (by omega), writeHigh_ringcfg v s i hi]
  · rw [mgmtRegisterWrite_mid v s (0x90000 + 16 * i) (by omega) (by omega) (by omega),
      mgmtRegisterWrite_mid v s (0x90008 + 16 * i) (by omega) (by omega) (by omega)]
    exact writeMid_aperctl v s i hi
  · rw [mgmtRegisterWrite_low v s _ (by omega) (by omega), writeLow_d2dstat v s i hi hv]
  · rw [mgmtRegisterWrite_low v s _ (by omega) (by omega), writeLow_fpstat v s i hi hv]
  · rw [mgmtRegisterWrite_mid v s _ (by omega) (by omega) (by omega), writeMid_queue v s i hi he hv]
  · rw [mgmtRegisterWrite_high v s _ (by omega) (by omega) (by omega), writeHigh_route v s o ho hr]
  · rw [mgmtRegisterWrite_mid v s _ (by omega) (by omega) (by omega), writeMid_invctl v s hv]
  · exact congrArg (· * 2 ^ 19) (field_eq_div_mod v.toNat 51 19)
  · exact congrArg (· * 2 ^ 12) (field_eq_div_mod v.toNat 56 12)

end

end Sys2Proof.Machine

namespace Sys2Proof
open Machine

/-- Settles O56: the accesses of the host, the outbound requests, and the writes of the management block. -/
theorem hostPortAndRegisters : Obligations.HostPortAndRegisters :=
  ⟨hostAccesses, outboundRequests, managementRegisterWrites⟩

end Sys2Proof
